-- ==== Sys2Proof/Word.lean ====
section
/-! DEFINITION. The word types of the TZ-192 model and their plainest arithmetic (03_program_state.md R62 to R64). -/

namespace Sys2Proof

/-- A byte of memory. -/
abbrev Byte := BitVec 8

/-- A lane value or a scalar instruction word, 32 bits (R63, R85). -/
abbrev W32 := BitVec 32

/-- A scalar register, address or doubleword, 64 bits (R62). -/
abbrev W64 := BitVec 64

end Sys2Proof
end

