-- ==== Sys2Proof/Syntax.lean ====
section
/-! DEFINITION. Every row of spec/opcode_table.json as one constructor of Instr. A row that instruction words encode
carries its fields as the encodings of 04_encodings.md lay them out; a row that no word encodes (an event of the
device) carries the data of the event. The rule of each row stands beside it. -/

namespace Sys2Proof

/-- The fields of an SE word beside OP and SUB (R90). -/
structure SeOps where
  a : BitVec 6
  b : BitVec 6
  g : BitVec 5
  acq : Bool
  rel : Bool
  scope : BitVec 3
  deriving DecidableEq, Repr

/-- The fields of an L64 or L96 word beside OP (R96, R98). `lit` is the literal of an L96 word; none is L64. -/
structure LaneOps where
  mod : BitVec 6
  fl : BitVec 2
  mask : BitVec 4
  c : BitVec 10
  b : BitVec 10
  a : BitVec 10
  d : BitVec 10
  lit : Option W32
  deriving DecidableEq, Repr

/-- The fields of an L32 word beside OP6 (R99). -/
structure L32Ops where
  msel : BitVec 3
  b : BitVec 7
  a : BitVec 7
  d : BitVec 7
  deriving DecidableEq, Repr

/-- The fields of a Halyard word beside OP (R375). -/
structure HlOps where
  d : BitVec 4
  a : BitVec 4
  b : BitVec 4
  x : BitVec 8
  y : BitVec 8
  imm : BitVec 32
  deriving DecidableEq, Repr

/-- How a message of the transport is delivered (R430). -/
inductive Delivery where
  | rod
  | rud
  | rudi
  | uud
  deriving DecidableEq, Repr

/-- What a message of the transport asks of the semantic sublayer (R430). -/
inductive SemanticOp where
  | send
  | tagged
  | rendezvous
  | rmaRead
  | rmaWrite
  | atomic
  deriving DecidableEq, Repr

/-- A request of a client over Ultra Ethernet: how the transport brings it, as R430 supports it unless said otherwise; the port it came
through, the header fields, MAGIC and STATUS at their one good value unless said otherwise, and the body (R431). -/
structure Request where
  delivery : Delivery := .rod
  op : SemanticOp := .send
  /-- The connection has TSS with AES-256-GCM. -/
  secured : Bool := true
  /-- The packet-delivery context of its connection. -/
  context : Nat := 0
  /-- TYPE of the header. -/
  type : Nat
  magic : Nat := 0x54494C52
  status : Nat := 0
  port : Nat
  flags : Nat
  requestId : Nat
  handle : Nat
  body : List Byte
  deriving DecidableEq, Repr

/-- One event of a GENERATE: the taking of the request, or with `more` a further part of a generation taken before, and the tokens that the
model commits in it (R431; log 41). -/
structure GenerateTurn where
  more : Bool
  tokens : List Nat
  deriving DecidableEq, Repr

/-- What a boot meets (R442): the outcomes of its two verifications, the first stage's and the Tiller image's, the port id that each link
meets, and the offset in nanoseconds from the 1588 master. -/
structure BootRun where
  first : Bool
  tiller : Bool
  links : List (Option Nat)
  offset : Int
  deriving DecidableEq, Repr

/-- What another device asks of this one (R234, R339). -/
inductive FleetKind where
  /-- A PUT's or SIGNAL's bytes to be written, each run with its virtual address. -/
  | write (runs : List (W64 × List Byte))
  /-- A GET's bytes to be read. -/
  | read (count : Nat)
  /-- The bytes that answer this device's own GET. -/
  | data (bytes : List Byte)
  /-- A write of this device's own PUT or SIGNAL has been performed there. -/
  | done
  /-- The fault entry of this device's own transfer, of that sequence number, was killed there. -/
  | killed (seq : W64)
  /-- This device's own transfer met an uncorrectable error there, at that physical address. -/
  | error (pa : Nat)
  deriving DecidableEq, Repr

/-- A PUT, GET or SIGNAL of another device reaching this one, or what answers one of this device: the other device, the number by
which the issuing device knows the transfer, and the virtual address on the device that owns the memory (R234). -/
structure FleetAccess where
  source : Nat
  message : Nat
  va : W64
  kind : FleetKind
  deriving DecidableEq, Repr

/-- One constructor per row of spec/opcode_table.json. -/
inductive Instr where
  | add (d a b : BitVec 6)  -- ADD (R137)
  | sub (d a b : BitVec 6)  -- SUB (R137)
  | mul (d a b : BitVec 6)  -- MUL (R137)
  | mulh (d a b : BitVec 6)  -- MULH (R137)
  | mulhw (d a b : BitVec 6)  -- MULHW (R137)
  | div (d a b : BitVec 6)  -- DIV (R137)
  | divw (d a b : BitVec 6)  -- DIVW (R137)
  | rem (d a b : BitVec 6)  -- REM (R137)
  | remw (d a b : BitVec 6)  -- REMW (R137)
  | and (d a b : BitVec 6)  -- AND (R137)
  | or (d a b : BitVec 6)  -- OR (R137)
  | xor (d a b : BitVec 6)  -- XOR (R137)
  | andn (d a b : BitVec 6)  -- ANDN (R137)
  | shl (d a b : BitVec 6)  -- SHL (R137)
  | shr (d a b : BitVec 6)  -- SHR (R137)
  | sar (d a b : BitVec 6)  -- SAR (R137)
  | rot (d a b : BitVec 6)  -- ROT (R137)
  | min (d a b : BitVec 6)  -- MIN (R137)
  | max (d a b : BitVec 6)  -- MAX (R137)
  | minw (d a b : BitVec 6)  -- MINW (R137)
  | maxw (d a b : BitVec 6)  -- MAXW (R137)
  | clz (d a : BitVec 6)  -- CLZ (R137)
  | ctz (d a : BitVec 6)  -- CTZ (R137)
  | popc (d a : BitVec 6)  -- POPC (R137)
  | seq (d a b : BitVec 6)  -- SEQ (R137)
  | sne (d a b : BitVec 6)  -- SNE (R137)
  | slt (d a b : BitVec 6)  -- SLT (R137)
  | sltw (d a b : BitVec 6)  -- SLTW (R137)
  | sge (d a b : BitVec 6)  -- SGE (R137)
  | sgew (d a b : BitVec 6)  -- SGEW (R137)
  | addi (d a : BitVec 6) (i : BitVec 14)  -- ADDI (R138)
  | andi (d a : BitVec 6) (i : BitVec 14)  -- ANDI (R138)
  | ori (d a : BitVec 6) (i : BitVec 14)  -- ORI (R138)
  | xori (d a : BitVec 6) (i : BitVec 14)  -- XORI (R138)
  | slti (d a : BitVec 6) (i : BitVec 14)  -- SLTI (R138)
  | sltiw (d a : BitVec 6) (i : BitVec 14)  -- SLTIW (R138)
  | shli (d a n : BitVec 6)  -- SHLI (R139)
  | shri (d a n : BitVec 6)  -- SHRI (R139)
  | sari (d a n : BitVec 6)  -- SARI (R139)
  | roti (d a n : BitVec 6)  -- ROTI (R139)
  | limm (d : BitVec 6) (i : BitVec 20)  -- LIMM (R140)
  | lpc (d : BitVec 6) (i : BitVec 20)  -- LPC (R140)
  | lcaddr (d : BitVec 6) (i : BitVec 20)  -- LCADDR (R140)
  | beq (a b : BitVec 6) (o : BitVec 14)  -- BEQ (R141)
  | bne (a b : BitVec 6) (o : BitVec 14)  -- BNE (R141)
  | blt (a b : BitVec 6) (o : BitVec 14)  -- BLT (R141)
  | bge (a b : BitVec 6) (o : BitVec 14)  -- BGE (R141)
  | bltw (a b : BitVec 6) (o : BitVec 14)  -- BLTW (R141)
  | bgew (a b : BitVec 6) (o : BitVec 14)  -- BGEW (R141)
  | jmp (o : BitVec 26)  -- JMP (R142)
  | call (o : BitVec 26)  -- CALL (R142)
  | jr (a : BitVec 6)  -- JR (R142)
  | brx (v : BitVec 10) (t : BitVec 16)  -- BRX (R43)
  | join  -- JOIN (R44)
  | exit  -- EXIT (R146)
  | bexz (o : BitVec 26)  -- BEXZ (R143)
  | bexnz (o : BitVec 26)  -- BEXNZ (R143)
  | lrun (o : BitVec 20)  -- LRUN (R147)
  | lrunr (a : BitVec 6) (o : BitVec 20)  -- LRUNR (R147)
  | waitf (f : BitVec 12)  -- WAITF (R148)
  | waitcGld (a : BitVec 6)  -- WAITC_GLD (R149)
  | waitcGst (a : BitVec 6)  -- WAITC_GST (R149)
  | waitcSpd (a : BitVec 6)  -- WAITC_SPD (R149)
  | waitcGln (a : BitVec 6)  -- WAITC_GLN (R149)
  | waitcEng (a : BitVec 6)  -- WAITC_ENG (R149)
  | waitcRem (a : BitVec 6)  -- WAITC_REM (R149)
  | execSet (a : BitVec 6)  -- EXEC_SET (R150)
  | execGet (d : BitVec 6)  -- EXEC_GET (R150)
  | execAnd (a : BitVec 6)  -- EXEC_AND (R150)
  | execAndn (a : BitVec 6)  -- EXEC_ANDN (R150)
  | execOr (a : BitVec 6)  -- EXEC_OR (R150)
  | execNot (a : BitVec 6)  -- EXEC_NOT (R150)
  | execAll  -- EXEC_ALL (R150)
  | msav (d a : BitVec 6)  -- MSAV (R151)
  | mset (d a : BitVec 6)  -- MSET (R151)
  | mcnt (d a : BitVec 6)  -- MCNT (R151)
  | mffs (d a : BitVec 6)  -- MFFS (R151)
  | sget (d : BitVec 6) (v : BitVec 10) (l : BitVec 6)  -- SGET (R152)
  | vset (d : BitVec 6) (v : BitVec 10) (l : BitVec 6)  -- VSET (R152)
  | lds (d a : BitVec 6) (i : BitVec 14)  -- LDS (R153)
  | sts (d a : BitVec 6) (i : BitVec 14)  -- STS (R153)
  | atomsAdd (d a b : BitVec 6)  -- ATOMS_ADD (R155)
  | atomsAnd (d a b : BitVec 6)  -- ATOMS_AND (R155)
  | atomsOr (d a b : BitVec 6)  -- ATOMS_OR (R155)
  | atomsXchg (d a b : BitVec 6)  -- ATOMS_XCHG (R155)
  | atomsCas (d a b : BitVec 6)  -- ATOMS_CAS (R155)
  | atomsMin (d a b : BitVec 6)  -- ATOMS_MIN (R155)
  | atomsMax (d a b : BitVec 6)  -- ATOMS_MAX (R155)
  | csrr (d : BitVec 6) (n : BitVec 12)  -- CSRR (R157)
  | csrw (d a : BitVec 6) (n : BitVec 12)  -- CSRW (R157)
  | csrs (d a : BitVec 6) (n : BitVec 12)  -- CSRS (R157)
  | csrc (d a : BitVec 6) (n : BitVec 12)  -- CSRC (R157)
  | barInit (a b : BitVec 6) (c : BitVec 3)  -- BAR_INIT (R159)
  | barExpect (a b : BitVec 6) (c : BitVec 3)  -- BAR_EXPECT (R159)
  | barArrive (a : BitVec 6) (c : BitVec 3)  -- BAR_ARRIVE (R159)
  | barWait (a b : BitVec 6) (c : BitVec 3)  -- BAR_WAIT (R159)
  | barTest (a b : BitVec 6) (c : BitVec 3)  -- BAR_TEST (R159)
  | fenceAcq (c : BitVec 3)  -- FENCE_ACQ (R162)
  | fenceRel (c : BitVec 3)  -- FENCE_REL (R162)
  | fenceAcqRel (c : BitVec 3)  -- FENCE_ACQ_REL (R162)
  | trap (a : BitVec 6)  -- TRAP (R163)
  | utret  -- UTRET (R275)
  | yield  -- YIELD (R164)
  | yieldp (a b : BitVec 6)  -- YIELDP (R164)
  | svc (a b : BitVec 6)  -- SVC (R165)
  | nop  -- NOP (R165)
  | pteW (a b : BitVec 6)  -- PTE_W (R166)
  | tlbi (a b : BitVec 6)  -- TLBI (R166)
  | fqPop (a b : BitVec 6)  -- FQ_POP (R166)
  | fqRes (a : BitVec 6)  -- FQ_RES (R235)
  | fqKill (a : BitVec 6)  -- FQ_KILL (R236)
  | capCtlLoad (a b : BitVec 6)  -- CAP_CTL_LOAD (R358)
  | capCtlUnload (a b : BitVec 6)  -- CAP_CTL_UNLOAD (R369)
  | capCtlPlan (a b : BitVec 6)  -- CAP_CTL_PLAN (R369)
  | capCtlStart (a b : BitVec 6)  -- CAP_CTL_START (R369)
  | capCtlPreempt (a b : BitVec 6)  -- CAP_CTL_PREEMPT (R369)
  | capCtlKill (a b : BitVec 6)  -- CAP_CTL_KILL (R369)
  | capCtlStatus (a b : BitVec 6)  -- CAP_CTL_STATUS (R369)
  | capCtlResume (a b : BitVec 6)  -- CAP_CTL_RESUME (R351)
  | sailW (a b : BitVec 6)  -- SAIL_W (R352)
  | coreCtlHalt (a b : BitVec 6)  -- CORE_CTL_HALT (R166)
  | coreCtlResume (a b : BitVec 6)  -- CORE_CTL_RESUME (R166)
  | coreCtlReset (a b : BitVec 6)  -- CORE_CTL_RESET (R166)
  | copy (o : SeOps)  -- COPY (R336)
  | copyLbl (o : SeOps)  -- COPY_LBL (R337)
  | copyScl (o : SeOps)  -- COPY_SCL (R337)
  | fill (o : SeOps)  -- FILL (R337)
  | put (o : SeOps)  -- PUT (R339)
  | get (o : SeOps)  -- GET (R339)
  | signal (o : SeOps)  -- SIGNAL (R339)
  | mma (o : SeOps)  -- MMA (R328)
  | mmaz (o : SeOps)  -- MMAZ (R328)
  | mma2 (o : SeOps)  -- MMA2 (R329)
  | mma2z (o : SeOps)  -- MMA2Z (R329)
  | relld (o : SeOps)  -- RELLD (R330)
  | tokToM (o : SeOps)  -- TOK_TO_M (R322)
  | tokToV (o : SeOps)  -- TOK_TO_V (R322)
  | accz (o : SeOps)  -- ACCZ (R331)
  | acclblStore (o : SeOps)  -- ACCLBL_STORE (R331)
  | acclblLoad (o : SeOps)  -- ACCLBL_LOAD (R331)
  | tfset (o : SeOps)  -- TFSET (R331)
  | tfsum (o : SeOps)  -- TFSUM (R331)
  | hstart (a b : BitVec 6)  -- HSTART (R373)
  | hstop (a : BitVec 6)  -- HSTOP (R373)
  | hpermit (a b : BitVec 6)  -- HPERMIT (R373)
  | gset (a b : BitVec 6)  -- GSET (R371)
  | gclr (a : BitVec 6)  -- GCLR (R371)
  | gcond (a b : BitVec 6)  -- GCOND (R368)
  | glaunch (a b : BitVec 6)  -- GLAUNCH (R368)
  | gdec (a b : BitVec 6)  -- GDEC (R368)
  | wbind (o : SeOps)  -- WBIND (R414)
  | wstrip (o : SeOps)  -- WSTRIP (R415)
  | wpart (o : SeOps)  -- WPART (R416)
  | wdraw (o : SeOps)  -- WDRAW (R417)
  | waccept (o : SeOps)  -- WACCEPT (R419)
  | wcommit (o : SeOps)  -- WCOMMIT (R418)
  | kvsplice (o : SeOps)  -- KVSPLICE (R241)
  | pfxlk (o : SeOps)  -- PFXLK (R422)
  | pfxins (o : SeOps)  -- PFXINS (R422)
  | pin (o : SeOps)  -- PIN (R422)
  | unpin (o : SeOps)  -- UNPIN (R422)
  | rsload (o : SeOps)  -- RSLOAD (R390)
  | gldesc (o : SeOps)  -- GLDESC (R341)
  | glinv (o : SeOps)  -- GLINV (R341)
  | thresh (o : SeOps)  -- THRESH (R343)
  | dictionaryCode (reb : BitVec 4) (idx : BitVec 10)  -- DICTIONARY_CODE (R100)
  | laneNopL16 (reb : BitVec 4)  -- LANE_NOP_L16 (R100)
  | hlSet (o : HlOps)  -- HL_SET (R376)
  | hlLoop (o : HlOps)  -- HL_LOOP (R376)
  | hlNext (o : HlOps)  -- HL_NEXT (R376)
  | hlStr (o : HlOps)  -- HL_STR (R376)
  | hlEmit (o : HlOps)  -- HL_EMIT (R377)
  | hlGuard (o : HlOps)  -- HL_GUARD (R376)
  | hlGuardRes (o : HlOps)  -- HL_GUARD_RES (R376)
  | hlBarExpect (o : HlOps)  -- HL_BAR_EXPECT (R376)
  | hlBarArrive (o : HlOps)  -- HL_BAR_ARRIVE (R376)
  | hlEnd (o : HlOps)  -- HL_END (R376)
  | laneNopL32 (o : L32Ops)  -- LANE_NOP_L32 (R99)
  | laneMovL32 (o : L32Ops)  -- LANE_MOV_L32 (R99)
  | laneAddL32 (o : L32Ops)  -- LANE_ADD_L32 (R99)
  | laneSubL32 (o : L32Ops)  -- LANE_SUB_L32 (R99)
  | laneMulL32 (o : L32Ops)  -- LANE_MUL_L32 (R99)
  | laneMulhL32 (o : L32Ops)  -- LANE_MULH_L32 (R99)
  | laneMulhwL32 (o : L32Ops)  -- LANE_MULHW_L32 (R99)
  | laneMinL32 (o : L32Ops)  -- LANE_MIN_L32 (R99)
  | laneMaxL32 (o : L32Ops)  -- LANE_MAX_L32 (R99)
  | laneMinwL32 (o : L32Ops)  -- LANE_MINW_L32 (R99)
  | laneMaxwL32 (o : L32Ops)  -- LANE_MAXW_L32 (R99)
  | laneAndL32 (o : L32Ops)  -- LANE_AND_L32 (R99)
  | laneOrL32 (o : L32Ops)  -- LANE_OR_L32 (R99)
  | laneXorL32 (o : L32Ops)  -- LANE_XOR_L32 (R99)
  | laneAndnL32 (o : L32Ops)  -- LANE_ANDN_L32 (R99)
  | laneNotL32 (o : L32Ops)  -- LANE_NOT_L32 (R99)
  | laneShlL32 (o : L32Ops)  -- LANE_SHL_L32 (R99)
  | laneShrL32 (o : L32Ops)  -- LANE_SHR_L32 (R99)
  | laneSarL32 (o : L32Ops)  -- LANE_SAR_L32 (R99)
  | laneRotL32 (o : L32Ops)  -- LANE_ROT_L32 (R99)
  | laneClzL32 (o : L32Ops)  -- LANE_CLZ_L32 (R99)
  | laneCtzL32 (o : L32Ops)  -- LANE_CTZ_L32 (R99)
  | lanePopcL32 (o : L32Ops)  -- LANE_POPC_L32 (R99)
  | laneAbsL32 (o : L32Ops)  -- LANE_ABS_L32 (R99)
  | laneNegL32 (o : L32Ops)  -- LANE_NEG_L32 (R99)
  | faddL32 (o : L32Ops)  -- FADD_L32 (R99)
  | fsubL32 (o : L32Ops)  -- FSUB_L32 (R99)
  | fmulL32 (o : L32Ops)  -- FMUL_L32 (R99)
  | fminL32 (o : L32Ops)  -- FMIN_L32 (R99)
  | fmaxL32 (o : L32Ops)  -- FMAX_L32 (R99)
  | fabsL32 (o : L32Ops)  -- FABS_L32 (R99)
  | fnegL32 (o : L32Ops)  -- FNEG_L32 (R99)
  | cmpEqL32 (o : L32Ops)  -- CMP_EQ_L32 (R99)
  | cmpNeL32 (o : L32Ops)  -- CMP_NE_L32 (R99)
  | cmpLtL32 (o : L32Ops)  -- CMP_LT_L32 (R99)
  | cmpLeL32 (o : L32Ops)  -- CMP_LE_L32 (R99)
  | cmpLtwL32 (o : L32Ops)  -- CMP_LTW_L32 (R99)
  | cmpLewL32 (o : L32Ops)  -- CMP_LEW_L32 (R99)
  | fcmpEqL32 (o : L32Ops)  -- FCMP_EQ_L32 (R99)
  | fcmpNeL32 (o : L32Ops)  -- FCMP_NE_L32 (R99)
  | fcmpLtL32 (o : L32Ops)  -- FCMP_LT_L32 (R99)
  | fcmpLeL32 (o : L32Ops)  -- FCMP_LE_L32 (R99)
  | fcmpUnL32 (o : L32Ops)  -- FCMP_UN_L32 (R99)
  | fclsL32 (o : L32Ops)  -- FCLS_L32 (R99)
  | lidL32 (o : L32Ops)  -- LID_L32 (R99)
  | vshapeL32 (o : L32Ops)  -- VSHAPE_L32 (R70)
  | laneNop (o : LaneOps)  -- LANE_NOP (R170)
  | laneMov (o : LaneOps)  -- LANE_MOV (R170)
  | laneAdd (o : LaneOps)  -- LANE_ADD (R170)
  | laneSub (o : LaneOps)  -- LANE_SUB (R170)
  | laneMul (o : LaneOps)  -- LANE_MUL (R170)
  | laneMulh (o : LaneOps)  -- LANE_MULH (R170)
  | laneMulhw (o : LaneOps)  -- LANE_MULHW (R170)
  | laneMin (o : LaneOps)  -- LANE_MIN (R170)
  | laneMax (o : LaneOps)  -- LANE_MAX (R170)
  | laneMinw (o : LaneOps)  -- LANE_MINW (R170)
  | laneMaxw (o : LaneOps)  -- LANE_MAXW (R170)
  | laneAnd (o : LaneOps)  -- LANE_AND (R170)
  | laneOr (o : LaneOps)  -- LANE_OR (R170)
  | laneXor (o : LaneOps)  -- LANE_XOR (R170)
  | laneAndn (o : LaneOps)  -- LANE_ANDN (R170)
  | laneNot (o : LaneOps)  -- LANE_NOT (R170)
  | laneShl (o : LaneOps)  -- LANE_SHL (R170)
  | laneShr (o : LaneOps)  -- LANE_SHR (R170)
  | laneSar (o : LaneOps)  -- LANE_SAR (R170)
  | laneRot (o : LaneOps)  -- LANE_ROT (R170)
  | laneClz (o : LaneOps)  -- LANE_CLZ (R170)
  | laneCtz (o : LaneOps)  -- LANE_CTZ (R170)
  | lanePopc (o : LaneOps)  -- LANE_POPC (R170)
  | laneAbs (o : LaneOps)  -- LANE_ABS (R170)
  | laneNeg (o : LaneOps)  -- LANE_NEG (R170)
  | fadd (o : LaneOps)  -- FADD (R175)
  | fsub (o : LaneOps)  -- FSUB (R175)
  | fmul (o : LaneOps)  -- FMUL (R175)
  | fmin (o : LaneOps)  -- FMIN (R176)
  | fmax (o : LaneOps)  -- FMAX (R176)
  | fabs (o : LaneOps)  -- FABS (R176)
  | fneg (o : LaneOps)  -- FNEG (R176)
  | cmpEq (o : LaneOps)  -- CMP_EQ (R173)
  | cmpNe (o : LaneOps)  -- CMP_NE (R173)
  | cmpLt (o : LaneOps)  -- CMP_LT (R173)
  | cmpLe (o : LaneOps)  -- CMP_LE (R173)
  | cmpLtw (o : LaneOps)  -- CMP_LTW (R173)
  | cmpLew (o : LaneOps)  -- CMP_LEW (R173)
  | fcmpEq (o : LaneOps)  -- FCMP_EQ (R173)
  | fcmpNe (o : LaneOps)  -- FCMP_NE (R173)
  | fcmpLt (o : LaneOps)  -- FCMP_LT (R173)
  | fcmpLe (o : LaneOps)  -- FCMP_LE (R173)
  | fcmpUn (o : LaneOps)  -- FCMP_UN (R173)
  | fcls (o : LaneOps)  -- FCLS (R174)
  | lid (o : LaneOps)  -- LID (R170)
  | vshape (o : LaneOps)  -- VSHAPE (R70)
  | mad (o : LaneOps)  -- MAD (R172)
  | fma (o : LaneOps)  -- FMA (R175)
  | sel (o : LaneOps)  -- SEL (R172)
  | bfe (o : LaneOps)  -- BFE (R172)
  | bfi (o : LaneOps)  -- BFI (R172)
  | cvt (o : LaneOps)  -- CVT (R180)
  | frnd (o : LaneOps)  -- FRND (R175)
  | fscale (o : LaneOps)  -- FSCALE (R175)
  | hadd2 (o : LaneOps)  -- HADD2 (R181)
  | hmul2 (o : LaneOps)  -- HMUL2 (R181)
  | hfma2 (o : LaneOps)  -- HFMA2 (R181)
  | dqE4 (o : LaneOps)  -- DQ_E4 (R182)
  | dqE5 (o : LaneOps)  -- DQ_E5 (R182)
  | dqE3m2 (o : LaneOps)  -- DQ_E3M2 (R182)
  | dqE2m3 (o : LaneOps)  -- DQ_E2M3 (R182)
  | dqFp4 (o : LaneOps)  -- DQ_FP4 (R182)
  | dqI8 (o : LaneOps)  -- DQ_I8 (R182)
  | dqI4 (o : LaneOps)  -- DQ_I4 (R182)
  | dqPs8 (o : LaneOps)  -- DQ_PS8 (R182)
  | dqPs4 (o : LaneOps)  -- DQ_PS4 (R182)
  | frcp (o : LaneOps)  -- FRCP (R177)
  | frsq (o : LaneOps)  -- FRSQ (R177)
  | fsqrt (o : LaneOps)  -- FSQRT (R175)
  | flog2 (o : LaneOps)  -- FLOG2 (R177)
  | fexp2 (o : LaneOps)  -- FEXP2 (R177)
  | ftanh (o : LaneOps)  -- FTANH (R177)
  | shfl (o : LaneOps)  -- SHFL (R184)
  | vote (o : LaneOps)  -- VOTE (R185)
  | red (o : LaneOps)  -- RED (R187)
  | scan (o : LaneOps)  -- SCAN (R186)
  | vtos (o : LaneOps)  -- VTOS (R189)
  | xpr (o : LaneOps)  -- XPR (R190)
  | rng (o : LaneOps)  -- RNG (R407)
  | ldG (o : LaneOps)  -- LD_G (R199)
  | stG (o : LaneOps)  -- ST_G (R199)
  | ldS (o : LaneOps)  -- LD_S (R199)
  | stS (o : LaneOps)  -- ST_S (R199)
  | ldC (o : LaneOps)  -- LD_C (R199)
  | stC (o : LaneOps)  -- ST_C (R199)
  | atomG (o : LaneOps)  -- ATOM_G (R201)
  | atomS (o : LaneOps)  -- ATOM_S (R201)
  | atomC (o : LaneOps)  -- ATOM_C (R201)
  | lres (o : LaneOps)  -- LRES (R202)
  | scond (o : LaneOps)  -- SCOND (R202)
  | futRd (o : LaneOps)  -- FUT_RD (R204)
  | futWr (o : LaneOps)  -- FUT_WR (R204)
  | stag (o : LaneOps)  -- STAG (R205)
  | stagW (o : LaneOps)  -- STAG_W (R206)
  | prf (o : LaneOps)  -- PRF (R208)
  | recput (o : LaneOps)  -- RECPUT (R367)
  | accrd (o : LaneOps)  -- ACCRD (R332)
  | accwr (o : LaneOps)  -- ACCWR (R332)
  | accerm (o : LaneOps)  -- ACCERM (R332)
  | glean (o : LaneOps)  -- GLEAN (R342)
  | rsAdd (o : LaneOps)  -- RS_ADD (R393)
  | rsSub (o : LaneOps)  -- RS_SUB (R393)
  | rsMul (o : LaneOps)  -- RS_MUL (R393)
  | rsDiv (o : LaneOps)  -- RS_DIV (R393)
  | rsNeg (o : LaneOps)  -- RS_NEG (R394)
  | rsRcp (o : LaneOps)  -- RS_RCP (R394)
  | rsUni (o : LaneOps)  -- RS_UNI (R394)
  | rsIsc (o : LaneOps)  -- RS_ISC (R394)
  | rsHas (o : LaneOps)  -- RS_HAS (R395)
  | rsEq (o : LaneOps)  -- RS_EQ (R395)
  | rsFromf (o : LaneOps)  -- RS_FROMF (R396)
  | rsLo (o : LaneOps)  -- RS_LO (R398)
  | rsHi (o : LaneOps)  -- RS_HI (R398)
  | rsWid (o : LaneOps)  -- RS_WID (R397)
  | rsPack (o : LaneOps)  -- RS_PACK (R397)
  | rsUnp (o : LaneOps)  -- RS_UNP (R397)
  | fpctlWrite (k : BitVec 2) (d a : BitVec 6)  -- FPCTL_WRITE (R79)
  | fpstatRead (d : BitVec 6)  -- FPSTAT_READ (R79)
  | fpstatWrite (k : BitVec 2) (d a : BitVec 6)  -- FPSTAT_WRITE (R157)
  | registerWrite (k : BitVec 2) (d a : BitVec 6) (n : BitVec 12)  -- REGISTER_WRITE (R157)
  | phaseMessageArrival (owner bar member : Nat)  -- PHASE_MESSAGE_ARRIVAL (R160)
  | thresherJobRun (core bar : Nat)  -- THRESHER_JOB_RUN (R344)
  | engineCommandComplete (core cmd : Nat)  -- ENGINE_COMMAND_COMPLETE (R264)
  | clauseStart (g sp : Nat)  -- CLAUSE_START (R35)
  | longLatencyCompletion (g acc : Nat)  -- LONG_LATENCY_COMPLETION (R37)
  | vsetPerform (g sp : Nat)  -- VSET_PERFORM (R152)
  | msetPerform (g sp : Nat)  -- MSET_PERFORM (R151)
  | fpctlWritePerform (g sp : Nat)  -- FPCTL_WRITE_PERFORM (R79)
  | scalarAccessReturn (g acc : Nat)  -- SCALAR_ACCESS_RETURN (R153)
  | splitQuantumExpiry (g : Nat)  -- SPLIT_QUANTUM_EXPIRY (R51)
  | currentSplitChange (g : Nat)  -- CURRENT_SPLIT_CHANGE (R51)
  | activeSetSwap (core sector : Nat)  -- ACTIVE_SET_SWAP (R49)
  | swapComplete (core sector g : Nat)  -- SWAP_COMPLETE (R49)
  | waitRelease (g : Nat)  -- WAIT_RELEASE (R50)
  | joinMerge (g : Nat)  -- JOIN_MERGE (R44)
  | groupExitComplete (g : Nat)  -- GROUP_EXIT_COMPLETE (R146)
  | trapDelivery (g : Nat)  -- TRAP_DELIVERY (R273)
  | faultRecordAppend (rec : Nat)  -- FAULT_RECORD_APPEND (R231)
  | faultReplay (rec : Nat)  -- FAULT_REPLAY (R235)
  | fleetAccessArrival (m : FleetAccess)  -- FLEET_ACCESS_ARRIVAL (R234)
  | clusterPlacement  -- CLUSTER_PLACEMENT (R364)
  | preemptDeadline (launch : Nat)  -- PREEMPT_DEADLINE (R282)
  | groupSaveComplete (g : Nat)  -- GROUP_SAVE_COMPLETE (R279)
  | teamRestore (team : Nat)  -- TEAM_RESTORE (R283)
  | nodeCompletion (run node : Nat)  -- NODE_COMPLETION (R347)
  | recordBinEntry (g acc : Nat)  -- RECORD_BIN_ENTRY (R367)
  | stageTimerExpiry (run node : Nat)  -- STAGE_TIMER_EXPIRY (R360)
  | sailEntryFire (entry : Nat)  -- SAIL_ENTRY_FIRE (R353)
  | svcAnswerRelease (g sp : Nat)  -- SVC_ANSWER_RELEASE (R428)
  | svcPing (call : Nat)  -- SVC_PING (R429)
  | svcNote (call : Nat)  -- SVC_NOTE (R429)
  | svcMap (call : Nat)  -- SVC_MAP (R429)
  | svcUnmap (call : Nat)  -- SVC_UNMAP (R429)
  | svcDeliver (call : Nat)  -- SVC_DELIVER (R429)
  | serviceCoreTrap (core : Nat) (cause : BitVec 8) (info : BitVec 64)  -- SERVICE_CORE_TRAP (R425)
  | ringReportPost (ring : Nat)  -- RING_REPORT_POST (R426)
  | trootWrite (k : BitVec 2) (d a : BitVec 6)  -- TROOT_WRITE (R424)
  | fqbaseWrite (k : BitVec 2) (d a : BitVec 6)  -- FQBASE_WRITE (R424)
  | ringsWrite (k : BitVec 2) (d a : BitVec 6)  -- RINGS_WRITE (R426)
  | pfxbaseWrite (k : BitVec 2) (d a : BitVec 6)  -- PFXBASE_WRITE (R424)
  | wpdataWrite (k : BitVec 2) (d a : BitVec 6)  -- WPDATA_WRITE (R410)
  | reqLoad (r : Request)  -- LOAD (R431)
  | reqOpen (r : Request)  -- OPEN (R431)
  | reqAppend (r : Request)  -- APPEND (R431)
  | reqGenerate (r : Request) (tokens : GenerateTurn) (fin : Option Nat)  -- GENERATE (R431)
  | reqCancel (r : Request)  -- CANCEL (R431)
  | reqClose (r : Request)  -- CLOSE (R431)
  | reqSail (r : Request)  -- SAIL (R432)
  | reqStats (r : Request)  -- STATS (R432)
  | reqJournalRead (r : Request)  -- JOURNAL_READ (R432)
  | reqJournalReplay (r : Request)  -- JOURNAL_REPLAY (R441)
  | reqAttest (r : Request)  -- ATTEST (R442)
  | reqPower (r : Request)  -- POWER (R444)
  | pennantJob  -- PENNANT_JOB (R436)
  | linkTraining (link : Nat) (port : Option Nat)  -- LINK_TRAINING (R434)
  | linkDown (link : Nat)  -- LINK_DOWN (R427)
  | ptpOffsetUpdate (ns : Int)  -- PTP_OFFSET_UPDATE (R448)
  | powerSample (mw : Nat) (islands : List (Nat × Nat × Nat)) (points : List (Nat × Nat))  -- POWER_SAMPLE (R444)
  | thermalTrip (island temp : Nat)  -- THERMAL_TRIP (R444)
  | regulatorFault (island : Nat) (word : BitVec 64)  -- REGULATOR_FAULT (R427)
  | i3cHoldReset (hold : Bool)  -- I3C_HOLD_RESET (R445)
  | i3cRecoveryBoot  -- I3C_RECOVERY_BOOT (R445)
  | boot (ok : BootRun)  -- BOOT (R442)
  | capstanAnswer (g sp : Nat)  -- CAPSTAN_ANSWER (R368)
  | scalarStorePerformed (g acc : Nat)  -- SCALAR_STORE_PERFORMED (R153)
  | ethernetPortDown (port : Nat)  -- ETHERNET_PORT_DOWN (R437)
  | ethernetPortUp (port : Nat)  -- ETHERNET_PORT_UP (R437)
  deriving DecidableEq, Repr

end Sys2Proof
end

