-- ==== Sys2Proof/Machine/Turn.lean ====
section
/-! DEFINITION. Who acts in a step. The manual leaves the order of its agents and every duration open
(00_scope.md R446); the model holds the choice as plain data (log 1, log 3). -/

namespace Sys2Proof.Machine

/-- The agent that carries out the instruction in hand. -/
inductive Agent where
  /-- No agent: an event of the device. -/
  | device
  /-- The scalar stream of split `sp` of group `g` (R32). -/
  | scalar (g sp : Nat)
  /-- The lane stream of split `sp` of group `g` (R35). -/
  | lane (g sp : Nat)
  /-- Engine queue `q` of core `c`, starting its next command (R324). -/
  | engine (c q : Nat)
  /-- Tiller service core `k` (R424). -/
  | service (k : Nat)
  /-- Halyard context `x` of core `c` (R372). -/
  | halyard (c x : Nat)
  deriving DecidableEq, Repr, Inhabited

/-- An error that arises in a memory of the package (R220): one that its check corrects, or an uncorrectable one by where it stands. -/
inductive Upset where
  /-- Corrected, in an SRAM of an island or in the HBM of a stack. -/
  | corrected (island : Nat)
  | correctedHbm (stack : Nat)
  /-- In a 32-byte unit of HBM, and in a 64-byte line of a memory-side cache that is being written back. -/
  | hbm (unit : Nat)
  | writeBack (line : Nat)
  /-- In a 32-byte unit of a scratchpad, a byte of a scale store, an element of an accumulator tile, a 32-byte unit in a Glean cache. -/
  | spad (core unit : Nat)
  | scale (core byte : Nat)
  | tile (core t elem : Nat)
  | glean (core unit : Nat)
  /-- In a lane register. -/
  | reg (g n : Nat)
  /-- In a slot of a tag table, and in an entry of a TLB (`none`: the I/O die's). -/
  | tagSlot (core slot : Nat)
  | tlb (core : Option Nat) (entry : Nat)
  deriving DecidableEq, Repr

/-- One step's choice. -/
inductive Turn where
  /-- An agent runs the next instruction of its stream, or an engine starts its next command. -/
  | run (a : Agent)
  /-- An event of the opcode table takes place. -/
  | event (i : Instr)
  /-- Time passes: so many core clocks and so many nanoseconds of TIME. -/
  | elapse (clocks ns : Nat)
  /-- An error arises (R220). -/
  | upset (u : Upset)
  deriving DecidableEq, Repr

end Sys2Proof.Machine
end

