-- ==== Sys2Proof/Config.lean ====
section
/-! DEFINITION. What an implementation fixes and the manual does not: opaque constants, so that no proof can see a
value of them (log 1, log 2, log 20). -/

namespace Sys2Proof.Config

/-- The agents the machine may pick when the agenda in State is empty (log 1). -/
opaque nextTurn : Nat → Option Machine.Turn

/-- Whether lane `l` of the access that met an uncorrectable error was performed; the manual says it may or may not
have been (R213; log 2). The number is a fresh one each time. -/
opaque lanePerformed : Nat → Nat → Bool

/-- Whether a GLEAN byte read takes the value that the Glean cache holds rather than memory's; the manual lets it do either
while the line has not been invalidated (R265; log 2). The number is a fresh one each time. -/
opaque gleanHit : Nat → Bool

/-- The number that the identity key pair's seed gives for its private key; the manual does not give how it comes of the seed (R442;
log 20). -/
opaque identityScalar : List Byte → Nat

/-- The random number of a signature of the identity key, by the signature's number and the number of the attempt (R438, R442; log 20). -/
opaque signNonce : Nat → Nat → Nat

/-- The fused device secret (R442; log 20). -/
opaque deviceSecret : List Byte

/-- Where in HBM the service begins its journal, a multiple of 64 (R439; log 82). -/
opaque journalBase : Nat

/-- The bytes of boot stage `n`, as measured and as loaded: 0 the first stage, 1 the Tiller image (R442; log 20). -/
opaque stageImage : Nat → List Byte

/-- The firmware versions that an attestation report gives (R442; log 20). -/
opaque firmwareVersions : List Byte

/-- Where in HBM the first stage loads the Tiller image (R442; log 20). -/
opaque tillerBase : Nat

/-- Where the Tiller image starts service core `k` (R442; log 20). -/
opaque tillerEntry : Nat → BitVec 64

/-- What the service writes to TROOT, FQBASE, RINGS and PFXBASE in step 6, by register number (R442; log 20). -/
opaque bringUp : Nat → BitVec 64

/-- The mark the Pennant embeds in a luma sample: frame bytes in, marked bytes out, same length (R436; the key is
sealed; log 20). -/
opaque embedMark : List Byte → List Byte

/-- The bytes of a token as the model's token table spells them (R433; log 21). -/
opaque tokenBytes : Nat → Nat → List Byte

/-- The 64 KiB frame of HBM that the service takes next, by a running number; none where it finds none (R429; log 22). -/
opaque freeFrame : Nat → Option Nat

/-- How many bytes of a frame the Pennant had sent when an uncorrectable error stopped it (R437; log 2). The number is a fresh one
each time. -/
opaque framePart : Nat → Nat

end Sys2Proof.Config
end

