-- ==== Sys2Proof/Machine/Bits.lean ====
section
/-! DEFINITION. Bit counting and small integer helpers that several families share (R31, R137, R170). -/

namespace Sys2Proof.Machine

/-- Bits n−1:0 set. -/
def low64 (n : Nat) : W64 := BitVec.ofNat 64 (2 ^ n - 1)

/-- The number of one bits among bits n−1:0 of `x`. -/
def popNat (n x : Nat) : Nat :=
  match n with
  | 0 => 0
  | k + 1 => popNat k x + (if x.testBit k then 1 else 0)

/-- The number of leading zeros of the n-bit number `x`. -/
def clzNat (n x : Nat) : Nat :=
  match n with
  | 0 => 0
  | k + 1 => if x.testBit k then 0 else 1 + clzNat k x

/-- The number of the lowest one bit of the n-bit number `x`, or n; bits below `i` have been passed over. -/
def ctzFrom (n i x : Nat) : Nat :=
  match n with
  | 0 => i
  | k + 1 => if x.testBit i then i else ctzFrom k (i + 1) x

def ctzNat (n x : Nat) : Nat := ctzFrom n 0 x

/-- The numbers of the one bits of `x`, rising, among bits n−1:0. -/
def onesOf (x : W64) (n : Nat) : List Nat := (List.range n).filter (fun i => x.getLsbD i)

/-- A one where the condition holds. -/
def b64 (b : Bool) : W64 := if b then 1 else 0

def b32 (b : Bool) : W32 := if b then 1 else 0

/-- Rotated right. -/
def rotr {w : Nat} (x : BitVec w) (n : Nat) : BitVec w := x.rotateRight n

/-- Signed minimum and maximum. -/
def smin {w : Nat} (a b : BitVec w) : BitVec w := if a.sle b then a else b
def smax {w : Nat} (a b : BitVec w) : BitVec w := if a.sle b then b else a
def umin {w : Nat} (a b : BitVec w) : BitVec w := if a.ule b then a else b
def umax {w : Nat} (a b : BitVec w) : BitVec w := if a.ule b then b else a

/-- The least element of a list, by a key. -/
def argMin {α : Type} (key : α → Nat) (l : List α) : Option α :=
  match l with
  | [] => none
  | x :: t =>
    match argMin key t with
    | none => some x
    | some y => if key x ≤ key y then some x else some y

/-- Sorts by a key, keeping the order of equals. -/
def insertBy {α : Type} (key : α → Nat) (x : α) (l : List α) : List α :=
  match l with
  | [] => [x]
  | y :: t => if key x ≤ key y then x :: y :: t else y :: insertBy key x t

def sortBy {α : Type} (key : α → Nat) (l : List α) : List α :=
  match l with
  | [] => []
  | x :: t => insertBy key x (sortBy key t)

/-- Little-endian value of bytes as a register value. -/
def le64 (bs : List Byte) (n : Nat) : Nat :=
  match n with
  | 0 => 0
  | k + 1 => (bs.headD 0).toNat + 256 * le64 bs.tail k

/-- The `n`-byte little-endian number at offset `o` of some bytes. -/
def numAt (bs : List Byte) (o n : Nat) : Nat := le64 (bs.drop o) n

/-- `v` rounded up to a multiple of `n`. -/
def roundUp (v n : Nat) : Nat := (v + n - 1) / n * n

end Sys2Proof.Machine
end

