-- ==== Sys2Proof/Machine/Map.lean ====
section
/-! DEFINITION. Sparse tables keyed by a number: plain lists of pairs in rising key order, with a value for every key
that is not listed. Register files, banks of slots and tables of records are such lists. -/

namespace Sys2Proof.Machine

/-- A sparse table. -/
abbrev Map (α : Type) := List (Nat × α)

/-- The value at key `k`; `dflt` where the table lists none. -/
def Map.get {α : Type} (m : Map α) (dflt : α) (k : Nat) : α :=
  match m with
  | [] => dflt
  | (i, v) :: t => if i = k then v else Map.get t dflt k

/-- The entry at key `k`, if listed. -/
def Map.find {α : Type} (m : Map α) (k : Nat) : Option α :=
  match m with
  | [] => none
  | (i, v) :: t => if i = k then some v else Map.find t k

/-- Writes the value at key `k`. -/
def Map.put {α : Type} (m : Map α) (k : Nat) (v : α) : Map α :=
  match m with
  | [] => [(k, v)]
  | (i, w) :: t => if i = k then (k, v) :: t else if k < i then (k, v) :: (i, w) :: t else (i, w) :: Map.put t k v

/-- Takes the entry at key `k` out. -/
def Map.erase {α : Type} (m : Map α) (k : Nat) : Map α :=
  m.filter (fun p => p.1 != k)

/-- The values at keys `i` to `i + n − 1`, with every listed key from `i` on. -/
def Map.dense {α : Type} (m : Map α) (dflt : α) (i n : Nat) : List α :=
  match n with
  | 0 => []
  | k + 1 =>
    match m with
    | [] => dflt :: Map.dense [] dflt (i + 1) k
    | (j, v) :: t => if j = i then v :: Map.dense t dflt (i + 1) k else dflt :: Map.dense ((j, v) :: t) dflt (i + 1) k

/-- A table from the values at keys `i` on, listing those that are not `dflt`. -/
def Map.ofDense {α : Type} [DecidableEq α] (dflt : α) (i : Nat) (l : List α) : Map α :=
  match l with
  | [] => []
  | v :: t => if v = dflt then Map.ofDense dflt (i + 1) t else (i, v) :: Map.ofDense dflt (i + 1) t

/-- The values listed, in key order. -/
def Map.values {α : Type} (m : Map α) : List α := m.map (·.2)

/-- Bytes by address, in the one canonical form: addresses strictly rising, no zero byte listed. An unlisted address
reads as 0 (R447). -/
abbrev Memory := List (Nat × Byte)

/-- The byte at address `a`. -/
def Memory.read (m : Memory) (a : Nat) : Byte :=
  match m with
  | [] => 0
  | (i, v) :: t => if i = a then v else Memory.read t a

/-- Writes the byte at address `a`, keeping the canonical form. -/
def Memory.write (m : Memory) (a : Nat) (b : Byte) : Memory :=
  match m with
  | [] => if b = 0 then [] else [(a, b)]
  | (i, v) :: t =>
    if i = a then (if b = 0 then t else (a, b) :: t)
    else if a < i then (if b = 0 then (i, v) :: t else (a, b) :: (i, v) :: t)
    else (i, v) :: Memory.write t a b

/-- Every listed address is above `lo` and rises, and no byte listed is 0. -/
def Memory.wfFrom (lo : Nat) (m : Memory) : Bool :=
  match m with
  | [] => true
  | (i, v) :: t => decide (lo ≤ i) && v != 0 && Memory.wfFrom (i + 1) t

/-- The canonical form. -/
def Memory.wf (m : Memory) : Bool := Memory.wfFrom 0 m

/-- `n` bytes from address `a` up. -/
def Memory.readN (m : Memory) (a : Nat) (n : Nat) : List Byte :=
  match n with
  | 0 => []
  | k + 1 => Memory.read m a :: Memory.readN m (a + 1) k

/-- Writes the bytes from address `a` up. -/
def Memory.writeN (m : Memory) (a : Nat) (bs : List Byte) : Memory :=
  match bs with
  | [] => m
  | b :: t => Memory.writeN (Memory.write m a b) (a + 1) t

/-- The little-endian number of some bytes. -/
def leNat (bs : List Byte) : Nat :=
  match bs with
  | [] => 0
  | b :: t => b.toNat + 256 * leNat t

/-- The low `n` bytes of a number, little-endian. -/
def leBytes (n : Nat) (v : Nat) : List Byte :=
  match n with
  | 0 => []
  | k + 1 => BitVec.ofNat 8 v :: leBytes k (v / 256)

end Sys2Proof.Machine
end

