-- ==== Sys2Proof/Machine/State.lean ====
section
/-! DEFINITION. The whole state of one TZ-192 package as plain data, and the state after reset. Every field names the
rule that gives it; INVENTORY.md lists each with its width and reset value. -/

namespace Sys2Proof.Machine

/-- Why the machine stops. No architectural event of the manual stops the device: a group's faults park it, its
traps kill its launch, a service core halts. -/
inductive Fault where
  /-- A physical access beyond the 384 GiB of HBM (R219), raised by the ring directory and the fault-queue ring when a
  base names an address past its end. Safe: the manual gives such an access no effect. -/
  | noSuchAddress (pa : Nat)
  deriving DecidableEq, Repr

/-- Why the model has no step. -/
inductive Refusal where
  /-- The instruction has no meaning yet. Safe. No arm of exec answers it now. -/
  | notModelled (mnemonic : String)
  /-- The instruction was given to an agent that the state does not hold or that does not run such an instruction: a
  lane word outside a started clause, an event of a group that does not exist. Safe: step asks exec for no such
  thing. -/
  | noAgent
  deriving DecidableEq, Repr

/-- A lane register: its shape and value (R64). -/
inductive LaneReg where
  /-- Uniform. -/
  | u (v : W32)
  /-- Affine: base and stride. -/
  | a (base stride : W32)
  /-- General: one value a lane, W of them. -/
  | g (lanes : List W32)
  deriving DecidableEq, Repr

/-- What a lane-queue entry is (R33, R82). -/
inductive QKind where
  /-- An FPCTL write, by its number in the group's issue order (R79). -/
  | fpctl (ticket : Nat)
  /-- A clause at an address; issue starts at a halfword offset (R82 RESUME). -/
  | clause (addr : W64) (resume : Nat)
  | vset (v : BitVec 10) (lane : BitVec 6)
  | mset (m : BitVec 4)
  deriving DecidableEq, Repr

/-- A lane-queue entry: its kind, and the captured exec mask or the value to write (R33, R82). -/
structure QEntry where
  kind : QKind
  val : W64
  /-- The entry's place in the group's program order, and the address of the word that enqueued it (R244, log 4). -/
  no : Nat
  pc : W64
  deriving DecidableEq, Repr

/-- A clause that has started (R35): header address, next halfword, length in halfwords, flag names (15 none), captured
exec, and the FPCTL in force at its start (R79). `stopped` marks a clause stopped at its FUT.RD (R58), and `retry` holds the lanes that
the FUT.RD was issued with, for its retry (R275). `prior` and `priorM` hold the lane registers and masks that a long-latency
instruction of the clause writes, as the clause still reads them (R37). -/
structure Running where
  addr : W64
  off : Nat
  len : Nat
  fa : Nat
  fb : Nat
  exec : W64
  fpctl : W64
  no : Nat
  stopped : Bool
  retry : Option W64 := none
  prior : Map LaneReg := []
  priorM : Map W64 := []
  deriving DecidableEq, Repr

/-- An entry of a join tag stack (R44, R45). -/
inductive JoinEntry where
  | tag (id : Nat)
  /-- A serial record: running part, union, table address, masks of parts 1 to 3 that remain. -/
  | serial (part : Nat) (union table : W64) (p1 p2 p3 : W64)
  deriving DecidableEq, Repr

/-- A user-level trap raised and not delivered (R273, R276), with the clock at which it was raised. -/
structure UTrap where
  code : BitVec 8
  mask : W64
  pc : W64
  info : W64
  clock : Nat := 0
  deriving DecidableEq, Repr

/-- What a split waits for when its last instruction could not go on (R48, R51). -/
inductive Stall where
  /-- WAITC: the counter and its threshold. -/
  | waitc (ctr thr : Nat)
  /-- WAITF: the flags it names. -/
  | waitf (mask : Nat)
  /-- BAR.WAIT: the barrier's core and number, and how many phase messages that were in flight to the split's core when the wait began it
  has still to let pass (R159, R160). -/
  | barrier (owner bar skip : Nat)
  /-- SVC posted: the call's number and the register that takes the answer (R165). -/
  | svc (call dst : Nat)
  /-- GLAUNCH sent: the Capstan's answer on its way, and the register that takes it (R368). -/
  | capstan (answer : W64) (dst : Nat)
  /-- GDEC sent: the node whose counter the Capstan is to lower, and the register that takes the answer (R360, R368). -/
  | gdec (node dst : Nat)
  | join
  /-- Stopped at a YIELDP, with its operands (R279). -/
  | yieldp (tiles : BitVec 8) (r1 r2 : W64)
  | exit
  | trap
  /-- GCLR of a slot that a queued command names (R371). -/
  | gclr (slot : Nat)
  /-- HSTART of a context that another group runs (R373). -/
  | hstart (ctx : Nat)
  | fence
  | queueFull
  | interlock
  | counterFull
  | engineFull
  | pop
  | held
  deriving DecidableEq, Repr

/-- A split (R41). -/
structure Split where
  live : Bool
  spc : W64
  exec : W64
  regs : Map W64
  queue : List QEntry
  hqueue : List QEntry
  run : Option Running
  hrun : Option Running
  tags : List JoinEntry
  utcause : W64
  utmask : W64
  utpc : W64
  utinfo : W64
  inHandler : Bool
  /-- Where the scalar stream stood when a trap was delivered; UTRET after future empty goes on there (R275, log 10). -/
  retSpc : W64
  /-- The traps raised and not yet delivered, oldest first (R276). -/
  traps : List UTrap
  stall : Option Stall
  /-- Reservations, by lane + 64 × the life of the split that made them: the 64-byte granule of physical memory (R202, R203). -/
  resv : Map Nat
  /-- The splits whose accesses before a BRX or a JOIN precede this split's, each with its place in the program order (R250). -/
  born : List (Nat × Nat) := []
  /-- How many splits of the group have had this number before: accesses of an earlier one may be in flight (R203). -/
  life : Nat := 0
  /-- The lanes with which a FUT.RD issued that a save has cut off from its retry (R275; log 10). -/
  retry : Option W64 := none
  deriving DecidableEq, Repr

/-- A split that is not live. -/
def Split.dead : Split :=
  { live := false, spc := 0, exec := 0, regs := [], queue := [], hqueue := [], run := none, hrun := none, tags := [],
    utcause := 0, utmask := 0, utpc := 0, utinfo := 0, inHandler := false, retSpc := 0, traps := [], stall := none, resv := [] }

/-- Where a byte lives (R243). -/
inductive Space where
  | hbm
  | spad (core : Nat)
  /-- The elements of an accumulator tile, by row × 128 + column. -/
  | tile (core t : Nat)
  deriving DecidableEq, Repr

/-- What an access in flight does (R199 to R206, R332, R342, R367, R153, R155). -/
inductive AccOp where
  | load (sz : Nat)
  | store
  | atom (aop : Nat) (w64 : Bool) (ret : Bool)
  | lres (w64 : Bool)
  | scond (w64 : Bool)
  | accrd (tile : Nat) (norm : Bool)
  | accwr (tile : Nat)
  | accerm (tile : Nat)
  | glean (desc : Nat)
  | recput (node : Nat)
  | lds
  | sts
  | atoms (fn : Nat)
  deriving DecidableEq, Repr

/-- One lane's part of an access: its lane, virtual or window address, where it lies once translated, its width in
bytes, the data it carries, the compare value of a cas, its result once performed, and the CAUSE while its translation has
faulted (R227, R229). -/
structure LaneAcc where
  lane : Nat
  va : W64
  place : Option (Space × Nat)
  size : Nat
  data : List W32
  cmp : List W32
  result : Option (List W32)
  fault : Option Nat
  deriving DecidableEq, Repr

/-- A long-latency access in flight, a lane's or a scalar's (R37, R153): number, split, what it does, its lanes, the
first destination register and how many, the flag it tags, its counter, its ordering, the instruction's address (header
and halfword offset in bits 63:56 for a lane instruction, R273), and its place in the split's program order (R244). -/
structure Access where
  id : Nat
  split : Nat
  op : AccOp
  lanes : List LaneAcc
  dst : Nat
  dcount : Nat
  mreg : Nat
  flag : Option Nat
  ctr : Option Nat
  acq : Bool
  rel : Bool
  scope : Nat
  addr : W64
  no : Nat := 0
  /-- Which of the splits of that number issued it (R203). -/
  life : Nat := 0
  deriving DecidableEq, Repr

/-- One counted access or command, in issue order (R73). -/
structure Counted where
  ctr : Nat
  id : Nat
  returned : Bool
  deriving DecidableEq, Repr

/-- A guard slot (R74). -/
inductive Guard where
  | unresolved
  | false
  | true
  deriving DecidableEq, Repr

/-- The states of a group (R52). -/
inductive GState where
  | unplaced
  | pending
  | active
  | parked
  | yielding
  | saved
  | exited
  | killed
  deriving DecidableEq, Repr

/-- The fields of a kernel descriptor (R132). -/
structure KDesc where
  w : Nat
  t : Nat
  cw : Nat
  ch : Nat
  gcount : Nat
  accn : Nat
  qmap : BitVec 8
  dcount : Nat
  entry : W64
  lcb : W64
  dict : W64
  utvec : W64
  hcb : W64
  spad : Nat
  deriving DecidableEq, Repr

def KDesc.empty : KDesc :=
  { w := 32, t := 1, cw := 1, ch := 1, gcount := 0, accn := 0, qmap := 0, dcount := 0, entry := 0, lcb := 0, dict := 0,
    utvec := 0, hcb := 0, spad := 0 }

/-- A group (02 R41, R52; 03). -/
structure Group where
  desc : KDesc
  launch : Nat
  team : Nat
  gid : Nat
  grank : Nat
  crank : Nat
  cluid : Nat
  /-- Core number of the cluster's corner (R26). -/
  corner : Nat
  st : GState
  core : Nat
  sector : Nat
  place : Nat
  /-- Order of placement on the core (R47). -/
  age : Nat
  /-- Context index of a stage group (R366). -/
  ctx : Nat
  v : Map LaneReg
  m : Map W64
  /-- Instructions each completion flag awaits; a flag is set while the count is above 0 (R36). -/
  flags : Map Nat
  counters : Map (BitVec 16)
  inflight : List Counted
  guards : Map Guard
  tflags : Map Bool
  /-- Operand queues q0 to q7, head first (R74). -/
  oq : Map (List LaneReg)
  fpctl : W64
  /-- Queued FPCTL writes in issue order: number and value (R79). -/
  fpctlQ : List (Nat × W64)
  fpctlNo : Nat
  fpstat : W64
  utvec : W64
  skips : W64
  recn : Nat
  recdepth : Nat
  splits : Map Split
  cur : Nat
  /-- Clock at which the current split became current; the quantum that is due (R51). -/
  curSince : Nat
  changeDue : Bool
  acc : List Access
  /-- Joins: the next tag's identity (R44). -/
  nextTag : Nat
  /-- Record slots held until exit (R345). -/
  slots : List Nat
  /-- A release of the group's wait came in the clock of the decision to swap it out (R50). -/
  released : Bool
  /-- Ready, while pending (R49). -/
  ready : Bool
  /-- The clock at which a swap decision took it out of the active set (R50). -/
  outAt : Option Nat
  /-- A forced save is under way (R282). -/
  forced : Bool
  /-- What the save names: live tiles and ranges (R279). -/
  ltm : BitVec 8
  range1 : W64
  range2 : W64
  /-- Placed again, with its context still in the team's context area (R283). -/
  away : Bool
  /-- The bytes of the context area in hand: those to be written by a save, or those that a restore has read so far (R279, R84). -/
  area : List Byte
  /-- How much of the save's writes has been done. -/
  areaAt : Nat
  /-- Lane registers that hold an uncorrectable error (R220, R238). -/
  vBad : List Nat := []
  deriving DecidableEq, Repr

def Group.empty : Group :=
  { desc := KDesc.empty, launch := 0, team := 0, gid := 0, grank := 0, crank := 0, cluid := 0, corner := 0,
    st := .unplaced, core := 0, sector := 0, place := 0, age := 0, ctx := 0, v := [(0, .a 0 1)], m := [], flags := [],
    counters := [], inflight := [], guards := [], tflags := [], oq := [], fpctl := 0, fpctlQ := [], fpctlNo := 0,
    fpstat := 0, utvec := 0, skips := 0, recn := 0, recdepth := 0, splits := [], cur := 0, curSince := 0,
    changeDue := false, acc := [], nextTag := 0, slots := [], released := false, ready := true, outAt := none, forced := false,
    ltm := 0, range1 := 0, range2 := 0, away := false, area := [], areaAt := 0 }

/-- A Thresher job attached to a barrier (R343): its command, group and core, the records' addresses and the operation. -/
structure Job where
  cmd : Nat
  group : Nat
  core : Nat
  priv : W64
  dest : W64
  op : Nat
  deriving DecidableEq, Repr

/-- A named barrier (R76), the Thresher jobs attached to it (R343), and the jobs of completed phases still to run (R344). -/
structure Barrier where
  expect : BitVec 16
  ebytes : BitVec 32
  arrivals : BitVec 16
  nbytes : BitVec 32
  phase : Bool
  jobs : List Job
  due : List Job
  /-- Phase messages in flight, oldest first: member core and the phase told. -/
  msgs : List (Nat × Bool)
  deriving DecidableEq, Repr

def Barrier.reset : Barrier :=
  { expect := 0, ebytes := 0, arrivals := 0, nbytes := 0, phase := false, jobs := [], due := [], msgs := [] }

/-- An accumulator tile (R75, R311, R321, R296). `owner` is the team that holds it. Elements are keyed by
row × 128 + column; an unlisted element is 0, an unlisted label is void. -/
structure Tile where
  owner : Option Nat
  elems : Map W32
  labels : Map W32
  erm : BitVec 128
  tokenV : Bool
  msat : Bool
  fmte : Bool
  deriving DecidableEq, Repr

def Tile.fresh (owner : Option Nat) : Tile :=
  { owner := owner, elems := [], labels := [], erm := BitVec.allOnes 128, tokenV := false, msat := false, fmte := false }

/-- One way of the tag table (R205): its tag, and when it was last used (0 is least recent). -/
structure TagWay where
  valid : Bool
  tag : BitVec 37
  used : Nat
  deriving DecidableEq, Repr

/-- A ring slot: the shipped ring B15 (R387), or a loaded image (R385) as its 16,896 bytes. -/
inductive RingSlot where
  | b15
  | image (bytes : List Byte)
  deriving DecidableEq, Repr

/-- A Winnow binding (R401, R414). -/
structure Binding where
  sheaf : W64
  prog : List W32
  progId : Nat
  flags : W32
  key : W64
  position : W32
  draw : W32
  p : List W32
  deriving DecidableEq, Repr

/-- A row partial (R401). -/
structure Partial where
  max : W32
  sum : W32
  best : W32
  bestx : W32
  token : W32
  nans : W32
  deriving DecidableEq, Repr

/-- The empty partial (R401). -/
def Partial.empty : Partial :=
  { max := 0xFF800000#32, sum := 0, best := 0xFF800000#32, bestx := 0xFF800000#32, token := 0xFFFFFFFF#32, nans := 0 }

/-- A write that a Winnow or sequence command has yet to perform: bytes at a virtual address; a binding's POSITION, DRAW and FLAGS (R417 to
R419); one token counted in a count table (R418); a ticket taken at an address and written at another (R416); a prefix entry pinned or
unpinned (R422). -/
inductive WStep where
  | write (va : W64) (bytes : List Byte)
  | bind (n : Nat) (position draw flags : W32)
  | count (table : W64) (token : W32)
  | ticket (va slot : W64)
  | pin (entry : W64) (up : Bool)
  deriving DecidableEq, Repr

/-- An engine command (R323, R324): its number, TAG (R232), owning group and split, row, the register values it carries as
s[A], s[A+1], s[B] to s[B+3] (R377), its address, the Halyard context that emitted it with the queues it pops (R377), and what it
has done so far. -/
structure Cmd where
  id : Nat
  tag : Nat
  group : Nat
  split : Nat
  row : Instr
  vals : List W64
  addr : W64
  ctx : Option Nat
  pops : BitVec 8
  /-- A REL covers the group's accesses with a lower number (R263, R268). -/
  after : Nat
  /-- It has started; `finished` says that only its completion is left. -/
  started : Bool
  finished : Bool
  /-- A fault parks it (R233). -/
  parked : Bool
  /-- Elements performed (R233), and bytes for its barrier (R338). -/
  progress : Nat
  bytes : Nat
  /-- Lane registers that the command still holds as sources (R266, R315). -/
  held : List Nat
  /-- Its records as read at the start (R325). -/
  recs : List Byte
  /-- Transfers that another device has yet to answer: what they are of, and the virtual address there (R234). -/
  reads : List (Nat × W64)
  /-- The writes left once it has computed them (R233: no element is performed twice). -/
  plan : Option (List WStep)
  /-- Rows of a GET that have come and are not all written, or of a PUT that has not sent them yet: each one's number, its next element, and
  its bytes (R233, R234). -/
  got : List (Nat × Nat × List Byte) := []
  /-- What it had read by its last fault, for it to go on from there (R233). -/
  seen : List Byte := []
  /-- Scales of the destination blocks that a copy has begun, by the block's number (R298). -/
  scales : Map Nat := []
  deriving DecidableEq, Repr

/-- A Halyard context (R372). -/
structure HalCtx where
  running : Bool
  owner : Nat
  pc : W64
  h : Map W64
  guard : Nat
  grants : Map Nat
  parked : Bool
  /-- Accesses of the group with a lower number precede its HSTART (R268). -/
  since : Nat
  /-- The split that issued its HSTART. -/
  split : Nat
  /-- Entries that the `hl.str` in hand has pushed. -/
  pushed : Nat
  deriving DecidableEq, Repr

def HalCtx.reset : HalCtx :=
  { running := false, owner := 0, pc := 0, h := [], guard := 31, grants := [], parked := false, since := 0, split := 0, pushed := 0 }

/-- A dictionary bank: the kernel's dictionary address, and its entries as 12-byte records (R105, R106). -/
structure DictBank where
  dict : W64
  count : Nat
  users : List Nat
  entries : List (W64 × W32)
  deriving DecidableEq, Repr

/-- A TLB entry: page base, size code, the leaf as walked (R226). -/
structure TlbEntry where
  base : W64
  size : Nat
  leaf : W64
  slot : Nat
  deriving DecidableEq, Repr

/-- A lane sector's two-level sets (R46, R49): groups active, groups pending in order, and swaps in progress (group
in, clock due); and the clocks from which it may issue the next scalar and the next lane instruction (R31, R46). -/
structure Sector where
  active : List Nat
  pending : List Nat
  swaps : List (Nat × Nat)
  scalarFree : Nat := 0
  laneFree : Nat := 0
  deriving DecidableEq, Repr

/-- A compute core (R5). -/
structure Core where
  spad : Memory
  /-- 32-byte units of the scratchpad that hold an uncorrectable error (R238). -/
  spadBad : List Nat
  scale : Memory
  tiles : Map Tile
  tags : Map TagWay
  tagClock : Nat
  bars : Map Barrier
  rels : Map (List W32)
  rings : Map RingSlot
  /-- Rings loaded in this clock, by slot: its lane instructions read the old ones (R391). -/
  landing : List (Nat × List Byte) := []
  gdescs : Map (List Byte)
  gcache : List (Nat × List Byte)
  binds : Map Binding
  partials : Map Partial
  queues : Map (List Cmd)
  tagNo : Map Nat
  hal : Map HalCtx
  halLast : Nat
  dicts : Map DictBank
  tlb : List TlbEntry
  cycle : W64
  halted : Bool
  sectors : Map Sector
  /-- Elements of tiles, by tile and element, bytes of the scale store and 32-byte units in the Glean cache that hold an uncorrectable
  error (R220, R238). -/
  tileBad : List (Nat × Nat) := []
  scaleBad : List Nat := []
  gleanBad : List Nat := []
  /-- The clock from which the Halyard may issue its next word (R372). -/
  halFree : Nat := 0
  /-- Hundredths of an island clock that CYCLE has yet to count (R443). -/
  cycleRem : Nat := 0
  deriving DecidableEq, Repr

def Core.reset : Core :=
  { spad := [], spadBad := [], scale := [], tiles := [], tags := [], tagClock := 0, bars := [], rels := [], rings := [],
    gdescs := [], gcache := [], binds := [], partials := [], queues := [], tagNo := [], hal := [], halLast := 7,
    dicts := [], tlb := [], cycle := 0, halted := false, sectors := [] }

/-- The private SRAM of a service core (R9). -/
def sramBytes : Nat := 1048576

/-- A Tiller service core (R424, R425, R9). -/
structure SvcCore where
  regs : Map W64
  pc : W64
  serr : W64
  stvec : W64
  scause : W64
  sepc : W64
  sinfo : W64
  halted : Bool
  /-- CYCLE of the core (R424). -/
  cycle : W64
  /-- The private SRAM, of `sramBytes` (R9); no instruction of the manual reaches it (log 98). -/
  sram : Memory
  /-- Thirds of a clock that CYCLE has yet to count (R9, R443). -/
  cycleRem : Nat := 0
  deriving DecidableEq, Repr

def SvcCore.reset : SvcCore :=
  { regs := [], pc := 0, serr := 0, stvec := 0, scause := 0, sepc := 0, sinfo := 0, halted := false, cycle := 0, sram := [] }

/-- Where a fault record stands (R231, R235, R236): in its buffer without a number, in the queue, taken from the queue by FQ.POP, or
no record any more but an entry that the queue still holds. -/
inductive FStatus where
  | buffered
  | queued
  | popped
  | dead
  deriving DecidableEq, Repr

/-- Whose access faulted. -/
inductive FOwner where
  /-- An access of a group in flight: group, split, access. -/
  | access (g sp acc : Nat)
  /-- A fetch of a group's stream: group, split, lane stream. -/
  | fetch (g sp : Nat) (lane : Bool)
  /-- A FUT.RD probe (R204). -/
  | probe (g sp : Nat)
  /-- An engine command: core, queue, command. -/
  | engine (core q cmd : Nat)
  /-- A Halyard context: core, context. -/
  | halyard (core ctx : Nat)
  /-- An access of another device (R234). -/
  | remote (m : FleetAccess)
  /-- A save or a restore of a group (R279, R84). -/
  | save (g : Nat)
  | restore (g : Nat)
  deriving DecidableEq, Repr

/-- A fault record (R229 to R232): the entry's fields, where it stands, whether it is resolved. -/
structure FRec where
  id : Nat
  seq : W64
  va : W64
  lanes : W64
  core : Nat
  kind : Nat
  split : Nat
  cause : Nat
  slot : Nat
  tag : Nat
  eng : Nat
  time : W64
  owner : FOwner
  status : FStatus
  numbered : Bool
  resolved : Bool
  addr : W64
  /-- The clock at which the record became ready (R231). -/
  since : Nat
  deriving DecidableEq, Repr

/-- A team placed or saved (R28, R30, R75, R105). -/
structure Team where
  launch : Nat
  cluster : Nat
  rank : Nat
  core : Nat
  corner : Nat
  spbase : Nat
  tiles : List Nat
  bank : Option Nat
  resident : Bool
  deriving DecidableEq, Repr

/-- A launch: one kernel or stage node's groups (R132, R278, R281). `req` is the deadline of a pending request. -/
structure Launch where
  run : Nat
  node : Nat
  desc : KDesc
  args : List W64
  clusters : Nat
  placed : Nat
  ctxBase : W64
  ctxStride : Nat
  prio : Nat
  stage : Bool
  gid : Nat
  ctx : Nat
  records : List Nat
  depth : Nat
  req : Option Nat
  /-- The kernel descriptor and the dictionary have been read and checked (R132, R106). -/
  loaded : Bool
  dict : List (W64 × W32)
  killed : Bool
  deriving DecidableEq, Repr

/-- A record of a stage bin: slot, depth, clock of entry (R346, R367). -/
structure Rec where
  slot : Nat
  depth : Nat
  entered : Nat
  deriving DecidableEq, Repr

/-- A node of a loaded graph (R356). -/
structure Node where
  kind : Nat
  prio : BitVec 8
  npred : Nat
  nsucc : Nat
  maxgrp : Nat
  succ : Nat
  kdesc : W64
  clusters : Nat
  ctxBase : W64
  ctxStride : W64
  rsize : Nat
  count : Nat
  depth : Nat
  timer : Nat
  pool : W64
  pages : Nat
  args : List W64
  deriving DecidableEq, Repr

/-- A loaded graph (R355, R358). -/
structure Graph where
  nodes : List Node
  edges : List Nat
  endNode : Nat
  deriving DecidableEq, Repr

/-- A node's progress in a run (R359, R361, R365). -/
structure NodeSt where
  counter : Nat
  enqueued : Bool
  done : Bool
  bin : List Rec
  nextSlot : Nat
  held : List Nat
  ordinal : Nat
  passes : Nat
  deriving DecidableEq, Repr

def NodeSt.init (npred : Nat) : NodeSt :=
  { counter := npred, enqueued := false, done := false, bin := [], nextSlot := 0, held := [], ordinal := 0, passes := 0 }

/-- The states of a run (R349). -/
inductive RunState where
  | held
  | running
  | saving
  | suspended
  | ended
  deriving DecidableEq, Repr

/-- A run (R349, R350). `byFiring` marks a run held by a PREEMPT firing; `named` is the order in which RESUME named it (0 not named);
`firedBy` is the run that the firing holds whose request suspends this one; `passed` are the runs for whose graph a held run has been
passed over (R351). -/
structure Run where
  graph : Nat
  stream : Nat
  prio : Nat
  arg : Option W64
  st : RunState
  nodes : Map NodeSt
  completed : Nat
  byFiring : Bool
  named : Nat
  firedBy : Option Nat := none
  passed : List Nat := []
  deriving DecidableEq, Repr

/-- A cluster request (R364): launch and cluster, or a saved team to be placed again. -/
structure PlaceReq where
  launch : Nat
  cluster : Nat
  prio : Nat
  seq : Nat
  team : Option Nat
  deriving DecidableEq, Repr

/-- A sail-plan entry (R352) with the times that R353 compares: of its last SAIL.W, and of its last firing. -/
structure SailEntry where
  offset : W64
  graph : Nat
  stream : Nat
  valid : Bool
  noarg : Bool
  policy : Nat
  prio : Nat
  deadline : Nat
  arg : W64
  skips : W32
  written : Nat
  lastDue : Option Nat
  deriving DecidableEq, Repr

def SailEntry.reset : SailEntry :=
  { offset := 0, graph := 0xFFFF, stream := 0, valid := false, noarg := false, policy := 0, prio := 0, deadline := 0,
    arg := 0, skips := 0, written := 0, lastDue := none }

/-- A service call posted by SVC (R427): the group and split that wait, its code and argument, and where its ring entry
lies once the report is posted. -/
structure SvcCall where
  group : Nat
  split : Nat
  launch : Nat
  code : W32
  arg : W64
  entry : Option Nat
  /-- The answer, once the service has given it and the device has seen it (R428). -/
  answer : Option W64 := none
  deriving DecidableEq, Repr

/-- A ring descriptor as read from the directory (R426). -/
structure RingDesc where
  base : Nat
  log2n : Nat
  deriving DecidableEq, Repr

/-- A journal entry (R440): KIND, TIME and body. -/
structure JEntry where
  kind : Nat
  seq : Nat
  time : Nat
  body : List Byte
  deriving DecidableEq, Repr

/-- A sequence of the service (R431 to R433). -/
structure Sequence where
  port : Nat
  model : W64
  key : W64
  prog : Nat
  params : List W32
  stops : List (List Byte)
  holdback : Bool
  tokens : List Nat
  held : List Byte
  generating : Option Nat
  ended : Bool
  limit : Nat
  deriving DecidableEq, Repr

/-- A reply to a client (R431, R432). -/
structure Reply where
  port : Nat
  type : Nat
  flags : Nat
  requestId : Nat
  handle : Nat
  status : Nat
  body : List Byte
  deriving DecidableEq, Repr

/-- What is sent to another device (R234, R339): runs of bytes to write there, a request to read there, the bytes that answer such a
request, or the news that a transfer was performed, that its fault entry was killed, or that it met an uncorrectable error. `va` names
the transfer, by its first address. -/
inductive FleetMsg where
  | write (va : W64) (runs : List (W64 × List Byte))
  | read (va : W64) (count : Nat)
  | data (va : W64) (bytes : List Byte)
  | done (va : W64)
  | killed (va seq : W64)
  | error (va : W64) (pa : Nat)
  deriving DecidableEq, Repr

/-- A message to another device, with the number by which the issuing device knows the transfer. -/
structure FleetOut where
  device : Nat
  message : Nat
  msg : FleetMsg
  deriving DecidableEq, Repr

structure Link where
  up : Bool
  port : Option Nat
  deriving DecidableEq, Repr

structure Island where
  point : Nat
  temp : Nat
  power : Nat
  word : W64
  deriving DecidableEq, Repr

/-- A fatal trap raised in the present clock (R272): the launch that it ends, its group and split, the priority of its cause (R270), the
agent that raised it, and its record. -/
structure Dying where
  launch : Nat
  group : Nat
  split : Nat
  prio : Nat
  by_ : Agent
  body : List Byte
  deriving DecidableEq, Repr

/-- One TZ-192 package. -/
structure State where
  /- The model's own fields. -/
  cur : Agent
  fetchLen : Nat
  turns : List Turn
  turnNo : Nat
  freeNo : Nat
  /-- The groups whose save, the service has been told, a parked command blocks (R282; log 100). -/
  blocked : List Nat := []
  /-- The engine command in hand: what it had read by its last fault and has yet to take again, and what it has read in this turn, last
  first (R233). Both are empty between turns. -/
  again : List Byte := []
  read : List Byte := []
  /-- The commands that have come to the prefix unit, in the order of their arrival: core and command (R423). -/
  pfxLine : List (Nat × Nat) := []
  clock : Nat
  /-- How far the present clock has come in the order of its events (R278, R304, R353, R360, R371). -/
  phase : Nat × Nat × Nat
  /-- Fatal traps raised in this clock, and bins to be tested in it: run and node (R272, R360). -/
  fatals : List Dying
  binsDue : List (Nat × Nat)
  nextFrame : Nat
  nextGroup : Nat
  nextTeam : Nat
  nextLaunch : Nat
  nextId : Nat
  /- The device. -/
  hbm : Memory
  hbmBad : List Nat
  time : Nat
  /-- Nanoseconds of TIME that slewing has yet to add, or to take off (R448). -/
  slew : Int
  /-- Nanoseconds that have passed since slewing last changed TIME by one (R448). -/
  slewRem : Nat
  bootStep : Nat
  bootHalted : Bool
  portsOpen : Bool
  heldInReset : Bool
  measure : List Byte
  /-- The seed of the identity key pair, which boot derives (R442); no instruction reads it. -/
  identity : List Byte
  troot : W64
  fqbase : W64
  ringsReg : W64
  pfxbase : W64
  wpaddr : W64
  ringDescs : Map RingDesc
  /-- Reports not yet posted, oldest first, by ring; a service call's report carries the call's number. -/
  reports : Map (List (Option Nat × List Byte))
  dropped : Map Nat
  wprogs : Map W32
  /-- The model ids that LOAD has been given (R431). -/
  models : List W64
  ioTlb : List TlbEntry
  fqNext : W64
  frecs : List FRec
  cores : Map Core
  services : Map SvcCore
  groups : Map Group
  teams : Map Team
  launches : Map Launch
  graphs : Map Graph
  runs : Map Run
  nextRun : Nat
  nextNamed : Nat
  placeQ : List PlaceReq
  launchSeq : Nat
  sailPeriod : Nat
  sailEpoch : Nat
  sailFrom : Nat
  /-- A PLAN write that takes effect in the next core clock: PERIOD, EPOCH, and TIME of the write (R369). -/
  planNext : Option (Nat × Nat × Nat)
  sail : Map SailEntry
  firingNo : Nat
  calls : Map SvcCall
  links : Map Link
  deviceId : Option Nat
  portsUp : Map Bool
  islands : Map Island
  powerCap : Nat
  /-- Samples of package power in mW, newest first, those of the last 10 ms (R444). -/
  powers : List Nat
  journal : List JEntry
  journalNext : Nat
  /-- Where the next journal entry begins in HBM, once the service has begun its journal there (R439, R440). -/
  journalAt : Option Nat
  /-- Replay mode: the journal entries still to be fed (R441). -/
  replay : Option (List JEntry)
  sequences : Map Sequence
  nextHandle : Nat
  replies : List Reply
  fleetOut : List FleetOut
  svcMaps : List (Nat × W64 × Nat)
  corrected : Map Nat
  deriving DecidableEq, Repr

/-- The machine right after reset (R447, R424, R231, R304, R340, R387, R410, R442, R444, R448): boot has not begun.
Values the manual does not give are named in log 5. -/
def State.reset : State :=
  { cur := .device, fetchLen := 0, turns := [], turnNo := 0, freeNo := 0, clock := 0, phase := (0, 0, 0), fatals := [], binsDue := [],
    nextFrame := 0, nextGroup := 0,
    nextTeam := 0, nextLaunch := 0, nextId := 0,
    hbm := [], hbmBad := [], time := 0, slew := 0, slewRem := 0, bootStep := 0, bootHalted := false, portsOpen := false, heldInReset := false,
    measure := List.replicate 32 0, identity := [], troot := 0, fqbase := 0, ringsReg := 0, pfxbase := 0, wpaddr := 0, ringDescs := [],
    reports := [], dropped := [], wprogs := [], models := [], ioTlb := [], fqNext := 1, frecs := [], cores := [],
    services := (List.range 8).map (fun k => (k, { SvcCore.reset with halted := decide (k ≠ 0) })), groups := [],
    teams := [], launches := [], graphs := [], runs := [], nextRun := 1, nextNamed := 1, placeQ := [], launchSeq := 0,
    sailPeriod := 0, sailEpoch := 0, sailFrom := 0, planNext := none, sail := [], firingNo := 0, calls := [], links := [],
    deviceId := none, portsUp := [], islands := [], powerCap := 1800, powers := [], journal := [], journalNext := 1, journalAt := none,
    replay := none, sequences := [], nextHandle := 1, replies := [], fleetOut := [], svcMaps := [], corrected := [] }

end Sys2Proof.Machine
end

