-- ==== Sys2Proof/Machine/Access.lean ====
section
/-! DEFINITION. Reading and writing the pieces of State: groups, splits, cores, service cores, physical memory with its
check bits, ring reports and the journal. -/

namespace Sys2Proof.Machine

/-- What a meaning answers. -/
abbrev Out := Host.Outcome State Fault Refusal

def State.grp (s : State) (g : Nat) : Group := s.groups.get Group.empty g
def State.setGrp (s : State) (g : Nat) (x : Group) : State := { s with groups := s.groups.put g x }
def State.modGrp (s : State) (g : Nat) (f : Group → Group) : State := s.setGrp g (f (s.grp g))
def Group.split (x : Group) (k : Nat) : Split := x.splits.get Split.dead k
def Group.setSplit (x : Group) (k : Nat) (p : Split) : Group := { x with splits := x.splits.put k p }
def State.split (s : State) (g sp : Nat) : Split := (s.grp g).split sp
def State.setSplit (s : State) (g sp : Nat) (p : Split) : State := s.setGrp g ((s.grp g).setSplit sp p)
def State.modSplit (s : State) (g sp : Nat) (f : Split → Split) : State := s.setSplit g sp (f (s.split g sp))
def State.core (s : State) (c : Nat) : Core := s.cores.get Core.reset c
def State.setCore (s : State) (c : Nat) (x : Core) : State := { s with cores := s.cores.put c x }
def State.modCore (s : State) (c : Nat) (f : Core → Core) : State := s.setCore c (f (s.core c))
def State.svc (s : State) (k : Nat) : SvcCore := s.services.get SvcCore.reset k
def State.setSvc (s : State) (k : Nat) (x : SvcCore) : State := { s with services := s.services.put k x }
def State.launch (s : State) (l : Nat) : Option Launch := s.launches.find l
def State.queue (s : State) (c q : Nat) : List Cmd := (s.core c).queues.get [] q
def State.setQueue (s : State) (c q : Nat) (l : List Cmd) : State :=
  s.modCore c (fun x => { x with queues := x.queues.put q l })
def State.bar (s : State) (c b : Nat) : Barrier := (s.core c).bars.get Barrier.reset b
def State.setBar (s : State) (c b : Nat) (x : Barrier) : State := s.modCore c (fun k => { k with bars := k.bars.put b x })
def State.tile (s : State) (c t : Nat) : Tile := (s.core c).tiles.get (Tile.fresh none) t
def State.setTile (s : State) (c t : Nat) (x : Tile) : State := s.modCore c (fun k => { k with tiles := k.tiles.put t x })

/-- Writes a tile; one that is overwritten whole holds no error any more (log 97). -/
def State.putTile (s : State) (c t : Nat) (whole : Bool) (x : Tile) : State :=
  (s.setTile c t x).modCore c (fun k => { k with tileBad := if whole then k.tileBad.filter (fun p => p.1 != t) else k.tileBad })

/-- A fresh number for a record of the model (log 4). -/
def State.fresh (s : State) : Nat × State := (s.nextId, { s with nextId := s.nextId + 1 })

/-- The live splits, rising (R41). -/
def Group.liveSplits (x : Group) : List Nat := (List.range 4).filter (fun k => (x.split k).live)

/-- Residence (R53). -/
def GState.resident (t : GState) : Bool :=
  match t with
  | .pending | .active | .parked | .yielding => true
  | .unplaced | .saved | .exited | .killed => false

/-- SLOT of R28 and R232. -/
def Group.slotNo (x : Group) : Nat := x.sector * 16 + x.place

/-- The core number of rank `r` in a cluster of `w` columns whose corner is `corner` (R2, R26). -/
def coreOfRank (corner w r : Nat) : Nat := corner + r / w * 8 + r % w

/-! Physical memory (R219, R238). -/

/-- The end of the memory that an entry may map (R219). -/
def hbmEnd : Nat := 0x6000000000

/-- The 32-byte units that `n` bytes from `pa` touch. -/
def unitsOf (pa n : Nat) : List Nat :=
  if n = 0 then [] else (List.range ((pa + n - 1) / 32 - pa / 32 + 1)).map (· + pa / 32)

/-- A byte of the range lies in a unit with failing check bits. -/
def State.hbmBadIn (s : State) (pa n : Nat) : Bool := s.hbmBad.any (fun u => (unitsOf pa n).contains u)

def State.hbmRead (s : State) (pa n : Nat) : List Byte := s.hbm.readN pa n
def State.hbmNat (s : State) (pa n : Nat) : Nat := leNat (s.hbmRead pa n)

/-- The 64-byte granules of R202 that a write touches. -/
def granulesOf (pa n : Nat) : List Nat :=
  if n = 0 then [] else (List.range ((pa + n - 1) / 64 - pa / 64 + 1)).map (· + pa / 64)

/-- Clears the reservations on the granules, but for those of `own`, a split's number + 4 × its life in its group (R203). -/
def State.clearResv (s : State) (own : Option (Nat × Nat)) (grs : List Nat) : State :=
  { s with groups := s.groups.map (fun p =>
      (p.1, { p.2 with splits := p.2.splits.map (fun q =>
        (q.1, { q.2 with resv := q.2.resv.filter (fun r => own == some (p.1, q.1 + 4 * (r.1 / 64)) || !grs.contains r.2) })) })) }

/-- Writes bytes to HBM: a wholly written 32-byte unit gets valid check bits again (R238), and the reservations of
others on the granules end (R203). -/
def State.hbmWrite (s : State) (own : Option (Nat × Nat)) (pa : Nat) (bs : List Byte) : State :=
  ({ s with hbm := s.hbm.writeN pa bs,
            hbmBad := s.hbmBad.filter (fun u => !(decide (pa ≤ u * 32) && decide (u * 32 + 32 ≤ pa + bs.length))) }
    : State).clearResv own (granulesOf pa bs.length)

/-- Writes an `n`-byte little-endian number. -/
def State.hbmPut (s : State) (own : Option (Nat × Nat)) (pa n v : Nat) : State := s.hbmWrite own pa (leBytes n v)

def State.spadRead (s : State) (c o n : Nat) : List Byte := (s.core c).spad.readN o n
def State.spadBadIn (s : State) (c o n : Nat) : Bool := (s.core c).spadBad.any (fun u => (unitsOf o n).contains u)
def State.spadWrite (s : State) (c o : Nat) (bs : List Byte) : State :=
  s.modCore c (fun k => { k with
    spad := k.spad.writeN o bs
    spadBad := k.spadBad.filter (fun u => !(decide (o ≤ u * 32) && decide (u * 32 + 32 ≤ o + bs.length))) })

/-! Reports (R426) and the journal (R440). -/

/-- Hands a report to its ring; a report meant for an unused ring is dropped and counted (R426). -/
def State.report (s : State) (ring : Nat) (call : Option Nat) (bs : List Byte) : State :=
  match s.ringDescs.find ring with
  | some _ => { s with reports := s.reports.put ring (s.reports.get [] ring ++ [(call, bs)]) }
  | none => { s with dropped := s.dropped.put ring (s.dropped.get 0 ring + 1) }

/-- Pads with zero bytes to a multiple of 8. -/
def pad8 (bs : List Byte) : List Byte := bs ++ List.replicate (roundUp bs.length 8 - bs.length) 0

/-- A journal entry's bytes (R440). -/
def JEntry.bytes (e : JEntry) : List Byte :=
  leBytes 2 e.kind ++ leBytes 2 0 ++ leBytes 4 e.body.length ++ leBytes 8 e.seq ++ leBytes 8 e.time ++ leBytes 8 0 ++ e.body

/-- Puts a journal entry behind the last one in HBM (R439, R440); past the end of HBM nothing is written (log 82). -/
def State.noteHbm (s : State) (e : JEntry) : State :=
  match s.journalAt with
  | none => s
  | some a =>
    if hbmEnd < a + e.bytes.length then s
    else { s.hbmWrite none a e.bytes with journalAt := some (a + e.bytes.length) }

/-- Writes a journal entry (R440). -/
def State.note (s : State) (kind : Nat) (body : List Byte) : State :=
  let e : JEntry := { kind := kind, seq := s.journalNext, time := s.time, body := pad8 body }
  ({ s with journal := s.journal ++ [e], journalNext := s.journalNext + 1 } : State).noteHbm e

/-- An events-ring entry (R427). -/
def State.event (s : State) (kind cause unit value : Nat) : State :=
  s.report 3 none (leBytes 1 kind ++ leBytes 1 cause ++ leBytes 2 unit ++ leBytes 4 0 ++ leBytes 8 value ++
    leBytes 8 s.time ++ leBytes 8 0)

/-- A run-ring entry (R427). -/
def State.runReport (s : State) (run graph kind err node stream : Nat) : State :=
  s.report 1 none (leBytes 4 run ++ leBytes 2 graph ++ leBytes 1 kind ++ leBytes 1 err ++ leBytes 2 node ++
    leBytes 1 stream ++ leBytes 5 0 ++ leBytes 8 s.time ++ leBytes 8 0)

/-- The journal's machine-check entry (R238, R440). -/
def State.noteCheck (s : State) (pa va addr core slot lane : Nat) : State :=
  s.note 8 (leBytes 8 pa ++ leBytes 8 va ++ leBytes 8 addr ++ leBytes 1 core ++ leBytes 1 slot ++ leBytes 1 lane ++ leBytes 5 0)

/-- The device meets an uncorrectable error in HBM with no group to trap: the error is journalled (R238; log 101). -/
def State.deviceCheck (s : State) (pa : Nat) : State := s.noteCheck pa 0 0 0xFF 0xFF 0xFF

end Sys2Proof.Machine
end

