-- ==== Sys2Proof/Machine/Runs.lean ====
section
/-! DEFINITION. Killing groups and launches, and the life of a run: enqueueing nodes, ending, and what a freed stream
takes next (R53, R284, R349 to R351, R359 to R362). -/

namespace Sys2Proof.Machine

/-- Takes a group out of its sector's sets (R46). -/
def State.leaveSector (s : State) (g : Nat) : State :=
  let x := s.grp g
  s.modCore x.core (fun k =>
    let q := k.sectors.get { active := [], pending := [], swaps := [] } x.sector
    { k with sectors := k.sectors.put x.sector
               { q with active := q.active.filter (· != g), pending := q.pending.filter (· != g),
                        swaps := q.swaps.filter (fun w => w.1 != g) } })

/-- Releases a team's tiles, bank and allocation once none of its groups is resident (R53, R105). -/
def State.releaseTeam (s : State) (t : Nat) : State :=
  match s.teams.find t with
  | none => s
  | some tm =>
    if s.groups.any (fun p => p.2.team = t && p.2.st.resident) then s
    else
      { s.modCore tm.core (fun k =>
          { k with
            tiles := k.tiles.map (fun p => (p.1, if tm.tiles.contains p.1 then { p.2 with owner := none } else p.2))
            dicts := k.dicts.map (fun p => (p.1, { p.2 with users := p.2.users.filter (· != t) })) }) with
        teams := s.teams.put t { tm with resident := false, bank := none, tiles := [] } }

/-- A group leaves the resident states, or its core's sets, for state `st`. -/
def State.groupLeaves (s : State) (g : Nat) (st : GState) : State :=
  ((s.leaveSector g).modGrp g (fun x => { x with st := st })).releaseTeam (s.grp g).team

/-- The group whose access or command a record holds. -/
def State.ownerGroup (s : State) (o : FOwner) : Option Nat :=
  match o with
  | .access g _ _ | .fetch g _ _ | .probe g _ | .save g | .restore g => some g
  | .engine c q n => ((s.queue c q).find? (fun m => m.id == n)).map (·.group)
  | .halyard c x => some ((s.core c).hal.get HalCtx.reset x).owner
  | .remote _ => none

/-- What is left of a record that is dropped: an entry that the queue still holds stays there and is dead (R236). -/
def FRec.drop (r : FRec) : Option FRec :=
  match r.status with
  | .queued | .dead => some { r with status := .dead }
  | .buffered | .popped => none

/-- Drops the records of a group (R236). -/
def State.dropRecords (s : State) (g : Nat) : State :=
  { s with frecs := s.frecs.filterMap (fun r => if s.ownerGroup r.owner = some g then r.drop else some r) }

/-- Drops one record. -/
def State.dropRecord (s : State) (id : Nat) : State :=
  { s with frecs := s.frecs.filterMap (fun r => if r.id = id then r.drop else some r) }

/-- An SVC whose group is killed before the answer: STATE bit 62 of its entry is set (R428); an entry that meets an uncorrectable error is
journalled and left (R238). -/
def State.abandonCall (s : State) (n : Nat) : State :=
  match s.calls.find n with
  | none => s
  | some c =>
    match c.entry with
    | some pa =>
      if c.answer.isNone && s.hbmBadIn (pa + 0x18) 8 then { s.deviceCheck (pa + 0x18) with calls := s.calls.erase n }
      else if c.answer.isSome || (s.hbm.read (pa + 0x1F)).getLsbD 7 then { s with calls := s.calls.erase n }
      else { s.hbmWrite none (pa + 0x1F) [s.hbm.read (pa + 0x1F) ||| 0x40#8] with calls := s.calls.erase n }
    | none =>
      { s with
        calls := s.calls.erase n
        reports := s.reports.put 2 ((s.reports.get [] 2).map (fun e =>
          if e.1 = some n then (none, e.2.take 0x1F ++ [0x40#8]) else e)) }

/-- Takes a group's commands, attached jobs and Halyard contexts away (R284). -/
def State.stopEngines (s : State) (g : Nat) : State :=
  { s with cores := s.cores.map (fun p => (p.1, { p.2 with
      queues := p.2.queues.map (fun q => (q.1, q.2.filter (fun c => c.group != g)))
      hal := p.2.hal.map (fun h => (h.1, if h.2.running && h.2.owner == g then
        { h.2 with running := false, parked := false } else h.2))
      bars := p.2.bars.map (fun b => (b.1, { b.2 with jobs := b.2.jobs.filter (fun j => j.group != g),
                                                      due := b.2.due.filter (fun j => j.group != g) })) })) }

/-- Kills one group: its clauses, handlers, commands and records go, and its registers stay as they stand (R284). -/
def State.killGroup (s : State) (g : Nat) : State :=
  match (s.grp g).st with
  | .exited | .killed | .unplaced => s
  | _ =>
    let s1 := (s.dropRecords g).stopEngines g
    let s2 := (s1.calls.filter (fun p => p.2.group == g)).foldl (fun t p => t.abandonCall p.1) s1
    let s3 := s2.modGrp g (fun x => { x with
      acc := []
      inflight := []
      away := false
      area := []
      areaAt := 0
      splits := x.splits.map (fun p => (p.1, { p.2 with
        queue := [], hqueue := [], run := none, hrun := none, traps := [], stall := none, inHandler := false })) })
    s3.groupLeaves g .killed

/-- The groups of a launch, in ascending number. -/
def State.groupsOf (s : State) (l : Nat) : List Nat := (s.groups.filter (fun p => p.2.launch == l)).map (·.1)

/-- Kills every group of a launch that is not Exited, and withdraws its placement requests (R53). -/
def State.killLaunch (s : State) (l : Nat) : State :=
  let s1 := (s.groupsOf l).foldl State.killGroup s
  { s1 with placeQ := s1.placeQ.filter (fun r => r.launch != l),
            launches := s1.launches.map (fun p => (p.1, if p.1 = l then { p.2 with killed := true, req := none } else p.2)) }

/-- A trap record (R272). -/
def trapRecord (addr mask info : Nat) (core cause flags slot gid : Nat) : List Byte :=
  leBytes 8 addr ++ leBytes 8 mask ++ leBytes 8 info ++ leBytes 1 core ++ leBytes 1 cause ++ leBytes 1 flags ++
    leBytes 1 slot ++ leBytes 4 gid

/-- Kills a launch with a cause of its own, reported with zero address, mask and information (R272, R284). -/
def State.killWith (s : State) (l cause : Nat) : State :=
  let live := (s.groupsOf l).filter (fun g => match (s.grp g).st with
    | .exited | .killed | .unplaced => false
    | _ => true)
  let s1 := s.killLaunch l
  match live with
  | [] => s1
  | g :: _ =>
    let x := s.grp g
    s1.report 0 none (trapRecord 0 0 0 x.core cause 0 x.slotNo x.gid)

/-! Runs. -/

def State.node (s : State) (graph k : Nat) : Option Node := (s.graphs.find graph).bind (fun g => g.nodes[k]?)

/-- The nodes that stand in a LOOP node's body (R357): BFIRST and BLAST are packed in TIMER (R356). -/
def Node.bodyHas (n : Node) (k : Nat) : Bool :=
  n.kind == 3 && decide (n.timer % 65536 ≤ k) && decide (k ≤ n.timer / 65536)

/-- The innermost LOOP node whose body holds node `k`. -/
def Graph.loopOf (g : Graph) (k : Nat) : Option Nat :=
  argMin (fun i => match g.nodes[i]? with
    | some n => n.timer / 65536 - n.timer % 65536
    | none => 0)
    ((List.range g.nodes.length).filter (fun i => match g.nodes[i]? with
      | some n => n.bodyHas k
      | none => false))

/-- The nodes that belong to loop `l` itself and to no body inside it; `none` stands for the graph outside all bodies. -/
def Graph.members (g : Graph) (l : Option Nat) : List Nat :=
  (List.range g.nodes.length).filter (fun k => g.loopOf k = l)

def State.run (s : State) (r : Nat) : Option Run := s.runs.find r

def State.modRun (s : State) (r : Nat) (f : Run → Run) : State :=
  match s.runs.find r with
  | some x => { s with runs := s.runs.put r (f x) }
  | none => s

def Run.nodeSt (x : Run) (k : Nat) : NodeSt := x.nodes.get (NodeSt.init 0) k

def State.modNode (s : State) (r k : Nat) (f : NodeSt → NodeSt) : State :=
  s.modRun r (fun x => { x with nodes := x.nodes.put k (f (x.nodeSt k)) })

/-- The level a node launches at (R350). -/
def nodePrio (x : Run) (n : Node) : Nat := if n.prio.getLsbD 3 then (n.prio.toNat % 8) else x.prio

/-- The launch arguments of a node's groups (R350). -/
def nodeArgs (x : Run) (n : Node) : List W64 :=
  match x.arg with
  | some a => n.args.take 14 ++ [a]
  | none => n.args

/-- Adds a placement request (R364): requests of one priority stand by the number of their launch. Those of a run that is saving or
suspended are withdrawn (R278). -/
def State.request (s : State) (l cluster : Nat) (team : Option Nat) : State :=
  match s.launches.find l with
  | none => s
  | some x =>
    if ((s.run x.run).map (·.st)) = some .running then
      { s with placeQ := s.placeQ ++ [{ launch := l, cluster := cluster, prio := x.prio, seq := l, team := team }],
               launchSeq := s.launchSeq + 1 }
    else s

/-- A launch of a node (R359, R364): its clusters ask for placement in ascending order, one after the other. -/
def State.newLaunch (s : State) (r k : Nat) (x : Run) (n : Node) (stage : Bool) (gid ctx : Nat) (recs : List Nat)
    (depth : Nat) : State :=
  let l := s.nextLaunch
  ({ s with nextLaunch := l + 1
            launches := s.launches.put l
              { run := r, node := k, desc := KDesc.empty, args := nodeArgs x n, clusters := if stage then 1 else n.clusters,
                placed := 0, ctxBase := n.ctxBase, ctxStride := n.ctxStride.toNat, prio := nodePrio x n, stage := stage,
                gid := gid, ctx := ctx, records := recs, depth := depth, req := none, loaded := false, dict := [], killed := false } }
    : State).request l 0 none

/-! Stage bins (R346, R360, R363, R366). -/

/-- A launch has not ended: a group of it is unplaced, resident or Saved. -/
def State.launchOpen (s : State) (l : Nat) (x : Launch) : Bool :=
  !x.killed && (decide (x.placed < x.clusters) || s.groups.any (fun p => p.2.launch == l && (p.2.st.resident || p.2.st == .saved)))

/-- The launches of a node that have not ended. -/
def State.openLaunches (s : State) (r k : Nat) : List Launch :=
  (s.launches.filter (fun p => p.2.run == r && p.2.node == k && s.launchOpen p.1 p.2)).map (·.2)

/-- The record count that the journal of a replay gives for the next launch of a run's stage node (R363, R441). -/
def State.replayCount (s : State) (r k ordinal : Nat) : Option (JEntry × Nat) :=
  match s.replay with
  | none => none
  | some l =>
    (l.find? (fun e => e.kind == 7 && numAt e.body 0 4 == r % 2 ^ 32 && numAt e.body 4 2 == k &&
      numAt e.body 8 4 == ordinal % 2 ^ 32)).map (fun e => (e, numAt e.body 12 4))

/-- How many records a bin launches now, and why: 0 full, 1 partial, 2 drain, 3 replayed (R346, R360, R363). -/
def State.binLaunch (s : State) (r k : Nat) (n : Node) (m : NodeSt) : Option (Nat × Nat) :=
  if s.replay.isSome then
    (match s.replayCount r k m.ordinal with
     | some (_, c) => if 1 ≤ c ∧ c ≤ m.bin.length then some (c, 3) else none
     | none => none)
  else if n.count ≤ m.bin.length then some (n.count, 0)
  else
    match m.bin with
    | [] => none
    | o :: _ =>
      if m.counter = 0 then some (m.bin.length, 2)
      else if n.timer ≠ 0 ∧ o.entered + n.timer ≤ s.clock then some (m.bin.length, 1)
      else none

/-- What a replay has still to feed; with nothing left but keys it is over (R441). -/
def feedRest (l : List JEntry) : Option (List JEntry) := if l.all (fun e => e.kind == 3) then none else some l

/-- An input that a replay feeds in the journal's order: a request or a firing (R441). -/
def JEntry.input (e : JEntry) : Bool := e.kind == 1 || e.kind == 2

/-- A new run may take the number: no run has it, or, in a replay, one that has ended (R441; log 95). -/
def State.runFree (s : State) (r : Nat) : Bool :=
  match s.run r with
  | none => true
  | some x => s.replay.isSome && x.st == .ended

/-- The first number from `r` on that a new run may take. -/
def State.freeRun (s : State) (r : Nat) : Nat := (((List.range (s.runs.length + 1)).map (r + ·)).find? s.runFree).getD r

/-- A new run, under the next number; a run that had it has ended, and its launches go with it (R349, R441; log 95). -/
def State.addRun (s : State) (x : Run) : State × Nat :=
  let r := s.nextRun
  let t : State := { s with runs := s.runs.put r x, launches := s.launches.filter (fun p => p.2.run != r) }
  ({ t with nextRun := t.freeRun (r + 1) }, r)

/-- A replay goes on with what is left to feed; when it is over, runs are numbered on from the last (R441). -/
def State.feed (s : State) (l : List JEntry) : State :=
  match feedRest l with
  | some k => { s with replay := some k }
  | none => { s with replay := none, nextRun := s.runs.foldl (fun m p => max m (p.1 + 1)) s.nextRun }

/-- The run that an entry of the journal names (R440). -/
def JEntry.runId (e : JEntry) : Nat := if e.kind = 2 then numAt e.body 0x0C 4 else if e.kind = 7 then numAt e.body 0 4 else 0

/-- A replay starts: runs are numbered from the first that its entries name (R441; log 95). -/
def State.startReplay (s : State) (l : List JEntry) : State :=
  let t := s.feed l
  match argMin JEntry.runId (l.filter (fun e => e.runId != 0)) with
  | some e => if t.replay.isSome then { t with nextRun := t.freeRun e.runId } else t
  | none => t

/-- Launches one stage group of the `c` oldest records (R365, R366), and journals it (R440). -/
def State.stageLaunch (s : State) (r k : Nat) (x : Run) (n : Node) (m : NodeSt) (c cause : Nat) : State :=
  let recs := m.bin.take c
  let gid := m.ordinal % 2 ^ 32
  let used := (s.openLaunches r k).map (·.ctx)
  let ctx := ((List.range n.maxgrp).find? (fun i => !used.contains i)).getD 0
  let s1 := s.note 7 (leBytes 4 r ++ leBytes 2 k ++ leBytes 1 cause ++ leBytes 1 0 ++ leBytes 4 gid ++ leBytes 4 recs.length)
  let s2 : State := match s1.replay, s1.replayCount r k m.ordinal with
    | some l, some (e, _) => if cause = 3 then s1.feed (l.erase e) else s1
    | _, _ => s1
  (s2.modNode r k (fun y => { y with bin := y.bin.drop c, ordinal := y.ordinal + 1 })).newLaunch r k x n true gid ctx
    (recs.map (·.slot)) (recs.foldl (fun d e => max d e.depth) 0)

/-- A run whose bins are tested and whose nodes may complete; a launch of one that is saving or suspended is withdrawn until it goes on
(R278, R346). -/
def RunState.live (t : RunState) : Bool :=
  match t with
  | .running | .saving | .suspended => true
  | .held | .ended => false

/-- TESTS A BIN until no condition holds (R346, R360); `fuel` bounds the launches. -/
def testBin (fuel : Nat) (s : State) (r k : Nat) : State :=
  match fuel with
  | 0 => s
  | f + 1 =>
    match s.run r with
    | none => s
    | some x =>
      match s.node x.graph k with
      | none => s
      | some n =>
        let m := x.nodeSt k
        if n.kind ≠ 2 ∨ !x.st.live ∨ n.maxgrp ≤ (s.openLaunches r k).length then s
        else
          match s.binLaunch r k n m with
          | none => s
          | some (c, cause) => testBin f (s.stageLaunch r k x n m c cause) r k

/-- Tests the bin of a node. -/
def State.testBin (s : State) (r k : Nat) : State :=
  Machine.testBin (((s.run r).map (fun x => (x.nodeSt k).bin.length)).getD 0 + 1) s r k

/-- The bin of a node is to be tested in this clock (R360). -/
def State.markBin (s : State) (r k : Nat) : State :=
  if s.binsDue.contains (r, k) then s else { s with binsDue := s.binsDue ++ [(r, k)] }

/-- The oldest record of a bin has waited for the node's T core clocks (R346, R360). -/
def State.timerDue (s : State) (n : Node) (m : NodeSt) : Bool :=
  n.kind == 2 && n.timer != 0 && (match m.bin with
    | [] => false
    | o :: _ => decide (o.entered + n.timer ≤ s.clock))

/-- The bins whose timers have expired: run and node. -/
def State.expired (s : State) : List (Nat × Nat) :=
  s.runs.flatMap (fun p => (p.2.nodes.filter (fun q => match s.node p.2.graph q.1 with
    | some n => s.timerDue n q.2
    | none => false)).map (fun q => (p.1, q.1)))

/-- THE BIN TESTS of a clock, after its records and completions, in ascending run and node (R360; log 94). -/
def State.testDue (s : State) : State :=
  (sortBy (·.1) (sortBy (·.2) (s.binsDue ++ s.expired))).foldl (fun t p => t.testBin p.1 p.2) { s with binsDue := [] }

/-- Enqueues a node (R359); the answer's second part says that the END node was reached. `fuel` bounds the nesting of
bodies. -/
def enqueueNode (fuel : Nat) (s : State) (r k : Nat) : State × Bool :=
  match s.run r with
  | none => (s, false)
  | some x =>
    match s.graphs.find x.graph with
    | none => (s, false)
    | some gr =>
      match gr.nodes[k]? with
      | none => (s, false)
      | some n =>
        let s1 := s.modNode r k (fun m => { m with enqueued := true })
        match n.kind with
        | 0 => (s1, true)
        | 1 => (s1.newLaunch r k x n false 0 0 [] 0, false)
        | 2 => (s1.markBin r k, false)
        | _ =>
          match fuel with
          | 0 => (s1, false)
          | f + 1 =>
            let body := gr.members (some k)
            let s2 := body.foldl (fun t b => match gr.nodes[b]? with
              | some nb => t.modNode r b (fun m =>
                  { m with counter := nb.npred, enqueued := false, done := false, passes := 0 })
              | none => t) s1
            body.foldl (fun t b => match gr.nodes[b]? with
              | some nb => if nb.npred = 0 then
                  let u := enqueueNode f t.1 r b
                  (u.1, t.2 || u.2) else t
              | none => t) (s2, false)

/-- A run that starts (R359). -/
def startRun (s : State) (r : Nat) : State × Bool :=
  match s.run r with
  | none => (s, false)
  | some x =>
    match s.graphs.find x.graph with
    | none => (s, false)
    | some gr =>
      let nodes := (List.range gr.nodes.length).map (fun k => (k, NodeSt.init ((gr.nodes[k]?).elim 0 (·.npred))))
      let s1 := s.modRun r (fun y => { y with st := .running, nodes := nodes, completed := 0 })
      (gr.members none).foldl (fun t k => match gr.nodes[k]? with
        | some n => if n.npred = 0 then
            let u := enqueueNode 5 t.1 r k
            (u.1, t.2 || u.2) else t
        | none => t) (s1, false)

/-- The clusters of a launch that have Saved groups and are not placed again yet, by the first of their teams. -/
def State.savedClusters (s : State) (l : Nat) : List (Nat × Nat) :=
  (s.teams.filter (fun q => q.2.launch == l && s.groups.any (fun g => g.2.team == q.1 && g.2.st == .saved))).foldl
    (fun m q => if m.any (fun c => c.1 == q.2.cluster) then m else m ++ [(q.2.cluster, q.1)]) []

/-- A suspended run goes on: its saved teams are to be placed again, cluster by cluster, and its withdrawn clusters after them (R278,
R283, R351), and every bin is tested anew (R346). -/
def resumeRun (s : State) (r : Nat) : State :=
  let s0 := s.modRun r (fun x => { x with st := .running, named := 0, firedBy := none })
  let s1 := (((s.run r).elim [] (·.nodes)).map (·.1)).foldl (fun t k => t.markBin r k) s0
  let ls := s1.launches.filter (fun p => p.2.run == r && !p.2.killed)
  let s2 := ls.foldl (fun t p => (s1.savedClusters p.1).foldl (fun u q => u.request p.1 q.1 (some q.2)) t) s1
  let s3 := ls.foldl (fun t p => if p.2.placed < p.2.clusters then t.request p.1 p.2.placed none else t) s2
  match s3.run r with
  | some x => (s3.runReport r x.graph 4 0 0xFFFF x.stream)
  | none => s3

/-- Running, in the sense of R349: it holds its stream and its graph. -/
def RunState.holds (t : RunState) : Bool :=
  match t with
  | .running | .saving => true
  | .held | .suspended | .ended => false

def State.streamBusy (s : State) (st : Nat) : Bool := s.runs.any (fun p => p.2.stream == st && p.2.st.holds)
def State.graphBusy (s : State) (g : Nat) : Bool := s.runs.any (fun p => p.2.graph == g && p.2.st.holds)

/-- Why a stream takes a run. -/
inductive Freed where
  | ended
  | suspendedByFiring (held : Nat)
  | suspended
  | idle
  deriving DecidableEq, Repr

/-- The runs of other streams that hold a graph. -/
def State.holders (s : State) (st g : Nat) : List Nat :=
  (s.runs.filter (fun p => p.2.graph == g && p.2.stream != st && p.2.st.holds)).map (·.1)

/-- The held runs of a free stream whose graph runs elsewhere are passed over until that run has ended (R351). -/
def State.notePassed (s : State) (st : Nat) : State :=
  { s with runs := s.runs.map (fun p => (p.1, if p.2.stream = st ∧ p.2.st = .held then
      { p.2 with passed := p.2.passed ++ (s.holders st p.2.graph).filter (fun r => !p.2.passed.contains r) } else p.2)) }

/-- Every run for which a held run was passed over has ended. -/
def State.notBarred (s : State) (x : Run) : Bool :=
  x.passed.all (fun r => match s.run r with
    | some y => y.st == .ended
    | none => true)

/-- The run a free stream takes (R351). -/
def State.nextRunOf (s : State) (st : Nat) (why : Freed) : Option Nat :=
  let ok := s.runs.filter (fun p => p.2.stream == st && !s.graphBusy p.2.graph)
  let firing : List (Nat × Run) := match why with
    | .suspendedByFiring h => ok.filter (fun p => p.1 == h && p.2.st == .held && p.2.byFiring && s.notBarred p.2)
    | .ended | .suspended | .idle => []
  let named := ok.filter (fun p => p.2.st == .suspended && p.2.named != 0)
  let susp := if why = .ended then ok.filter (fun p => p.2.st == .suspended) else []
  let held := ok.filter (fun p => p.2.st == .held && s.notBarred p.2)
  match firing, argMin (fun p => p.2.named) named, susp, held with
  | p :: _, _, _, _ => some p.1
  | [], some p, _, _ => some p.1
  | [], none, p :: _, _ => some p.1
  | [], none, [], p :: _ => some p.1
  | [], none, [], [] => none

/-- Marks a run ended and reports it (R362): its bins are emptied and its requests withdrawn. -/
def State.closeRun (s : State) (r kind err node : Nat) : State :=
  match s.run r with
  | none => s
  | some x =>
    let s1 := s.modRun r (fun y => { y with
      st := .ended
      nodes := y.nodes.map (fun p => (p.1, { p.2 with bin := [], held := [] })) })
    let mine := (s1.launches.filter (fun p => p.2.run == r)).map (·.1)
    ({ s1 with
       placeQ := s1.placeQ.filter (fun q => !mine.contains q.launch)
       launches := s1.launches.map (fun p => (p.1, if mine.contains p.1 then { p.2 with req := none } else p.2)) }
      : State).runReport r x.graph kind err node x.stream

/-- A free stream takes its next run, and a run that ends at once frees it again. -/
def takeNext (fuel : Nat) (s : State) (st : Nat) (why : Freed) : State :=
  match fuel with
  | 0 => s
  | f + 1 =>
    if s.streamBusy st then s
    else
      let t := s.notePassed st
      match t.nextRunOf st why with
      | none => t
      | some r =>
        match t.run r with
        | none => t
        | some x =>
          if x.st = .suspended then resumeRun t r
          else
            let u := startRun t r
            if u.2 then takeNext f (u.1.closeRun r 0 0 0xFFFF) st .ended else u.1

/-- Every stream with a held run gets its chance: a run whose graph was busy elsewhere may start now (R351). -/
def State.takeAll (s : State) (st : Nat) (why : Freed) : State :=
  let s1 := takeNext (s.runs.length + 1) s st why
  (List.range 64).foldl (fun t k => if t.runs.any (fun p => p.2.stream == k && p.2.st == .held) then
    takeNext (t.runs.length + 1) t k .idle else t) s1

/-- RUN_SUSPEND (R278, R349): a saving run is suspended once none of its groups is resident, and its stream takes the next run. -/
def State.trySuspend (s : State) (r : Nat) : State :=
  match s.run r with
  | none => s
  | some x =>
    let mine := (s.launches.filter (fun p => p.2.run == r)).map (·.1)
    if x.st ≠ .saving ∨ s.groups.any (fun p => mine.contains p.2.launch && p.2.st.resident) then s
    else
      let s1 := s.modRun r (fun y => { y with st := .suspended })
      let s2 : State := { s1 with launches := s1.launches.map (fun p => (p.1, if p.2.run = r then { p.2 with req := none } else p.2)) }
      let why : Freed := match x.firedBy with
        | some h => .suspendedByFiring h
        | none => .suspended
      (s2.runReport r x.graph 3 0 0xFFFF x.stream).takeAll x.stream why

/-- The run whose launch a group belongs to. -/
def State.runOf (s : State) (g : Nat) : Option Nat := (s.launch (s.grp g).launch).map (·.run)

/-- A run ends at END (R362). -/
def State.endRun (s : State) (r : Nat) : State :=
  match s.run r with
  | none => s
  | some x => (s.closeRun r 0 0 0xFFFF).takeAll x.stream (if x.st.holds then .ended else .idle)

/-- A graph error, or a kill by CAP.CTL: the run's groups are killed with cause 0x1B and the run ends (R362, R369). -/
def State.abortRun (s : State) (r kind err node : Nat) : State :=
  match s.run r with
  | none => s
  | some x =>
    if x.st = .ended then s
    else
      let mine := (s.launches.filter (fun p => p.2.run == r && !p.2.killed)).map (·.1)
      let s1 := mine.foldl (fun t l => t.killWith l 0x1B) s
      (s1.closeRun r kind err node).takeAll x.stream (if x.st.holds then .ended else .idle)

/-- A node has completed (R347, R359): each successor is decremented once, in edge order, and the decrement to 0
enqueues it. -/
def State.completeNode (s : State) (r k : Nat) : State :=
  match s.run r with
  | none => s
  | some x =>
    match s.graphs.find x.graph with
    | none => s
    | some gr =>
      match gr.nodes[k]? with
      | none => s
      | some n =>
        let s1 := (s.modNode r k (fun m => { m with done := true })).modRun r (fun y => { y with completed := y.completed + 1 })
        let succs := ((gr.edges.drop n.succ).take n.nsucc)
        let u := succs.foldl (fun t j =>
          match t.1.run r with
          | none => t
          | some y =>
            let c := (y.nodeSt j).counter
            if c = 0 then t
            else
              let t1 := t.1.modNode r j (fun m => { m with counter := c - 1 })
              if c = 1 then
                let w := enqueueNode 5 t1 r j
                (w.1, t.2 || w.2)
              else (t1, t.2)) (s1, false)
        if u.2 then u.1.endRun r else u.1

/-- One decrement by GDEC (R368): 0 decremented, 1 already 0, 2 no such node. -/
def State.decrement (s : State) (r j : Nat) : State × Nat :=
  match s.run r with
  | none => (s, 2)
  | some x =>
    match s.node x.graph j with
    | none => (s, 2)
    | some _ =>
      let c := (x.nodeSt j).counter
      if c = 0 then (s, 1)
      else
        let s1 := s.modNode r j (fun m => { m with counter := c - 1 })
        if c = 1 then
          let u := enqueueNode 5 s1 r j
          (if u.2 then u.1.endRun r else u.1, 0)
        else (s1, 0)

/-- Starts a run of a graph on a stream, or holds it (R351, R368, R369): a run id, or an error code. -/
def State.beginRun (s : State) (graph stream prio : Nat) (arg : Option W64) : State × Except Nat Nat :=
  match s.graphs.find graph with
  | none => (s, .error 1)
  | some _ =>
    let busy := s.streamBusy stream || s.graphBusy graph
    if busy && s.runs.any (fun p => p.2.stream == stream && p.2.st == .held) then (s, .error 2)
    else
      let n := s.addRun { graph := graph, stream := stream, prio := prio, arg := arg, st := .held, nodes := [],
                          completed := 0, byFiring := false, named := 0 }
      if busy then (if s.streamBusy stream then n.1 else n.1.notePassed stream, .ok n.2)
      else
        let u := startRun n.1 n.2
        (if u.2 then u.1.endRun n.2 else u.1, .ok n.2)

end Sys2Proof.Machine
end

