-- ==== Sys2Proof/Machine/Ops.lean ====
section
/-! DEFINITION. The operations that the meanings share: the scalar registers and the pc of the agent in hand, stalls,
taking an exception and returning from one (R62, R92, R270 to R276, R425). -/

namespace Sys2Proof.Machine

/-! The scalar agent. -/

/-- The agent in hand issues scalar words: a live split of a group, or a service core. -/
def State.scalarLive (s : State) : Bool :=
  match s.cur with
  | .scalar g sp => (s.split g sp).live
  | .service _ => true
  | .device | .lane _ _ | .engine _ _ | .halyard _ _ => false

/-- Scalar register `r` of the agent in hand; s0 reads as zero (R62). -/
def State.sreg (s : State) (r : BitVec 6) : W64 :=
  if r = 0 then 0
  else
    match s.cur with
    | .scalar g sp => (s.split g sp).regs.get 0 r.toNat
    | .service k => (s.svc k).regs.get 0 r.toNat
    | .device | .lane _ _ | .engine _ _ | .halyard _ _ => 0

/-- Writes scalar register `r` of the agent in hand; a write to s0 is discarded (R62). -/
def State.setSreg (s : State) (r : BitVec 6) (v : W64) : State :=
  if r = 0 then s
  else
    match s.cur with
    | .scalar g sp => s.modSplit g sp (fun p => { p with regs := p.regs.put r.toNat v })
    | .service k => s.setSvc k { s.svc k with regs := (s.svc k).regs.put r.toNat v }
    | .device | .lane _ _ | .engine _ _ | .halyard _ _ => s

/-- The address of the scalar word in hand. -/
def State.pc (s : State) : W64 :=
  match s.cur with
  | .scalar g sp => (s.split g sp).spc
  | .service k => (s.svc k).pc
  | .device | .lane _ _ | .engine _ _ | .halyard _ _ => 0

/-- The scalar stream goes on at `a`; the split waits for nothing any more. -/
def State.jumpTo (s : State) (a : W64) : State :=
  match s.cur with
  | .scalar g sp => s.modSplit g sp (fun p => { p with spc := a, stall := none })
  | .service k => s.setSvc k { s.svc k with pc := a }
  | .device | .lane _ _ | .engine _ _ | .halyard _ _ => s

/-- The scalar stream goes on at the next word. -/
def State.advance (s : State) : State := s.jumpTo (s.pc + 4)

/-- The instruction in hand does not issue; the split is held and tries again. -/
def State.stallAs (s : State) (w : Stall) : State :=
  match s.cur with
  | .scalar g sp => s.modSplit g sp (fun p => { p with stall := some w })
  | .lane g sp => s.modSplit g sp (fun p => p)
  | .device | .service _ | .engine _ _ | .halyard _ _ => s

/-- An LDS or ATOMS of the split that will write register `r` has not returned (R153). -/
def State.awaited (s : State) (r : BitVec 6) : Bool :=
  match s.cur with
  | .scalar g sp => (s.grp g).acc.any (fun a => a.split == sp && a.dst == r.toNat && match a.op with
      | .lds | .atoms _ => true
      | .load _ | .store | .atom _ _ _ | .lres _ | .scond _ | .accrd _ _ | .accwr _ | .accerm _ | .glean _ | .recput _
      | .sts => false)
  | .device | .service _ | .lane _ _ | .engine _ _ | .halyard _ _ => false

def State.anyAwaited (s : State) (rs : List (BitVec 6)) : Bool := rs.any (fun r => r != 0 && s.awaited r)

/-! Exceptions (R270 to R272, R425). -/

/-- The priority of a cause; 0 is the highest, and the causes that no instruction raises stand last (R270). -/
def causePrio (cause : BitVec 8) : Nat :=
  match cause.toNat with
  | 0x19 => 0
  | 0x12 => 1
  | 0x11 => 2
  | 0x10 => 3
  | 0x14 => 4
  | 0x15 => 5
  | 0x16 => 6
  | 0x17 => 7
  | 0x18 => 8
  | 0x01 => 9
  | 0x02 => 10
  | _ => 11

/-- A FATAL CAUSE of group `g` (R271): its record waits for the end of the clock, when the Capstan reports what the launches raised in
it and kills them (R53, R272). -/
def State.fatal (s : State) (g : Nat) (cause : BitVec 8) (addr mask info : W64) (flags : Nat) : State :=
  let x := s.grp g
  { s with fatals := s.fatals ++ [{ launch := x.launch, group := g, split := flags % 4, prio := causePrio cause, by_ := s.cur,
                                    body := trapRecord addr.toNat mask.toNat info.toNat x.core cause.toNat flags x.slotNo x.gid }] }

/-- An agent that has raised a fatal trap in this clock issues nothing more (R104). -/
def State.struck (s : State) (a : Agent) : Bool := s.fatals.any (fun f => f.by_ == a)

/-- The record of a split that is reported: of its causes in one clock, the first of the highest priority (R272). -/
def State.trapOf (s : State) (g sp : Nat) : Option Dying :=
  argMin (·.prio) (s.fatals.filter (fun f => f.group == g && f.split == sp))

/-- The records to be reported, by core, linear group id and split (R104, R272). -/
def State.trapsDue (s : State) : List Dying :=
  sortBy (fun f => (s.grp f.group).core) (sortBy (fun f => (s.grp f.group).gid) (sortBy (·.split)
    (((s.fatals.map (fun f => (f.group, f.split))).eraseDups).filterMap (fun p => s.trapOf p.1 p.2))))

/-- A launch ends at a fatal trap: it is killed (R53), and its run meets a graph error (R362). -/
def State.endLaunch (s : State) (l : Nat) : State :=
  let t := s.killLaunch l
  match s.launch l with
  | some x => t.abortRun x.run 1 4 x.node
  | none => t

/-- THE END OF A CLOCK in which fatal traps were raised: they are all reported, and their launches end (R53, R272). -/
def State.settleTraps (s : State) : State :=
  let due := s.trapsDue
  ((due.map (·.launch)).eraseDups).foldl State.endLaunch
    (due.foldl (fun t f => t.report 0 none f.body) { s with fatals := [] })

/-- A service core traps (R425): SCAUSE, SEPC and SINFO, and on at STVEC; with STVEC 0 the core halts and the events ring
tells service core 0. -/
def State.serviceTrap (s : State) (k : Nat) (cause : BitVec 8) (info : W64) : State :=
  let c := s.svc k
  let c1 := { c with scause := cause.setWidth 64, sepc := c.pc, sinfo := info }
  if c.stvec = 0 then
    (s.setSvc k { c1 with halted := true }).event 0 cause.toNat k c.pc.toNat
  else s.setSvc k { c1 with pc := c.stvec }

/-- A clause's address with the offset of R273: halfwords from the header in bits 63:56. -/
def clauseAt (addr : W64) (off : Nat) : W64 := BitVec.ofNat 8 off ++ addr.setWidth 56

/-- The clause that issues for a split: a started clause of the lane queue that is not stopped, or the handler queue's
(R59). The Bool says it is the handler's. -/
def Split.issuing (p : Split) : Option (Bool × Running) :=
  match p.run, p.hrun with
  | some r, h =>
    if r.stopped then (match h with
      | some q => if p.inHandler then some (true, q) else none
      | none => none)
    else some (false, r)
  | none, some q => if p.inHandler then some (true, q) else none
  | none, none => none

/-- TAKING A TRAP, for whichever agent is in hand (R270, R271, R375, R425): a group's fatal trap, a service core's trap, or
an engine's cause, which is reported with the command's address and TAG. -/
def State.takeTrap (s : State) (cause : BitVec 8) (mask info : W64) : State :=
  match s.cur with
  | .scalar g sp => s.fatal g cause (s.split g sp).spc mask info sp
  | .lane g sp =>
    match (s.split g sp).issuing with
    | some (_, r) => s.fatal g cause (clauseAt r.addr r.off) mask info sp
    | none => s.fatal g cause 0 mask info sp
  | .service k => s.serviceTrap k cause info
  | .engine c q =>
    match s.queue c q with
    | m :: _ => s.fatal m.group cause m.addr 0 (BitVec.ofNat 64 m.tag) (16 + m.split)
    | [] => s
  | .halyard c x =>
    let h := (s.core c).hal.get HalCtx.reset x
    s.fatal h.owner cause h.pc 0 (BitVec.ofNat 64 x) 16
  | .device => s

/-- The illegal-instruction trap of a scalar word (R111). -/
def State.illegal (s : State) : State := s.takeTrap 0x10 0 0

/-- Raises a user-level trap (R163, R271): fatal while UTVEC is 0, with the flag UNHANDLED, and for a FUT.RD of a handler's clause, with
the flag NESTED; else pending until it is delivered (R276). -/
def State.raiseUser (s : State) (g sp : Nat) (t : UTrap) (nested : Bool) : State :=
  let x := s.grp g
  if nested || x.utvec == 0 then
    s.fatal g t.code t.pc (if t.code = 1 then t.mask else 0) t.info
      (sp + (if x.utvec = 0 then 4 else 0) + (if nested then 8 else 0))
  else s.modSplit g sp (fun p => { p with
    traps := p.traps ++ [{ t with clock := s.clock }]
    stall := if t.code = 2 then some .trap else p.stall })

/-- A stream of the split may issue though traps of it are undelivered: inside a handler, and in the clock in which only the other
stream raised (R273, R276; log 96). -/
def Split.trapsLet (p : Split) (clock : Nat) (own : BitVec 8) : Bool :=
  p.inHandler || p.traps.all (fun t => t.clock == clock && t.code != own)

/-- A handler of the group runs (R276). -/
def Group.handling (x : Group) : Bool := x.liveSplits.any (fun k => (x.split k).inHandler)

/-- The order of delivery within a split: priority, then lowest lane (R276). -/
def UTrap.order (t : UTrap) : Nat := t.code.toNat * 64 + ctzNat 64 t.mask.toNat

/-- TAKING A USER-LEVEL TRAP (R273): the pending trap of `sp` that comes first enters the handler at UTVEC. -/
def State.deliver (s : State) (g sp : Nat) : State :=
  let x := s.grp g
  let p := x.split sp
  match argMin UTrap.order p.traps with
  | none => s
  | some t =>
    s.setSplit g sp { p with
      traps := p.traps.erase t
      utcause := t.code.setWidth 64
      utmask := t.mask
      utpc := t.pc
      utinfo := t.info
      inHandler := true
      retSpc := p.spc
      stall := none
      spc := x.utvec }

/-- RETURNING FROM A USER-LEVEL TRAP (R275): after TRAP at UTPC + 4; after future empty the stopped clause is retried at its
FUT.RD. -/
def State.returnFrom (s : State) (g sp : Nat) : State :=
  s.modSplit g sp (fun p =>
    { p with
      inHandler := false
      stall := if p.traps.isEmpty then none else some .trap
      spc := if p.utcause = 2 then p.utpc + 4 else p.retSpc
      run := if p.utcause = 2 then p.run else p.run.map (fun r => { r with stopped := false }) })

/-! Issue. -/

/-- Issues a scalar word that is legal on every core, when no register it names is awaited. -/
def State.scalarDo (s : State) (regs : List (BitVec 6)) (f : State → State) : Out :=
  if !s.scalarLive then .refused .noAgent
  else if s.anyAwaited regs then .next (s.stallAs .interlock)
  else .next (f s)

/-- Issues a scalar word of compute cores; on a service core it is an illegal instruction (R92). -/
def State.groupDo (s : State) (regs : List (BitVec 6)) (f : Nat → Nat → State → State) : Out :=
  match s.cur with
  | .scalar g sp =>
    if !(s.split g sp).live then .refused .noAgent
    else if s.anyAwaited regs then .next (s.stallAs .interlock)
    else .next (f g sp s)
  | .service _ => .next s.illegal
  | .device | .lane _ _ | .engine _ _ | .halyard _ _ => .refused .noAgent

/-- Issues a supervisor word; on a compute core it is an illegal instruction (R166). -/
def State.serviceDo (s : State) (f : Nat → State → State) : Out :=
  match s.cur with
  | .service k => .next (f k s)
  | .scalar g sp => if (s.split g sp).live then .next s.illegal else .refused .noAgent
  | .device | .lane _ _ | .engine _ _ | .halyard _ _ => .refused .noAgent

/-- Carries out an event of the device; no other agent's turn runs one. -/
def State.eventDo (s : State) (f : State → State) : Out := .next (f s)

/-- A clause that had started before the trap was delivered still issues while the handler runs (R59). -/
def Split.oldRun (p : Split) : Bool :=
  p.inHandler && (match p.run with
    | some r => !r.stopped
    | none => false)

/-- The handler queue is empty (R275). -/
def Split.handlerDone (p : Split) : Bool := p.hqueue.isEmpty && p.hrun.isNone

/-- The split has no lane work enqueued before this point that has yet to issue (R154). Inside a handler the entries of the frozen queue
that have not started cannot move on, so they alone are not awaited (log 9). -/
def Split.drained (p : Split) : Bool :=
  if p.inHandler then p.handlerDone && !p.oldRun else p.queue.isEmpty && p.run.isNone

/-- The group's cluster width. -/
def Group.members (x : Group) : Nat := x.desc.cw * x.desc.ch

def Group.coreOf (x : Group) (rank : Nat) : Nat := coreOfRank x.corner x.desc.cw rank

end Sys2Proof.Machine
end

