-- ==== Sys2Proof/Machine/Translate.lean ====
section
/-! DEFINITION. Translation and its faults: the table walk, the TLBs, the fault records and parking (R221 to R235). -/

namespace Sys2Proof.Machine

/-- What an access needs of its leaf (R197, R87). `egress` marks a path that takes bytes off the device (R435). -/
structure Need where
  r : Bool := false
  w : Bool := false
  x : Bool := false
  egress : Bool := false
  deriving DecidableEq, Repr

/-- The outcome of a translation: a physical address, a fault with its CAUSE (R227), or an uncorrectable error the walker
met (R238). -/
inductive Xlat where
  | ok (pa : Nat)
  | fault (cause : Nat)
  | check (pa : Nat)
  deriving DecidableEq, Repr

/-- The end of a walk (R225). -/
inductive Walk where
  | leaf (slot : Nat) (e : W64)
  | fault (cause : Nat)
  | check (pa : Nat)
  deriving DecidableEq, Repr

def pteV (e : W64) : Bool := e.getLsbD 0
def pteR (e : W64) : Bool := e.getLsbD 1
def pteW (e : W64) : Bool := e.getLsbD 2
def pteX (e : W64) : Bool := e.getLsbD 3
def pteP (e : W64) : Bool := e.getLsbD 4
def pteM (e : W64) : Bool := e.getLsbD 5
def pteS (e : W64) : Bool := e.getLsbD 6
def pteD (e : W64) : Bool := e.getLsbD 8
def pteIsLeaf (e : W64) : Bool := pteR e || pteW e || pteX e
def pteSz (e : W64) : Nat := (e.extractLsb' 12 4).toNat
def ptePfn (e : W64) : Nat := (e.extractLsb' 16 32).toNat

/-- The size in bytes of the page of size code `sz` (R10). -/
def pageBytes (sz : Nat) : Nat := 4096 * 2 ^ sz

/-- Malformed as an entry of level `level` (R224); only for V = 1. -/
def pteMalformed (level : Nat) (e : W64) : Bool :=
  let zeros := (e.extractLsb' 48 8 != 0) || (e.extractLsb' 9 3 != 0)
  if pteIsLeaf e then
    let low := pageBytes (pteSz e) / 65536
    zeros || decide (level < 2) || (level == 2 && decide (pteSz e < 9)) || (level == 3 && decide (pteSz e > 8)) ||
      decide (low > 1 && ptePfn e % low ≠ 0) || decide (hbmEnd < ptePfn e * 65536 + max (pageBytes (pteSz e)) 65536)
  else
    zeros || level == 3 || (e.extractLsb' 4 5 != 0) ||
      decide (hbmEnd < ptePfn e * 65536 + pteSz e * 4096 + 4096)

/-- The index of a level (R221). -/
def walkIndex (level : Nat) (va : W64) : Nat :=
  match level with
  | 0 => (va.extractLsb' 39 17).toNat
  | 1 => (va.extractLsb' 30 9).toNat
  | 2 => (va.extractLsb' 21 9).toNat
  | _ => (va.extractLsb' 12 9).toNat

/-- The walk from a node of level 4 − `left` (R225). -/
def State.walkFrom (s : State) (va : W64) (left node : Nat) : Walk :=
  match left with
  | 0 => .fault 2
  | k + 1 =>
    let level := 3 - k
    let slot := node + 8 * walkIndex level va
    if s.hbmBadIn slot 8 then .check slot
    else
      let e := BitVec.ofNat 64 (s.hbmNat slot 8)
      if !pteV e then .fault 0
      else if pteMalformed level e then .fault 2
      else if pteIsLeaf e then .leaf slot e
      else s.walkFrom va k (ptePfn e * 65536 + pteSz e * 4096)

def State.walk (s : State) (va : W64) : Walk := s.walkFrom va 4 s.troot.toNat

/-- The leaf allows the access (R227). -/
def Need.allows (n : Need) (e : W64) : Bool :=
  (!n.r || pteR e) && (!n.w || pteW e) && (!n.x || pteX e) && (!n.egress || !pteM e)

/-- The physical address through a leaf (R223). -/
def leafPa (e : W64) (va : W64) : Nat := ptePfn e * 65536 + va.toNat % max (pageBytes (pteSz e)) 65536

def TlbEntry.maps (t : TlbEntry) (va : W64) : Bool :=
  va.toNat % 2 ^ 56 / pageBytes t.size == t.base.toNat / pageBytes t.size

/-- The TLB of a core, or of the I/O die (R226). -/
def State.tlbOf (s : State) (tlb : Option Nat) : List TlbEntry :=
  match tlb with
  | some c => (s.core c).tlb
  | none => s.ioTlb

def State.setTlb (s : State) (tlb : Option Nat) (l : List TlbEntry) : State :=
  match tlb with
  | some c => s.modCore c (fun k => { k with tlb := l })
  | none => { s with ioTlb := l }

/-- Fills a TLB entry; at capacity the oldest goes (R226; log 11). -/
def State.tlbFill (s : State) (tlb : Option Nat) (t : TlbEntry) : State :=
  let l := (s.tlbOf tlb).filter (fun u => !(u.base == t.base && u.size == t.size))
  let cap := match tlb with
    | some _ => 2048
    | none => 512
  s.setTlb tlb (if l.length < cap then l ++ [t] else l.tail ++ [t])

/-- Sets A, and D for a write, in the slot a walk read, by an atomic OR (R225). -/
def State.orLeaf (s : State) (slot : Nat) (write : Bool) : State :=
  let old := s.hbmNat slot 8
  let new := old ||| (if write then 0x180 else 0x80)
  if new = old then s else s.hbmPut none slot 8 new

/-- A walk, its permission check and the fill (R225, R226). -/
def State.translateWalk (s : State) (tlb : Option Nat) (va : W64) (n : Need) : State × Xlat :=
  match s.walk va with
  | .fault c => (s, .fault c)
  | .check pa => (s, .check pa)
  | .leaf slot e =>
    if n.allows e then
      let e1 := e ||| (if n.w then 0x180#64 else 0x80#64)
      let base := va.toNat % 2 ^ 56 / pageBytes (pteSz e) * pageBytes (pteSz e)
      ((s.orLeaf slot n.w).tlbFill tlb { base := BitVec.ofNat 64 base, size := pteSz e, leaf := e1, slot := slot },
       .ok (leafPa e va))
    else (s, .fault 1)

/-- TRANSLATION of a virtual address (R221 to R226); bits 63:56 are ignored. -/
def State.translate (s : State) (tlb : Option Nat) (va0 : W64) (n : Need) : State × Xlat :=
  let va : W64 := (va0.setWidth 56).setWidth 64
  match (s.tlbOf tlb).find? (fun t => t.maps va) with
  | none => s.translateWalk tlb va n
  | some t =>
    if !n.allows t.leaf then (s, .fault 1)
    else if n.w && !pteD t.leaf then
      match s.walk va with
      | .fault c => (s, .fault c)
      | .check pa => (s, .check pa)
      | .leaf slot e =>
        if pteW e then
          ((s.orLeaf slot true).tlbFill tlb { t with leaf := t.leaf ||| 0x180#64 }, .ok (leafPa t.leaf va))
        else (s, .fault 1)
    else (s, .ok (leafPa t.leaf va))

/-- Translation with no effect and no fault, for PRF and for observers (R208). -/
def State.peek (s : State) (tlb : Option Nat) (va : W64) (n : Need) : Option Nat :=
  match (s.translate tlb va n).2 with
  | .ok pa => some pa
  | .fault _ | .check _ => none

/-- Removes the entries that map `va` from one TLB (R166). -/
def State.invalidate (s : State) (tlb : Option Nat) (va : W64) : State :=
  s.setTlb tlb ((s.tlbOf tlb).filter (fun t => !t.maps va))

/-- Removes them from every TLB, the I/O die's included (R226). -/
def State.invalidateAll (s : State) (va : W64) : State :=
  (s.cores.foldl (fun t p => t.invalidate (some p.1) va) s).invalidate none va

/-- Removes the entries that map any byte of a page from every TLB (R242). -/
def State.invalidatePage (s : State) (page size : Nat) : State :=
  let keep := fun (l : List TlbEntry) => l.filter (fun t => !(decide (t.base.toNat < page + size) && decide (page < t.base.toNat + pageBytes t.size)))
  { s with cores := s.cores.map (fun p => (p.1, { p.2 with tlb := keep p.2.tlb })), ioTlb := keep s.ioTlb }

/-! Fault records (R229 to R232). -/

/-- A live record: resolved or not, it holds a place of its core's buffer (R230). -/
def FRec.holds (r : FRec) : Bool := r.status != .dead

/-- The records a group holds (R81, R230). -/
def State.recordsOf (s : State) (g : Nat) : List FRec :=
  s.frecs.filter (fun r => r.holds && (match r.owner with
    | .access x _ _ | .fetch x _ _ | .probe x _ | .save x | .restore x => x == g
    | .engine _ _ _ | .halyard _ _ | .remote _ => false))

/-- Room for one more record of group `g` on core `c` (R230). -/
def State.recordRoom (s : State) (g c : Nat) : Bool :=
  decide ((s.recordsOf g).length < 16) && decide ((s.frecs.filter (fun r => r.holds && r.core == c && r.kind != 7)).length < 64)

/-- Adds a record to a fault buffer; it takes its number when it is appended to the queue (R231). -/
def State.addRecord (s : State) (owner : FOwner) (core kind split cause slot tag eng : Nat) (va lanes addr : W64) : State :=
  { s with
    nextId := s.nextId + 1
    frecs := s.frecs ++ [{ id := s.nextId, seq := 0, va := (va.setWidth 56).setWidth 64, lanes := lanes, core := core,
                           kind := kind, split := split, cause := cause, slot := slot, tag := tag, eng := eng, time := 0,
                           owner := owner, status := .buffered, numbered := false, resolved := false, addr := addr, since := s.clock }] }

/-- PARKING (R229, R52): the group leaves its sector's sets, keeps its slot and issues nothing more. -/
def State.park (s : State) (g : Nat) : State :=
  match (s.grp g).st with
  | .active | .pending => (s.leaveSector g).modGrp g (fun x => { x with st := .parked })
  | .unplaced | .parked | .yielding | .saved | .exited | .killed => s

/-- A fault of a fetch parks the group with one record of lane mask 0 (R87, R156); without room for it the fetch waits at translation and
is tried again (R230). -/
def State.parkScalar (s : State) (owner : FOwner) (g sp kind cause : Nat) (va addr : W64) : State :=
  let x := s.grp g
  if s.recordRoom g x.core then (s.addRecord owner x.core kind sp cause x.slotNo 0 0 va 0 addr).park g else s

/-- Becomes pending and ready behind the ready groups (R49, R52). -/
def State.makePending (s : State) (g : Nat) (head : Bool) : State :=
  let x := s.grp g
  (s.modGrp g (fun y => { y with st := .pending, ready := true })).modCore x.core (fun k =>
    let q := k.sectors.get { active := [], pending := [], swaps := [] } x.sector
    let l := q.pending.filter (· != g)
    let new := if head then g :: l
      else l.filter (fun h => (s.grp h).ready) ++ [g] ++ l.filter (fun h => !(s.grp h).ready)
    { k with sectors := k.sectors.put x.sector { q with pending := new } })

/-! Egress (R435). -/

/-- The leaf that a translation of `va` uses: the TLB's, else the walk's (R226). -/
def State.leafOf (s : State) (tlb : Option Nat) (va : W64) : Option W64 :=
  match (s.tlbOf tlb).find? (fun t => t.maps ((va.setWidth 56).setWidth 64)) with
  | some t => some t.leaf
  | none =>
    match s.walk ((va.setWidth 56).setWidth 64) with
    | .leaf _ e => some e
    | .fault _ | .check _ => none

/-- The page of `va` has M = 1, whatever else its leaf allows (R435). -/
def State.marked (s : State) (tlb : Option Nat) (va : W64) : Bool := (s.leafOf tlb va).any pteM

/-- The first address of the page that maps `va`. -/
def State.pageStart (s : State) (va : W64) : Nat :=
  match s.walk ((va.setWidth 56).setWidth 64) with
  | .leaf _ e => va.toNat % 2 ^ 56 / pageBytes (pteSz e) * pageBytes (pteSz e)
  | .fault _ | .check _ => va.toNat % 2 ^ 56

/-- A refused egress is journalled and told to the service (R435, R427, R440): its path, the port or device it was to go to, and the unit
that the events ring names. -/
def State.refusedEgress (s : State) (va : W64) (path dest unit : Nat) : State :=
  (s.note 9 (leBytes 8 (va.toNat % 2 ^ 56) ++ leBytes 1 path ++ leBytes 1 dest ++ leBytes 6 0)).event 3 0 unit (s.pageStart va)

/-- The refusal behind a fault with cause 1, if the page is marked. -/
def State.egressFault (s : State) (tlb : Option Nat) (va : W64) (cause path dest : Nat) : State :=
  if cause = 1 ∧ s.marked tlb va then s.refusedEgress va path dest 0xFFFF else s

/-- The first of `n` bytes from `va` on that lies on a marked page; a page is 4 KiB or more (R10). -/
def firstMarked (fuel : Nat) (s : State) (va : W64) (n : Nat) : Option W64 :=
  match fuel with
  | 0 => none
  | k + 1 =>
    if n = 0 then none
    else if s.marked none va then some va
    else firstMarked k s (va + BitVec.ofNat 64 (4096 - va.toNat % 4096)) (n - (4096 - va.toNat % 4096))

/-- The first of `n` bytes from `va` on that may not leave the device (R435). -/
def State.firstMarked (s : State) (va : W64) (n : Nat) : Option W64 := Sys2Proof.Machine.firstMarked (n / 4096 + 2) s va n

/-- Names a machine check in the journal and raises it in the agent's group (R238). -/
def State.machineCheck (s : State) (g sp : Nat) (pa va : Nat) (addr mask : W64) (lane : Nat) : State :=
  let x := s.grp g
  (s.noteCheck pa va addr.toNat x.core x.slotNo lane).fatal g 0x19 addr mask (BitVec.ofNat 64 pa) sp

end Sys2Proof.Machine
end

