-- ==== Sys2Proof/Decode.lean ====
section
/-! DEFINITION. Decoding of scalar words, lane codes and Halyard words, and after it the encoder, both from the
encoding tables of 04_encodings.md and 18_launch_graphs.md. Where the opcode table gives several rows one word, the
decoder gives the row that stands for the word (`Instr.wordRow`), and the step picks the row (log 6). -/

namespace Sys2Proof

/-- Why bits are no instruction (R111). -/
inductive DecodeError where
  /-- OP 0x00. -/
  | zeroWord
  /-- OP 0x3F. -/
  | onesWord
  /-- A major opcode, or a lane or Halyard opcode, that no table assigns. -/
  | unassigned (op : Nat)
  /-- FN beyond the lists of R93. -/
  | badFn (op fn : Nat)
  /-- SUB beyond the lists of R94. -/
  | badSub (op sub : Nat)
  /-- A must-be-zero field that is not zero. -/
  | nonzeroField (op : Nat)
  /-- Too few bytes. -/
  | short
  deriving DecidableEq, Repr

/-- `n` bits of `x` from bit `lo` up. -/
abbrev field {w : Nat} (x : BitVec w) (lo n : Nat) : BitVec n := x.extractLsb' lo n

/-- Accepts `i` when the must-be-zero bits are zero. -/
def zeroOr (op : Nat) (ok : Bool) (i : Instr) : Except DecodeError Instr :=
  if ok then .ok i else .error (.nonzeroField op)

/-- ALU-R (R93, R137). -/
def decodeAlu (w : W32) : Except DecodeError Instr :=
  let d := field w 20 6; let a := field w 14 6; let b := field w 8 6
  match (field w 0 8).toNat with
  | 0x00 => .ok (.add d a b)
  | 0x01 => .ok (.sub d a b)
  | 0x02 => .ok (.mul d a b)
  | 0x03 => .ok (.mulh d a b)
  | 0x04 => .ok (.mulhw d a b)
  | 0x05 => .ok (.div d a b)
  | 0x06 => .ok (.divw d a b)
  | 0x07 => .ok (.rem d a b)
  | 0x08 => .ok (.remw d a b)
  | 0x09 => .ok (.and d a b)
  | 0x0A => .ok (.or d a b)
  | 0x0B => .ok (.xor d a b)
  | 0x0C => .ok (.andn d a b)
  | 0x0D => .ok (.shl d a b)
  | 0x0E => .ok (.shr d a b)
  | 0x0F => .ok (.sar d a b)
  | 0x10 => .ok (.rot d a b)
  | 0x11 => .ok (.min d a b)
  | 0x12 => .ok (.max d a b)
  | 0x13 => .ok (.minw d a b)
  | 0x14 => .ok (.maxw d a b)
  | 0x15 => zeroOr 1 (b == 0) (.clz d a)
  | 0x16 => zeroOr 1 (b == 0) (.ctz d a)
  | 0x17 => zeroOr 1 (b == 0) (.popc d a)
  | 0x18 => .ok (.seq d a b)
  | 0x19 => .ok (.sne d a b)
  | 0x1A => .ok (.slt d a b)
  | 0x1B => .ok (.sltw d a b)
  | 0x1C => .ok (.sge d a b)
  | 0x1D => .ok (.sgew d a b)
  | fn => .error (.badFn 1 fn)

/-- WAITC, EXEC, MXFER and ATOMS (R93). -/
def decodeFn (w : W32) : Except DecodeError Instr :=
  let d := field w 20 6; let a := field w 14 6; let b := field w 8 6
  match (field w 26 6).toNat, (field w 0 8).toNat with
  | 0x23, 0 => zeroOr 0x23 (d == 0 && b == 0) (.waitcGld a)
  | 0x23, 1 => zeroOr 0x23 (d == 0 && b == 0) (.waitcGst a)
  | 0x23, 2 => zeroOr 0x23 (d == 0 && b == 0) (.waitcSpd a)
  | 0x23, 3 => zeroOr 0x23 (d == 0 && b == 0) (.waitcGln a)
  | 0x23, 4 => zeroOr 0x23 (d == 0 && b == 0) (.waitcEng a)
  | 0x23, 5 => zeroOr 0x23 (d == 0 && b == 0) (.waitcRem a)
  | 0x24, 0 => zeroOr 0x24 (d == 0 && b == 0) (.execSet a)
  | 0x24, 1 => zeroOr 0x24 (a == 0 && b == 0) (.execGet d)
  | 0x24, 2 => zeroOr 0x24 (d == 0 && b == 0) (.execAnd a)
  | 0x24, 3 => zeroOr 0x24 (d == 0 && b == 0) (.execAndn a)
  | 0x24, 4 => zeroOr 0x24 (d == 0 && b == 0) (.execOr a)
  | 0x24, 5 => zeroOr 0x24 (d == 0 && b == 0) (.execNot a)
  | 0x24, 6 => zeroOr 0x24 (d == 0 && a == 0 && b == 0) .execAll
  | 0x25, 0 => zeroOr 0x25 (b == 0) (.msav d a)
  | 0x25, 1 => zeroOr 0x25 (b == 0) (.mset d a)
  | 0x25, 2 => zeroOr 0x25 (b == 0) (.mcnt d a)
  | 0x25, 3 => zeroOr 0x25 (b == 0) (.mffs d a)
  | 0x2A, 0 => .ok (.atomsAdd d a b)
  | 0x2A, 1 => .ok (.atomsAnd d a b)
  | 0x2A, 2 => .ok (.atomsOr d a b)
  | 0x2A, 3 => .ok (.atomsXchg d a b)
  | 0x2A, 4 => .ok (.atomsCas d a b)
  | 0x2A, 5 => .ok (.atomsMin d a b)
  | 0x2A, 6 => .ok (.atomsMax d a b)
  | op, fn => .error (.badFn op fn)

/-- The SE fields (R90). -/
def seFields (w : W32) : SeOps :=
  { a := field w 20 6, b := field w 14 6, g := field w 9 5, acq := field w 8 1 == 1, rel := field w 7 1 == 1,
    scope := field w 4 3 }

/-- The engine families 0x30, 0x31, 0x35, 0x36 and 0x37 (R94). -/
def decodeEngine (w : W32) : Except DecodeError Instr :=
  let o := seFields w
  match (field w 26 6).toNat, (field w 0 4).toNat with
  | 0x30, 0 => .ok (.copy o)
  | 0x30, 1 => .ok (.copyLbl o)
  | 0x30, 2 => .ok (.copyScl o)
  | 0x30, 3 => .ok (.fill o)
  | 0x30, 4 => .ok (.put o)
  | 0x30, 5 => .ok (.get o)
  | 0x30, 6 => .ok (.signal o)
  | 0x31, 0 => .ok (.mma o)
  | 0x31, 1 => .ok (.mmaz o)
  | 0x31, 2 => .ok (.mma2 o)
  | 0x31, 3 => .ok (.mma2z o)
  | 0x31, 4 => .ok (.relld o)
  | 0x31, 5 => zeroOr 0x31 (o.b == 0) (.tokToM o)
  | 0x31, 6 => zeroOr 0x31 (o.b == 0) (.accz o)
  | 0x31, 7 => .ok (.acclblStore o)
  | 0x31, 8 => zeroOr 0x31 (o.b == 0) (.tfset o)
  | 0x31, 9 => .ok (.tfsum o)
  | 0x35, 0 => .ok (.wbind o)
  | 0x35, 1 => .ok (.wstrip o)
  | 0x35, 2 => .ok (.wpart o)
  | 0x35, 3 => .ok (.wdraw o)
  | 0x35, 4 => .ok (.waccept o)
  | 0x35, 5 => .ok (.wcommit o)
  | 0x36, 0 => zeroOr 0x36 (o.b == 0) (.kvsplice o)
  | 0x36, 1 => zeroOr 0x36 (o.b == 0) (.pfxlk o)
  | 0x36, 2 => zeroOr 0x36 (o.b == 0) (.pfxins o)
  | 0x36, 3 => zeroOr 0x36 (o.b == 0) (.pin o)
  | 0x36, 4 => zeroOr 0x36 (o.b == 0) (.unpin o)
  | 0x37, 0 => .ok (.rsload o)
  | 0x37, 1 => .ok (.gldesc o)
  | 0x37, 2 => zeroOr 0x37 (o.a == 0 && o.b == 0) (.glinv o)
  | 0x37, 3 => .ok (.thresh o)
  | op, sub => .error (.badSub op sub)

/-- The barrier, Halyard, graph, system and supervisor families, which take no guard (R94). -/
def decodeSe (w : W32) : Except DecodeError Instr :=
  let a := field w 20 6; let b := field w 14 6; let c := field w 4 3
  let unguarded := field w 9 5 == 31
  let plain := unguarded && field w 7 2 == 0
  let bare := plain && c == 0
  match (field w 26 6).toNat, (field w 0 4).toNat with
  | 0x32, 0 => zeroOr 0x32 plain (.barInit a b c)
  | 0x32, 1 => zeroOr 0x32 plain (.barExpect a b c)
  | 0x32, 2 => zeroOr 0x32 (plain && b == 0) (.barArrive a c)
  | 0x32, 3 => zeroOr 0x32 plain (.barWait a b c)
  | 0x32, 4 => zeroOr 0x32 plain (.barTest a b c)
  | 0x33, 0 => zeroOr 0x33 bare (.hstart a b)
  | 0x33, 1 => zeroOr 0x33 (bare && b == 0) (.hstop a)
  | 0x33, 2 => zeroOr 0x33 bare (.hpermit a b)
  | 0x33, 3 => zeroOr 0x33 bare (.gset a b)
  | 0x33, 4 => zeroOr 0x33 (bare && b == 0) (.gclr a)
  | 0x34, 0 => zeroOr 0x34 bare (.gcond a b)
  | 0x34, 1 => zeroOr 0x34 bare (.glaunch a b)
  | 0x34, 2 => zeroOr 0x34 bare (.gdec a b)
  | 0x38, 0 =>
    if unguarded && a == 0 && b == 0 then
      match (field w 7 2).toNat with
      | 1 => .ok (.fenceRel c)
      | 2 => .ok (.fenceAcq c)
      | 3 => .ok (.fenceAcqRel c)
      | _ => .error (.nonzeroField 0x38)
    else .error (.nonzeroField 0x38)
  | 0x38, 1 => zeroOr 0x38 (bare && b == 0) (.trap a)
  | 0x38, 2 => zeroOr 0x38 (bare && a == 0 && b == 0) .utret
  | 0x38, 3 => zeroOr 0x38 (bare && a == 0 && b == 0) .yield
  | 0x38, 4 => zeroOr 0x38 bare (.yieldp a b)
  | 0x38, 5 => zeroOr 0x38 bare (.svc a b)
  | 0x38, 6 => zeroOr 0x38 (bare && a == 0 && b == 0) .nop
  | 0x39, 0 => zeroOr 0x39 bare (.pteW a b)
  | 0x39, 1 => zeroOr 0x39 bare (.tlbi a b)
  | 0x39, 2 => zeroOr 0x39 bare (.fqPop a b)
  | 0x39, 3 => zeroOr 0x39 (bare && b == 0) (.fqRes a)
  | 0x39, 4 => zeroOr 0x39 (bare && b == 0) (.fqKill a)
  | 0x39, 5 => zeroOr 0x39 bare (.capCtlLoad a b)
  | 0x39, 6 => zeroOr 0x39 bare (.sailW a b)
  | 0x39, 7 => zeroOr 0x39 bare (.coreCtlHalt a b)
  | op, sub => .error (.badSub op sub)

/-- A scalar word (R92). -/
def decodeScalar (w : W32) : Except DecodeError Instr :=
  let d := field w 20 6; let a := field w 14 6; let b := field w 8 6
  let i14 := field w 0 14; let i20 := field w 0 20; let o26 := field w 0 26
  match (field w 26 6).toNat with
  | 0x00 => .error .zeroWord
  | 0x01 => decodeAlu w
  | 0x02 => .ok (.addi d a i14)
  | 0x03 => .ok (.andi d a i14)
  | 0x04 => .ok (.ori d a i14)
  | 0x05 => .ok (.xori d a i14)
  | 0x06 => .ok (.slti d a i14)
  | 0x07 => .ok (.sltiw d a i14)
  | 0x08 =>
    if field w 6 6 == 0 then
      match (field w 12 2).toNat with
      | 0 => .ok (.shli d a (field w 0 6))
      | 1 => .ok (.shri d a (field w 0 6))
      | 2 => .ok (.sari d a (field w 0 6))
      | _ => .ok (.roti d a (field w 0 6))
    else .error (.nonzeroField 8)
  | 0x09 => .ok (.limm d i20)
  | 0x0A => .ok (.lpc d i20)
  | 0x0B => .ok (.lcaddr d i20)
  | 0x10 => .ok (.beq d a i14)
  | 0x11 => .ok (.bne d a i14)
  | 0x12 => .ok (.blt d a i14)
  | 0x13 => .ok (.bge d a i14)
  | 0x14 => .ok (.bltw d a i14)
  | 0x15 => .ok (.bgew d a i14)
  | 0x16 => .ok (.jmp o26)
  | 0x17 => .ok (.call o26)
  | 0x18 => zeroOr 0x18 (d == 0 && field w 0 14 == 0) (.jr a)
  | 0x19 => .ok (.brx (field w 16 10) (field w 0 16))
  | 0x1A => zeroOr 0x1A (o26 == 0) .join
  | 0x1B => zeroOr 0x1B (o26 == 0) .exit
  | 0x1C => .ok (.bexz o26)
  | 0x1D => .ok (.bexnz o26)
  | 0x20 => zeroOr 0x20 (d == 0) (.lrun i20)
  | 0x21 => .ok (.lrunr d i20)
  | 0x22 => zeroOr 0x22 (d == 0 && field w 12 8 == 0) (.waitf (field w 0 12))
  | 0x23 => decodeFn w
  | 0x24 => decodeFn w
  | 0x25 => decodeFn w
  | 0x26 => zeroOr 0x26 (field w 0 4 == 0) (.sget d (field w 10 10) (field w 4 6))
  | 0x27 => zeroOr 0x27 (field w 0 4 == 0) (.vset d (field w 10 10) (field w 4 6))
  | 0x28 => .ok (.lds d a i14)
  | 0x29 => .ok (.sts d a i14)
  | 0x2A => decodeFn w
  | 0x2B =>
    match (field w 12 2).toNat with
    | 0 => zeroOr 0x2B (a == 0) (.csrr d (field w 0 12))
    | 1 => .ok (.csrw d a (field w 0 12))
    | 2 => .ok (.csrs d a (field w 0 12))
    | _ => .ok (.csrc d a (field w 0 12))
  | 0x30 => decodeEngine w
  | 0x31 => decodeEngine w
  | 0x32 => decodeSe w
  | 0x33 => decodeSe w
  | 0x34 => decodeSe w
  | 0x35 => decodeEngine w
  | 0x36 => decodeEngine w
  | 0x37 => decodeEngine w
  | 0x38 => decodeSe w
  | 0x39 => decodeSe w
  | 0x3F => .error .onesWord
  | op => .error (.unassigned op)

/-- The lane opcodes of L64 and L96 words (R107). Noncomputable only because the compiler numbers no more than 245
constructors with fields; the kernel evaluates it (log 8). -/
noncomputable def laneCtor (op : Nat) : Option (LaneOps → Instr) :=
  match op with
  | 0x001 => some .laneNop
  | 0x002 => some .laneMov
  | 0x003 => some .laneAdd
  | 0x004 => some .laneSub
  | 0x005 => some .laneMul
  | 0x006 => some .laneMulh
  | 0x007 => some .laneMulhw
  | 0x008 => some .laneMin
  | 0x009 => some .laneMax
  | 0x00A => some .laneMinw
  | 0x00B => some .laneMaxw
  | 0x00C => some .laneAnd
  | 0x00D => some .laneOr
  | 0x00E => some .laneXor
  | 0x00F => some .laneAndn
  | 0x010 => some .laneNot
  | 0x011 => some .laneShl
  | 0x012 => some .laneShr
  | 0x013 => some .laneSar
  | 0x014 => some .laneRot
  | 0x015 => some .laneClz
  | 0x016 => some .laneCtz
  | 0x017 => some .lanePopc
  | 0x018 => some .laneAbs
  | 0x019 => some .laneNeg
  | 0x01A => some .fadd
  | 0x01B => some .fsub
  | 0x01C => some .fmul
  | 0x01D => some .fmin
  | 0x01E => some .fmax
  | 0x01F => some .fabs
  | 0x020 => some .fneg
  | 0x021 => some .cmpEq
  | 0x022 => some .cmpNe
  | 0x023 => some .cmpLt
  | 0x024 => some .cmpLe
  | 0x025 => some .cmpLtw
  | 0x026 => some .cmpLew
  | 0x027 => some .fcmpEq
  | 0x028 => some .fcmpNe
  | 0x029 => some .fcmpLt
  | 0x02A => some .fcmpLe
  | 0x02B => some .fcmpUn
  | 0x02C => some .fcls
  | 0x02D => some .lid
  | 0x02E => some .vshape
  | 0x040 => some .mad
  | 0x041 => some .fma
  | 0x042 => some .sel
  | 0x043 => some .bfe
  | 0x044 => some .bfi
  | 0x045 => some .cvt
  | 0x046 => some .frnd
  | 0x047 => some .fscale
  | 0x048 => some .hadd2
  | 0x049 => some .hmul2
  | 0x04A => some .hfma2
  | 0x04B => some .dqE4
  | 0x04C => some .dqE5
  | 0x04D => some .dqE3m2
  | 0x04E => some .dqE2m3
  | 0x04F => some .dqFp4
  | 0x050 => some .dqI8
  | 0x051 => some .dqI4
  | 0x052 => some .dqPs8
  | 0x053 => some .dqPs4
  | 0x080 => some .frcp
  | 0x081 => some .frsq
  | 0x082 => some .fsqrt
  | 0x083 => some .flog2
  | 0x084 => some .fexp2
  | 0x085 => some .ftanh
  | 0x0C0 => some .shfl
  | 0x0C1 => some .vote
  | 0x0C2 => some .red
  | 0x0C3 => some .scan
  | 0x0C4 => some .vtos
  | 0x0C5 => some .xpr
  | 0x0C6 => some .rng
  | 0x100 => some .ldG
  | 0x101 => some .stG
  | 0x102 => some .ldS
  | 0x103 => some .stS
  | 0x104 => some .ldC
  | 0x105 => some .stC
  | 0x106 => some .atomG
  | 0x107 => some .atomS
  | 0x108 => some .atomC
  | 0x109 => some .lres
  | 0x10A => some .scond
  | 0x10B => some .futRd
  | 0x10C => some .futWr
  | 0x10D => some .stag
  | 0x10E => some .stagW
  | 0x10F => some .prf
  | 0x110 => some .recput
  | 0x180 => some .accrd
  | 0x181 => some .accwr
  | 0x182 => some .accerm
  | 0x183 => some .glean
  | 0x1C0 => some .rsAdd
  | 0x1C1 => some .rsSub
  | 0x1C2 => some .rsMul
  | 0x1C3 => some .rsDiv
  | 0x1C4 => some .rsNeg
  | 0x1C5 => some .rsRcp
  | 0x1C6 => some .rsUni
  | 0x1C7 => some .rsIsc
  | 0x1C8 => some .rsHas
  | 0x1C9 => some .rsEq
  | 0x1CA => some .rsFromf
  | 0x1CB => some .rsLo
  | 0x1CC => some .rsHi
  | 0x1CD => some .rsWid
  | 0x1CE => some .rsPack
  | 0x1CF => some .rsUnp
  | _ => none

/-- The short opcodes of L32 words (R99). -/
def shortCtor (op : Nat) : Option (L32Ops → Instr) :=
  match op with
  | 0x01 => some .laneNopL32
  | 0x02 => some .laneMovL32
  | 0x03 => some .laneAddL32
  | 0x04 => some .laneSubL32
  | 0x05 => some .laneMulL32
  | 0x06 => some .laneMulhL32
  | 0x07 => some .laneMulhwL32
  | 0x08 => some .laneMinL32
  | 0x09 => some .laneMaxL32
  | 0x0A => some .laneMinwL32
  | 0x0B => some .laneMaxwL32
  | 0x0C => some .laneAndL32
  | 0x0D => some .laneOrL32
  | 0x0E => some .laneXorL32
  | 0x0F => some .laneAndnL32
  | 0x10 => some .laneNotL32
  | 0x11 => some .laneShlL32
  | 0x12 => some .laneShrL32
  | 0x13 => some .laneSarL32
  | 0x14 => some .laneRotL32
  | 0x15 => some .laneClzL32
  | 0x16 => some .laneCtzL32
  | 0x17 => some .lanePopcL32
  | 0x18 => some .laneAbsL32
  | 0x19 => some .laneNegL32
  | 0x1A => some .faddL32
  | 0x1B => some .fsubL32
  | 0x1C => some .fmulL32
  | 0x1D => some .fminL32
  | 0x1E => some .fmaxL32
  | 0x1F => some .fabsL32
  | 0x20 => some .fnegL32
  | 0x21 => some .cmpEqL32
  | 0x22 => some .cmpNeL32
  | 0x23 => some .cmpLtL32
  | 0x24 => some .cmpLeL32
  | 0x25 => some .cmpLtwL32
  | 0x26 => some .cmpLewL32
  | 0x27 => some .fcmpEqL32
  | 0x28 => some .fcmpNeL32
  | 0x29 => some .fcmpLtL32
  | 0x2A => some .fcmpLeL32
  | 0x2B => some .fcmpUnL32
  | 0x2C => some .fclsL32
  | 0x2D => some .lidL32
  | 0x2E => some .vshapeL32
  | _ => none

/-- A lane code of one of the four lengths (R95). -/
inductive LaneCode where
  | l16 (w : BitVec 16)
  | l32 (w : BitVec 32)
  | l64 (w : BitVec 64)
  | l96 (w : BitVec 96)
  deriving DecidableEq, Repr

/-- The length in bytes. -/
def LaneCode.bytes (c : LaneCode) : Nat :=
  match c with
  | .l16 _ => 2
  | .l32 _ => 4
  | .l64 _ => 8
  | .l96 _ => 12

/-- The fields of the low 64 bits of an L64 or L96 word (R96). -/
def laneFields (w : BitVec 64) (lit : Option W32) : LaneOps :=
  { mod := field w 58 6, fl := field w 56 2, mask := field w 52 4, c := field w 42 10, b := field w 32 10,
    a := field w 22 10, d := field w 12 10, lit := lit }

/-- The fields of an L32 word (R99). -/
def shortFields (w : BitVec 32) : L32Ops :=
  { msel := field w 29 3, b := field w 22 7, a := field w 15 7, d := field w 8 7 }

/-- The instruction of a lane code (R95 to R100). -/
noncomputable def decodeLane (c : LaneCode) : Except DecodeError Instr :=
  match c with
  | .l16 w => if field w 2 10 == 0 then .ok (.laneNopL16 (field w 12 4)) else .ok (.dictionaryCode (field w 12 4) (field w 2 10))
  | .l32 w =>
    match shortCtor (field w 2 6).toNat with
    | some k => .ok (k (shortFields w))
    | none => .error (.unassigned (field w 2 6).toNat)
  | .l64 w =>
    match laneCtor (field w 2 10).toNat with
    | some k => .ok (k (laneFields w none))
    | none => .error (.unassigned (field w 2 10).toNat)
  | .l96 w =>
    match laneCtor (field w 2 10).toNat with
    | some k => .ok (k (laneFields (field w 0 64) (some (field w 64 32))))
    | none => .error (.unassigned (field w 2 10).toNat)

/-- The little-endian number of the first `n` bytes; unlisted bytes read as 0. -/
def bytesNat (bs : List Byte) (n : Nat) : Nat :=
  match n with
  | 0 => 0
  | k + 1 => (bs.headD 0).toNat + 256 * bytesNat bs.tail k

/-- The lane code at the head of some bytes, its length read from bits 1:0 of the first halfword (R95). -/
def laneCodeOf (bs : List Byte) : LaneCode :=
  match (bs.headD 0).toNat % 4 with
  | 0 => .l16 (BitVec.ofNat 16 (bytesNat bs 2))
  | 1 => .l32 (BitVec.ofNat 32 (bytesNat bs 4))
  | 2 => .l64 (BitVec.ofNat 64 (bytesNat bs 8))
  | _ => .l96 (BitVec.ofNat 96 (bytesNat bs 12))

/-- A Halyard word (R375, R376). -/
def decodeHalyard (w : W64) : Except DecodeError Instr :=
  let o : HlOps := { d := field w 56 4, a := field w 52 4, b := field w 48 4, x := field w 40 8, y := field w 32 8,
                     imm := field w 0 32 }
  match (field w 60 4).toNat with
  | 1 => .ok (.hlSet o)
  | 2 => .ok (.hlLoop o)
  | 3 => .ok (.hlNext o)
  | 4 => .ok (.hlStr o)
  | 5 => .ok (.hlEmit o)
  | 6 => if field w 32 1 == 0 then .ok (.hlGuard o) else .ok (.hlGuardRes o)
  | 7 => if field w 33 2 == 0 then .ok (.hlBarExpect o) else if field w 33 2 == 1 then .ok (.hlBarArrive o)
         else .error (.badSub 7 (field w 33 2).toNat)
  | 8 => .ok (.hlEnd o)
  | op => .error (.unassigned op)

/-- The instruction of a word of the opcode table: 16 bits are a dictionary code; 32 bits are a scalar word where they
decode as one and else an L32 word, since the two streams are told apart only by where they are fetched (R109, R110); more are an L64 or
L96 code where their length code says so (R95), and else a Halyard word (R372). -/
noncomputable def decodeTableWord (nbits w : Nat) : Option Instr :=
  if nbits ≤ 16 then (decodeLane (.l16 (BitVec.ofNat 16 w))).toOption
  else if nbits ≤ 32 then
    match decodeScalar (BitVec.ofNat 32 w) with
    | .ok i => some i
    | .error _ => if w % 4 = 1 then (decodeLane (.l32 (BitVec.ofNat 32 w))).toOption else none
  else if 2 ≤ w % 4 then (decodeLane (laneCodeOf (List.map (fun k => BitVec.ofNat 8 (w / 256 ^ k)) (List.range 12)))).toOption
  else (decodeHalyard (BitVec.ofNat 64 w)).toOption

/-! The encoder, from the same tables. -/

/-- An SR word. -/
def encSr (op : BitVec 6) (d a b : BitVec 6) (fn : BitVec 8) : W32 := op ++ d ++ a ++ b ++ fn
/-- An SI or SB word. -/
def encSi (op : BitVec 6) (d a : BitVec 6) (i : BitVec 14) : W32 := op ++ d ++ a ++ i
/-- An SU or SL word. -/
def encSu (op : BitVec 6) (d : BitVec 6) (i : BitVec 20) : W32 := op ++ d ++ i
/-- An SJ word. -/
def encSj (op : BitVec 6) (o : BitVec 26) : W32 := op ++ o
/-- A CSR word (R157). -/
def encCsr (d a : BitVec 6) (k : BitVec 2) (n : BitVec 12) : W32 := 0x2B#6 ++ d ++ a ++ k ++ n
/-- An SE word. -/
def encSe (op : BitVec 6) (o : SeOps) (sub : BitVec 4) : W32 :=
  op ++ o.a ++ o.b ++ o.g ++ BitVec.ofBool o.acq ++ BitVec.ofBool o.rel ++ o.scope ++ sub
/-- An SE word with G 31 and no ordering. -/
def encBare (op : BitVec 6) (a b : BitVec 6) (c : BitVec 3) (sub : BitVec 4) : W32 :=
  op ++ a ++ b ++ 31#5 ++ 0#2 ++ c ++ sub

/-- The scalar word of a row that has one. -/
def encodeScalar (i : Instr) : Option W32 :=
  match i with
  | .add d a b => some (encSr 1 d a b 0x00)
  | .sub d a b => some (encSr 1 d a b 0x01)
  | .mul d a b => some (encSr 1 d a b 0x02)
  | .mulh d a b => some (encSr 1 d a b 0x03)
  | .mulhw d a b => some (encSr 1 d a b 0x04)
  | .div d a b => some (encSr 1 d a b 0x05)
  | .divw d a b => some (encSr 1 d a b 0x06)
  | .rem d a b => some (encSr 1 d a b 0x07)
  | .remw d a b => some (encSr 1 d a b 0x08)
  | .and d a b => some (encSr 1 d a b 0x09)
  | .or d a b => some (encSr 1 d a b 0x0A)
  | .xor d a b => some (encSr 1 d a b 0x0B)
  | .andn d a b => some (encSr 1 d a b 0x0C)
  | .shl d a b => some (encSr 1 d a b 0x0D)
  | .shr d a b => some (encSr 1 d a b 0x0E)
  | .sar d a b => some (encSr 1 d a b 0x0F)
  | .rot d a b => some (encSr 1 d a b 0x10)
  | .min d a b => some (encSr 1 d a b 0x11)
  | .max d a b => some (encSr 1 d a b 0x12)
  | .minw d a b => some (encSr 1 d a b 0x13)
  | .maxw d a b => some (encSr 1 d a b 0x14)
  | .clz d a => some (encSr 1 d a 0 0x15)
  | .ctz d a => some (encSr 1 d a 0 0x16)
  | .popc d a => some (encSr 1 d a 0 0x17)
  | .seq d a b => some (encSr 1 d a b 0x18)
  | .sne d a b => some (encSr 1 d a b 0x19)
  | .slt d a b => some (encSr 1 d a b 0x1A)
  | .sltw d a b => some (encSr 1 d a b 0x1B)
  | .sge d a b => some (encSr 1 d a b 0x1C)
  | .sgew d a b => some (encSr 1 d a b 0x1D)
  | .addi d a i => some (encSi 0x02 d a i)
  | .andi d a i => some (encSi 0x03 d a i)
  | .ori d a i => some (encSi 0x04 d a i)
  | .xori d a i => some (encSi 0x05 d a i)
  | .slti d a i => some (encSi 0x06 d a i)
  | .sltiw d a i => some (encSi 0x07 d a i)
  | .shli d a n => some (encSi 0x08 d a (0#2 ++ 0#6 ++ n))
  | .shri d a n => some (encSi 0x08 d a (1#2 ++ 0#6 ++ n))
  | .sari d a n => some (encSi 0x08 d a (2#2 ++ 0#6 ++ n))
  | .roti d a n => some (encSi 0x08 d a (3#2 ++ 0#6 ++ n))
  | .limm d i => some (encSu 0x09 d i)
  | .lpc d i => some (encSu 0x0A d i)
  | .lcaddr d i => some (encSu 0x0B d i)
  | .beq a b o => some (encSi 0x10 a b o)
  | .bne a b o => some (encSi 0x11 a b o)
  | .blt a b o => some (encSi 0x12 a b o)
  | .bge a b o => some (encSi 0x13 a b o)
  | .bltw a b o => some (encSi 0x14 a b o)
  | .bgew a b o => some (encSi 0x15 a b o)
  | .jmp o => some (encSj 0x16 o)
  | .call o => some (encSj 0x17 o)
  | .jr a => some (encSr 0x18 0 a 0 0)
  | .brx v t => some (0x19#6 ++ v ++ t)
  | .join => some (encSj 0x1A 0)
  | .exit => some (encSj 0x1B 0)
  | .bexz o => some (encSj 0x1C o)
  | .bexnz o => some (encSj 0x1D o)
  | .lrun o => some (encSu 0x20 0 o)
  | .lrunr a o => some (encSu 0x21 a o)
  | .waitf f => some (encSu 0x22 0 (0#8 ++ f))
  | .waitcGld a => some (encSr 0x23 0 a 0 0)
  | .waitcGst a => some (encSr 0x23 0 a 0 1)
  | .waitcSpd a => some (encSr 0x23 0 a 0 2)
  | .waitcGln a => some (encSr 0x23 0 a 0 3)
  | .waitcEng a => some (encSr 0x23 0 a 0 4)
  | .waitcRem a => some (encSr 0x23 0 a 0 5)
  | .execSet a => some (encSr 0x24 0 a 0 0)
  | .execGet d => some (encSr 0x24 d 0 0 1)
  | .execAnd a => some (encSr 0x24 0 a 0 2)
  | .execAndn a => some (encSr 0x24 0 a 0 3)
  | .execOr a => some (encSr 0x24 0 a 0 4)
  | .execNot a => some (encSr 0x24 0 a 0 5)
  | .execAll => some (encSr 0x24 0 0 0 6)
  | .msav d a => some (encSr 0x25 d a 0 0)
  | .mset d a => some (encSr 0x25 d a 0 1)
  | .mcnt d a => some (encSr 0x25 d a 0 2)
  | .mffs d a => some (encSr 0x25 d a 0 3)
  | .sget d v l => some (0x26#6 ++ d ++ v ++ l ++ 0#4)
  | .vset d v l => some (0x27#6 ++ d ++ v ++ l ++ 0#4)
  | .lds d a i => some (encSi 0x28 d a i)
  | .sts d a i => some (encSi 0x29 d a i)
  | .atomsAdd d a b => some (encSr 0x2A d a b 0)
  | .atomsAnd d a b => some (encSr 0x2A d a b 1)
  | .atomsOr d a b => some (encSr 0x2A d a b 2)
  | .atomsXchg d a b => some (encSr 0x2A d a b 3)
  | .atomsCas d a b => some (encSr 0x2A d a b 4)
  | .atomsMin d a b => some (encSr 0x2A d a b 5)
  | .atomsMax d a b => some (encSr 0x2A d a b 6)
  | .csrr d n => some (encCsr d 0 0 n)
  | .csrw d a n => some (encCsr d a 1 n)
  | .csrs d a n => some (encCsr d a 2 n)
  | .csrc d a n => some (encCsr d a 3 n)
  | .fpctlWrite k d a => some (encCsr d a k 0x020)
  | .fpstatRead d => some (encCsr d 0 0 0x021)
  | .fpstatWrite k d a => some (encCsr d a k 0x021)
  | .registerWrite k d a n => some (encCsr d a k n)
  | .trootWrite k d a => some (encCsr d a k 0x810)
  | .fqbaseWrite k d a => some (encCsr d a k 0x811)
  | .ringsWrite k d a => some (encCsr d a k 0x812)
  | .pfxbaseWrite k d a => some (encCsr d a k 0x813)
  | .wpdataWrite k d a => some (encCsr d a k 0x815)
  | .barInit a b c => some (encBare 0x32 a b c 0)
  | .barExpect a b c => some (encBare 0x32 a b c 1)
  | .barArrive a c => some (encBare 0x32 a 0 c 2)
  | .barWait a b c => some (encBare 0x32 a b c 3)
  | .barTest a b c => some (encBare 0x32 a b c 4)
  | .hstart a b => some (encBare 0x33 a b 0 0)
  | .hstop a => some (encBare 0x33 a 0 0 1)
  | .hpermit a b => some (encBare 0x33 a b 0 2)
  | .gset a b => some (encBare 0x33 a b 0 3)
  | .gclr a => some (encBare 0x33 a 0 0 4)
  | .gcond a b => some (encBare 0x34 a b 0 0)
  | .glaunch a b => some (encBare 0x34 a b 0 1)
  | .gdec a b => some (encBare 0x34 a b 0 2)
  | .pteW a b => some (encBare 0x39 a b 0 0)
  | .tlbi a b => some (encBare 0x39 a b 0 1)
  | .fqPop a b => some (encBare 0x39 a b 0 2)
  | .fqRes a => some (encBare 0x39 a 0 0 3)
  | .fqKill a => some (encBare 0x39 a 0 0 4)
  | .capCtlLoad a b => some (encBare 0x39 a b 0 5)
  | .sailW a b => some (encBare 0x39 a b 0 6)
  | .coreCtlHalt a b => some (encBare 0x39 a b 0 7)
  | .capCtlUnload a b => some (encBare 0x39 a b 0 5)
  | .capCtlPlan a b => some (encBare 0x39 a b 0 5)
  | .capCtlStart a b => some (encBare 0x39 a b 0 5)
  | .capCtlPreempt a b => some (encBare 0x39 a b 0 5)
  | .capCtlKill a b => some (encBare 0x39 a b 0 5)
  | .capCtlStatus a b => some (encBare 0x39 a b 0 5)
  | .capCtlResume a b => some (encBare 0x39 a b 0 5)
  | .coreCtlResume a b => some (encBare 0x39 a b 0 7)
  | .coreCtlReset a b => some (encBare 0x39 a b 0 7)
  | .fenceAcq c => some (encSe 0x38 { a := 0, b := 0, g := 31, acq := true, rel := false, scope := c } 0)
  | .fenceRel c => some (encSe 0x38 { a := 0, b := 0, g := 31, acq := false, rel := true, scope := c } 0)
  | .fenceAcqRel c => some (encSe 0x38 { a := 0, b := 0, g := 31, acq := true, rel := true, scope := c } 0)
  | .trap a => some (encBare 0x38 a 0 0 1)
  | .utret => some (encBare 0x38 0 0 0 2)
  | .yield => some (encBare 0x38 0 0 0 3)
  | .yieldp a b => some (encBare 0x38 a b 0 4)
  | .svc a b => some (encBare 0x38 a b 0 5)
  | .nop => some (encBare 0x38 0 0 0 6)
  | .copy o => some (encSe 0x30 o 0)
  | .copyLbl o => some (encSe 0x30 o 1)
  | .copyScl o => some (encSe 0x30 o 2)
  | .fill o => some (encSe 0x30 o 3)
  | .put o => some (encSe 0x30 o 4)
  | .get o => some (encSe 0x30 o 5)
  | .signal o => some (encSe 0x30 o 6)
  | .mma o => some (encSe 0x31 o 0)
  | .mmaz o => some (encSe 0x31 o 1)
  | .mma2 o => some (encSe 0x31 o 2)
  | .mma2z o => some (encSe 0x31 o 3)
  | .relld o => some (encSe 0x31 o 4)
  | .tokToM o => some (encSe 0x31 o 5)
  | .accz o => some (encSe 0x31 o 6)
  | .acclblStore o => some (encSe 0x31 o 7)
  | .tfset o => some (encSe 0x31 o 8)
  | .tfsum o => some (encSe 0x31 o 9)
  | .wbind o => some (encSe 0x35 o 0)
  | .wstrip o => some (encSe 0x35 o 1)
  | .wpart o => some (encSe 0x35 o 2)
  | .wdraw o => some (encSe 0x35 o 3)
  | .waccept o => some (encSe 0x35 o 4)
  | .wcommit o => some (encSe 0x35 o 5)
  | .kvsplice o => some (encSe 0x36 o 0)
  | .pfxlk o => some (encSe 0x36 o 1)
  | .pfxins o => some (encSe 0x36 o 2)
  | .pin o => some (encSe 0x36 o 3)
  | .unpin o => some (encSe 0x36 o 4)
  | .rsload o => some (encSe 0x37 o 0)
  | .gldesc o => some (encSe 0x37 o 1)
  | .glinv o => some (encSe 0x37 o 2)
  | .thresh o => some (encSe 0x37 o 3)
  | .tokToV o => some (encSe 0x31 o 5)
  | .acclblLoad o => some (encSe 0x31 o 7)
  | _ => none

/-- The lane opcode and fields of a row that is an L64 or L96 word. -/
def laneOf (i : Instr) : Option (BitVec 10 × LaneOps) :=
  match i with
  | .laneNop o => some (0x001, o)
  | .laneMov o => some (0x002, o)
  | .laneAdd o => some (0x003, o)
  | .laneSub o => some (0x004, o)
  | .laneMul o => some (0x005, o)
  | .laneMulh o => some (0x006, o)
  | .laneMulhw o => some (0x007, o)
  | .laneMin o => some (0x008, o)
  | .laneMax o => some (0x009, o)
  | .laneMinw o => some (0x00A, o)
  | .laneMaxw o => some (0x00B, o)
  | .laneAnd o => some (0x00C, o)
  | .laneOr o => some (0x00D, o)
  | .laneXor o => some (0x00E, o)
  | .laneAndn o => some (0x00F, o)
  | .laneNot o => some (0x010, o)
  | .laneShl o => some (0x011, o)
  | .laneShr o => some (0x012, o)
  | .laneSar o => some (0x013, o)
  | .laneRot o => some (0x014, o)
  | .laneClz o => some (0x015, o)
  | .laneCtz o => some (0x016, o)
  | .lanePopc o => some (0x017, o)
  | .laneAbs o => some (0x018, o)
  | .laneNeg o => some (0x019, o)
  | .fadd o => some (0x01A, o)
  | .fsub o => some (0x01B, o)
  | .fmul o => some (0x01C, o)
  | .fmin o => some (0x01D, o)
  | .fmax o => some (0x01E, o)
  | .fabs o => some (0x01F, o)
  | .fneg o => some (0x020, o)
  | .cmpEq o => some (0x021, o)
  | .cmpNe o => some (0x022, o)
  | .cmpLt o => some (0x023, o)
  | .cmpLe o => some (0x024, o)
  | .cmpLtw o => some (0x025, o)
  | .cmpLew o => some (0x026, o)
  | .fcmpEq o => some (0x027, o)
  | .fcmpNe o => some (0x028, o)
  | .fcmpLt o => some (0x029, o)
  | .fcmpLe o => some (0x02A, o)
  | .fcmpUn o => some (0x02B, o)
  | .fcls o => some (0x02C, o)
  | .lid o => some (0x02D, o)
  | .vshape o => some (0x02E, o)
  | .mad o => some (0x040, o)
  | .fma o => some (0x041, o)
  | .sel o => some (0x042, o)
  | .bfe o => some (0x043, o)
  | .bfi o => some (0x044, o)
  | .cvt o => some (0x045, o)
  | .frnd o => some (0x046, o)
  | .fscale o => some (0x047, o)
  | .hadd2 o => some (0x048, o)
  | .hmul2 o => some (0x049, o)
  | .hfma2 o => some (0x04A, o)
  | .dqE4 o => some (0x04B, o)
  | .dqE5 o => some (0x04C, o)
  | .dqE3m2 o => some (0x04D, o)
  | .dqE2m3 o => some (0x04E, o)
  | .dqFp4 o => some (0x04F, o)
  | .dqI8 o => some (0x050, o)
  | .dqI4 o => some (0x051, o)
  | .dqPs8 o => some (0x052, o)
  | .dqPs4 o => some (0x053, o)
  | .frcp o => some (0x080, o)
  | .frsq o => some (0x081, o)
  | .fsqrt o => some (0x082, o)
  | .flog2 o => some (0x083, o)
  | .fexp2 o => some (0x084, o)
  | .ftanh o => some (0x085, o)
  | .shfl o => some (0x0C0, o)
  | .vote o => some (0x0C1, o)
  | .red o => some (0x0C2, o)
  | .scan o => some (0x0C3, o)
  | .vtos o => some (0x0C4, o)
  | .xpr o => some (0x0C5, o)
  | .rng o => some (0x0C6, o)
  | .ldG o => some (0x100, o)
  | .stG o => some (0x101, o)
  | .ldS o => some (0x102, o)
  | .stS o => some (0x103, o)
  | .ldC o => some (0x104, o)
  | .stC o => some (0x105, o)
  | .atomG o => some (0x106, o)
  | .atomS o => some (0x107, o)
  | .atomC o => some (0x108, o)
  | .lres o => some (0x109, o)
  | .scond o => some (0x10A, o)
  | .futRd o => some (0x10B, o)
  | .futWr o => some (0x10C, o)
  | .stag o => some (0x10D, o)
  | .stagW o => some (0x10E, o)
  | .prf o => some (0x10F, o)
  | .recput o => some (0x110, o)
  | .accrd o => some (0x180, o)
  | .accwr o => some (0x181, o)
  | .accerm o => some (0x182, o)
  | .glean o => some (0x183, o)
  | .rsAdd o => some (0x1C0, o)
  | .rsSub o => some (0x1C1, o)
  | .rsMul o => some (0x1C2, o)
  | .rsDiv o => some (0x1C3, o)
  | .rsNeg o => some (0x1C4, o)
  | .rsRcp o => some (0x1C5, o)
  | .rsUni o => some (0x1C6, o)
  | .rsIsc o => some (0x1C7, o)
  | .rsHas o => some (0x1C8, o)
  | .rsEq o => some (0x1C9, o)
  | .rsFromf o => some (0x1CA, o)
  | .rsLo o => some (0x1CB, o)
  | .rsHi o => some (0x1CC, o)
  | .rsWid o => some (0x1CD, o)
  | .rsPack o => some (0x1CE, o)
  | .rsUnp o => some (0x1CF, o)
  | _ => none

/-- The short opcode and fields of a row that is an L32 word. -/
def shortOf (i : Instr) : Option (BitVec 6 × L32Ops) :=
  match i with
  | .laneNopL32 o => some (0x01, o)
  | .laneMovL32 o => some (0x02, o)
  | .laneAddL32 o => some (0x03, o)
  | .laneSubL32 o => some (0x04, o)
  | .laneMulL32 o => some (0x05, o)
  | .laneMulhL32 o => some (0x06, o)
  | .laneMulhwL32 o => some (0x07, o)
  | .laneMinL32 o => some (0x08, o)
  | .laneMaxL32 o => some (0x09, o)
  | .laneMinwL32 o => some (0x0A, o)
  | .laneMaxwL32 o => some (0x0B, o)
  | .laneAndL32 o => some (0x0C, o)
  | .laneOrL32 o => some (0x0D, o)
  | .laneXorL32 o => some (0x0E, o)
  | .laneAndnL32 o => some (0x0F, o)
  | .laneNotL32 o => some (0x10, o)
  | .laneShlL32 o => some (0x11, o)
  | .laneShrL32 o => some (0x12, o)
  | .laneSarL32 o => some (0x13, o)
  | .laneRotL32 o => some (0x14, o)
  | .laneClzL32 o => some (0x15, o)
  | .laneCtzL32 o => some (0x16, o)
  | .lanePopcL32 o => some (0x17, o)
  | .laneAbsL32 o => some (0x18, o)
  | .laneNegL32 o => some (0x19, o)
  | .faddL32 o => some (0x1A, o)
  | .fsubL32 o => some (0x1B, o)
  | .fmulL32 o => some (0x1C, o)
  | .fminL32 o => some (0x1D, o)
  | .fmaxL32 o => some (0x1E, o)
  | .fabsL32 o => some (0x1F, o)
  | .fnegL32 o => some (0x20, o)
  | .cmpEqL32 o => some (0x21, o)
  | .cmpNeL32 o => some (0x22, o)
  | .cmpLtL32 o => some (0x23, o)
  | .cmpLeL32 o => some (0x24, o)
  | .cmpLtwL32 o => some (0x25, o)
  | .cmpLewL32 o => some (0x26, o)
  | .fcmpEqL32 o => some (0x27, o)
  | .fcmpNeL32 o => some (0x28, o)
  | .fcmpLtL32 o => some (0x29, o)
  | .fcmpLeL32 o => some (0x2A, o)
  | .fcmpUnL32 o => some (0x2B, o)
  | .fclsL32 o => some (0x2C, o)
  | .lidL32 o => some (0x2D, o)
  | .vshapeL32 o => some (0x2E, o)
  | _ => none

/-- The low 64 bits of an L64 or L96 word (R96); `code` is the length code. -/
def encLane (op : BitVec 10) (o : LaneOps) (code : BitVec 2) : BitVec 64 :=
  o.mod ++ o.fl ++ o.mask ++ o.c ++ o.b ++ o.a ++ o.d ++ op ++ code

/-- An L32 word (R99). -/
def encShort (op : BitVec 6) (o : L32Ops) : BitVec 32 :=
  o.msel ++ o.b ++ o.a ++ o.d ++ op ++ 1#2

/-- The lane code of a row that has one. -/
def encodeLane (i : Instr) : Option LaneCode :=
  match i with
  | .laneNopL16 reb => some (.l16 (reb ++ 0#10 ++ 0#2))
  | .dictionaryCode reb idx => some (.l16 (reb ++ idx ++ 0#2))
  | i =>
    match laneOf i with
    | some (op, o) =>
      match o.lit with
      | none => some (.l64 (encLane op o 2#2))
      | some lit => some (.l96 (lit ++ encLane op o 3#2))
    | none =>
      match shortOf i with
      | some (op, o) => some (.l32 (encShort op o))
      | none => none

/-- A Halyard word (R375). -/
def encHl (op : BitVec 4) (o : HlOps) : W64 := op ++ o.d ++ o.a ++ o.b ++ o.x ++ o.y ++ o.imm

/-- The Halyard word of a row that has one. -/
def encodeHalyard (i : Instr) : Option W64 :=
  match i with
  | .hlSet o => some (encHl 1 o)
  | .hlLoop o => some (encHl 2 o)
  | .hlNext o => some (encHl 3 o)
  | .hlStr o => some (encHl 4 o)
  | .hlEmit o => some (encHl 5 o)
  | .hlGuard o => some (encHl 6 o)
  | .hlGuardRes o => some (encHl 6 o)
  | .hlBarExpect o => some (encHl 7 o)
  | .hlBarArrive o => some (encHl 7 o)
  | .hlEnd o => some (encHl 8 o)
  | _ => none

/-- The CSR row of a word by OPN. -/
def csrRow (k : BitVec 2) (d a : BitVec 6) (n : BitVec 12) : Instr :=
  match k.toNat with
  | 0 => .csrr d n
  | 1 => .csrw d a n
  | 2 => .csrs d a n
  | _ => .csrc d a n

/-- The row that the decoder gives for a row's word: the row itself, but for rows that share their word with another
(CAP.CTL, CORE.CTL, TOK, ACCLBL and the register rows of CSR; log 6). -/
def Instr.wordRow (i : Instr) : Instr :=
  match i with
  | .capCtlUnload a b => .capCtlLoad a b
  | .capCtlPlan a b => .capCtlLoad a b
  | .capCtlStart a b => .capCtlLoad a b
  | .capCtlPreempt a b => .capCtlLoad a b
  | .capCtlKill a b => .capCtlLoad a b
  | .capCtlStatus a b => .capCtlLoad a b
  | .capCtlResume a b => .capCtlLoad a b
  | .coreCtlResume a b => .coreCtlHalt a b
  | .coreCtlReset a b => .coreCtlHalt a b
  | .tokToV o => .tokToM o
  | .acclblLoad o => .acclblStore o
  | .fpctlWrite k d a => csrRow k d a 0x020
  | .fpstatRead d => .csrr d 0x021
  | .fpstatWrite k d a => csrRow k d a 0x021
  | .registerWrite k d a n => csrRow k d a n
  | .trootWrite k d a => csrRow k d a 0x810
  | .fqbaseWrite k d a => csrRow k d a 0x811
  | .ringsWrite k d a => csrRow k d a 0x812
  | .pfxbaseWrite k d a => csrRow k d a 0x813
  | .wpdataWrite k d a => csrRow k d a 0x815
  | i => i

end Sys2Proof
end

