-- ==== Sys2Proof/WellFormed.lean ====
section
/-! DEFINITION. Which instructions are well-formed: the legality of the fields that an instruction word itself shows,
before any state is looked at (R90, R94, R97 to R101, R108, and each entry). -/

namespace Sys2Proof

/-- What a 10-bit field of a lane word names. -/
inductive Use where
  /-- Not used: 1021 (R97). -/
  | unused
  /-- A lane-register source of so many consecutive names. -/
  | src (n : Nat)
  /-- A lane-register destination. -/
  | dst (n : Nat)
  /-- A destination whose value at issue is read too. -/
  | both (n : Nat)
  /-- Field D read as a source (R193, R332). -/
  | data (n : Nat)
  /-- A mask register that is read, or written. -/
  | maskR
  | maskW
  /-- The ordering field of R194, with what it allows: ACQ, REL, and scope `.flt`. -/
  | ord (acq rel flt : Bool)
  /-- GLEAN's ordering field: 0 or `.acq.dev` (R342). -/
  | ordGlean
  /-- An accumulator tile (R332). -/
  | tile
  deriving DecidableEq, Repr

/-- How many names a use reads. -/
def Use.reads (u : Use) : Nat :=
  match u with
  | .src n | .data n | .both n => n
  | .unused | .dst _ | .maskR | .maskW | .ord _ _ _ | .ordGlean | .tile => 0

/-- How many names a use writes. -/
def Use.writes (u : Use) : Nat :=
  match u with
  | .dst n | .both n => n
  | .unused | .src _ | .data _ | .maskR | .maskW | .ord _ _ _ | .ordGlean | .tile => 0

/-- How a lane opcode uses its fields under one MOD. -/
structure Uses where
  d : Use
  a : Use
  b : Use
  c : Use
  deriving DecidableEq, Repr

/-- A row of the table below, when its MOD is one that the entry assigns (R108). -/
def usesIf (ok : Bool) (d a b c : Use) : Option Uses := if ok then some { d := d, a := a, b := b, c := c } else none

/-- The bytes of a store or load size, as names (R199). -/
def szNames (sz : Nat) : Nat :=
  match sz with
  | 5 => 2
  | 6 => 4
  | _ => 1

/-- The sizes a store has (R199). -/
def szStore (sz : Nat) : Bool := sz == 0 || sz == 2 || sz == 4 || sz == 5 || sz == 6

/-- Elements of a dq source word (R182). -/
def dqCount (op : Nat) : Nat :=
  match op with
  | 0x4D | 0x4E => 5
  | 0x4F | 0x51 | 0x53 => 8
  | _ => 4

/-- CV values whose row is marked "rounds" (R180). -/
def cvtRounds (cv : Nat) : Bool := (decide (3 ≤ cv) && decide (cv ≤ 12)) || cv == 19 || cv == 20 || cv == 23 || cv == 24 || cv == 25

/-- Field uses by lane opcode and MOD; none where the opcode or the MOD value is not assigned (R107, R108, R168). -/
def laneUses (op mod : Nat) : Option Uses :=
  let w := if mod = 32 then 2 else 1
  let plain := mod == 0
  let wide := plain || mod == 32
  let rnd := decide (mod ≤ 4)
  match op with
  | 0x001 => usesIf plain .unused .unused .unused .unused
  | 0x002 => usesIf wide (.dst w) (.src w) .unused .unused
  | 0x003 | 0x004 => usesIf (wide || mod == 1 || mod == 2) (.dst w) (.src w) (.src w) .unused
  | 0x005 | 0x006 | 0x007 | 0x008 | 0x009 | 0x00A | 0x00B => usesIf plain (.dst 1) (.src 1) (.src 1) .unused
  | 0x00C | 0x00D | 0x00E | 0x00F => usesIf wide (.dst w) (.src w) (.src w) .unused
  | 0x010 => usesIf wide (.dst w) (.src w) .unused .unused
  | 0x011 | 0x012 | 0x013 | 0x014 => usesIf wide (.dst w) (.src w) (.src 1) .unused
  | 0x015 | 0x016 | 0x017 => usesIf plain (.dst 1) (.src 1) .unused .unused
  | 0x018 | 0x019 => usesIf (decide (mod ≤ 1)) (.dst 1) (.src 1) .unused .unused
  | 0x01A | 0x01B | 0x01C => usesIf rnd (.dst 1) (.src 1) (.src 1) .unused
  | 0x01D | 0x01E => usesIf plain (.dst 1) (.src 1) (.src 1) .unused
  | 0x01F | 0x020 => usesIf plain (.dst 1) (.src 1) .unused .unused
  | 0x021 | 0x022 | 0x023 | 0x024 | 0x025 | 0x026 | 0x027 | 0x028 | 0x029 | 0x02A | 0x02B | 0x02C =>
    usesIf plain .maskW (.src 1) (.src 1) .unused
  | 0x02D => usesIf plain (.dst 1) .unused .unused .unused
  | 0x02E => usesIf plain (.dst 1) (.src 1) .unused .unused
  | 0x040 | 0x044 => usesIf plain (.dst 1) (.src 1) (.src 1) (.src 1)
  | 0x041 => usesIf rnd (.dst 1) (.src 1) (.src 1) (.src 1)
  | 0x042 => usesIf plain (.dst 1) (.src 1) (.src 1) .maskR
  | 0x043 => usesIf (decide (mod ≤ 1)) (.dst 1) (.src 1) (.src 1) .unused
  | 0x045 =>
    usesIf (decide (mod / 2 ≤ 25) && (mod % 2 == 0 || cvtRounds (mod / 2))) (.dst 1) (.src 1)
      (if mod / 2 = 19 ∨ mod / 2 = 20 then .src 1 else .unused) .unused
  | 0x046 => usesIf rnd (.dst 1) (.src 1) .unused .unused
  | 0x047 => usesIf rnd (.dst 1) (.src 1) (.src 1) .unused
  | 0x048 | 0x049 => usesIf (decide (mod < 16) && decide (mod % 8 ≤ 4)) (.dst 1) (.src 1) (.src 1) .unused
  | 0x04A => usesIf (decide (mod < 16) && decide (mod % 8 ≤ 4)) (.dst 1) (.src 1) (.src 1) (.src 1)
  | 0x04B | 0x04C | 0x04D | 0x04E | 0x04F | 0x050 | 0x051 | 0x052 | 0x053 =>
    usesIf (decide (mod < 32) && decide (mod / 4 < dqCount op)) (.dst 1) (.src 1) (.src 1) .unused
  | 0x080 | 0x081 | 0x083 | 0x084 | 0x085 => usesIf plain (.dst 1) (.src 1) .unused .unused
  | 0x082 => usesIf rnd (.dst 1) (.src 1) .unused .unused
  | 0x0C0 => usesIf (decide (mod < 8)) (.dst 1) (.src 1) (.src 1) .unused
  | 0x0C1 => usesIf (decide (mod < 4)) (.dst (if mod = 0 then 2 else 1)) .maskR .unused .unused
  | 0x0C2 =>
    if mod = 11 ∨ mod = 12 then usesIf true (.dst 2) (.src 1) (.src 1) .unused
    else usesIf (decide (mod ≤ 10)) (.dst 1) (.src 1) .unused .unused
  | 0x0C3 => usesIf (decide (mod < 32) && decide (mod % 16 ≤ 10)) (.dst 1) (.src 1) .unused .unused
  | 0x0C4 => usesIf plain (.dst 1) (.src 1) (.src 1) .unused
  | 0x0C5 => usesIf true (.dst 1) (.src 1) (.src 1) (.src 1)
  | 0x0C6 => usesIf plain (.dst 4) (.src 2) (.src 2) (.src 1)
  | 0x100 => usesIf (decide (mod < 7)) (.dst (szNames mod)) (.src 2) (.src 1) (.ord true false true)
  | 0x102 | 0x104 => usesIf (decide (mod < 7)) (.dst (szNames mod)) (.src 1) (.src 1) (.ord true false false)
  | 0x101 => usesIf (szStore mod) (.data (szNames mod)) (.src 2) (.src 1) (.ord false true true)
  | 0x103 | 0x105 => usesIf (szStore mod) (.data (szNames mod)) (.src 1) (.src 1) (.ord false true false)
  | 0x106 | 0x107 | 0x108 =>
    let n := if mod % 2 = 1 then 2 else 1
    let nr := mod / 2 % 2 == 1
    let aop := mod / 4
    usesIf (decide (aop ≤ 10) && !(aop == 10 && mod % 2 == 1) && !(aop == 5 && nr))
      (if nr then .unused else .both n) (.src (if op = 0x106 then 2 else 1)) (.src 1) (.src n)
  | 0x109 => usesIf (decide (mod < 2)) (.dst (mod + 1)) (.src 2) (.src 1) (.ord true false false)
  | 0x10A => usesIf (decide (mod < 2)) (.both (mod + 1)) (.src 2) (.src 1) (.ord false true false)
  | 0x10B => usesIf (decide (mod < 3)) (.dst 2) (.src (if mod = 0 then 2 else 1)) (.src 1) (.ord true false (mod == 0))
  | 0x10C => usesIf (decide (mod < 3)) (.data 2) (.src (if mod = 0 then 2 else 1)) (.src 1) (.ord false true (mod == 0))
  | 0x10D => usesIf plain (.dst 1) (.src 2) .unused .unused
  | 0x10E => usesIf (decide (mod < 2)) (.dst 1) (if mod = 0 then .src 2 else .unused) (.src 1) .unused
  | 0x10F => usesIf plain .unused (.src 2) (.src 1) (.ord false false false)
  | 0x110 => usesIf plain (.dst 1) (.src 4) (.src 1) .unused
  | 0x180 => usesIf (decide (mod < 2)) (.dst 1) .tile (.src 1) .unused
  | 0x181 => usesIf plain (.data 1) .tile (.src 1) .unused
  | 0x182 => usesIf plain (.dst 1) .tile (.src 1) .unused
  | 0x183 => usesIf true (.dst 1) (.src 1) (.src 1) .ordGlean
  | 0x1C0 | 0x1C1 | 0x1C2 | 0x1C3 | 0x1C6 | 0x1C7 => usesIf (decide (mod < 4)) (.dst 2) (.src 2) (.src 2) .unused
  | 0x1C4 | 0x1C5 => usesIf (decide (mod < 4)) (.dst 2) (.src 2) .unused .unused
  | 0x1C8 => usesIf (decide (mod < 4)) (.dst 1) (.src 2) (.src 1) .unused
  | 0x1C9 => usesIf (decide (mod < 4)) (.dst 1) (.src 2) (.src 2) .unused
  | 0x1CA | 0x1CB | 0x1CC | 0x1CD => usesIf (decide (mod < 4)) (.dst 1) (.src 1) .unused .unused
  | 0x1CE => usesIf (decide (mod < 4)) (.dst 1) (.src 2) .unused .unused
  | 0x1CF => usesIf (decide (mod < 4)) (.dst 2) (.src 1) .unused .unused
  | _ => none

/-- The first name of `n` consecutive lane registers (R63, R193). -/
def namesOk (n f : Nat) : Bool := decide (f + n ≤ 640) && f % n == 0

/-- ORD (R194): must-be-zero bits, scope codes, and a nonzero scope only with ordering. -/
def ordOk (v : Nat) (acq rel flt : Bool) : Bool :=
  let sc := v % 8
  let a := v / 8 % 2 == 1
  let r := v / 16 % 2 == 1
  decide (v < 32) && decide (sc ≤ 4) && (sc == 0 || a || r) && (acq || !a) && (rel || !r) && (flt || sc != 4)

/-- A field is legal for its use; `lit` says that the word is L96 and the field is B (R97). -/
def fieldOk (u : Use) (f : BitVec 10) (lit : Bool) : Bool :=
  match u with
  | .unused => f == 1021
  | .src n => namesOk n f.toNat || (decide (1020 ≤ f.toNat) && (f != 1023 || lit))
  | .dst n => namesOk n f.toNat
  | .both n => namesOk n f.toNat
  | .data n => namesOk n f.toNat || (decide (1020 ≤ f.toNat) && f != 1023)
  | .maskR => decide (f.toNat < 16)
  | .maskW => decide (f.toNat < 16)
  | .ord a r t => ordOk f.toNat a r t
  | .ordGlean => f == 0 || f == 11
  | .tile => decide (f.toNat < 8)

/-- The 28 bits of XPR's tokens (R101). -/
def xprBits (o : LaneOps) : BitVec 28 := o.mod ++ ((o.lit.getD 0).setWidth 22 : BitVec 22)

/-- Token k of an XPR, k from 1 to 7. -/
def xprToken (o : LaneOps) (k : Nat) : Nat := (xprBits o).toNat / 2 ^ (28 - 4 * k) % 16

/-- XPR's field E. -/
def xprE (o : LaneOps) : BitVec 10 := field (o.lit.getD 0) 22 10

/-- Operands that a token takes, and how many values it leaves more or less. -/
def tokenArgs (t : Nat) : Nat :=
  if t ≤ 4 then 0 else if t = 8 then 3 else if t = 5 ∨ t = 6 ∨ t = 7 ∨ t = 9 ∨ t = 10 then 2 else 1

/-- The token program from some depth on (R101): only ends after an end, four values at most, one left. -/
def xprRuns (ts : List Nat) (depth : Nat) : Bool :=
  match ts with
  | [] => depth == 1
  | t :: rest =>
    if t = 0 then depth == 1 && rest.all (· == 0)
    else if depth < tokenArgs t then false
    else decide (depth - tokenArgs t + 1 ≤ 4) && xprRuns rest (depth - tokenArgs t + 1)

def xprTokens (o : LaneOps) : List Nat := (List.range 7).map (fun i => xprToken o (i + 1))

/-- The checks of R101. -/
def xprOk (o : LaneOps) : Bool :=
  o.lit.isSome && o.b != 1023 && xprToken o 1 != 0 && xprRuns (xprTokens o) 0 && fieldOk (.src 1) (xprE o) false

/-- The literal of an L96 word is used (R98): B is 1023, or XPR, or an atomic's ordering (R194). -/
def litOk (op : Nat) (o : LaneOps) : Bool :=
  match o.lit with
  | none => o.b != 1023 && op != 0x0C5
  | some v =>
    if op = 0x0C5 then true
    else if op = 0x106 ∨ op = 0x107 ∨ op = 0x108 then
      o.b != 1023 && ordOk v.toNat true true (op == 0x106) && (v.toNat / 8 % 4 != 0)
    else o.b == 1023

/-- A lane word is legal as far as the word shows. -/
def laneLegal (op : Nat) (o : LaneOps) : Bool :=
  match laneUses op o.mod.toNat with
  | none => false
  | some u =>
    o.fl != 3 && litOk op o && fieldOk u.d o.d false && fieldOk u.a o.a false && fieldOk u.b o.b o.lit.isSome &&
      fieldOk u.c o.c false && (op != 0x0C5 || xprOk o) && (op != 0x110 || decide (o.a.toNat ≤ 628)) &&
      (op != 0x10F || o.c == 0) && (op != 0x02E || o.fl == 0)

/-- A field of an L32 word as the L64 field that it issues as (R99). -/
def shortField (u : Use) (f : BitVec 7) : BitVec 10 :=
  match u with
  | .unused => 1021
  | _ => f.setWidth 10

/-- A field of an L32 word that the instruction does not use is 0 (R99). -/
def shortUnused (u : Use) (f : BitVec 7) : Bool :=
  match u with
  | .unused => f == 0
  | _ => true

/-- The L64 fields that an L32 word issues as (R99). -/
def shortToLane (op : Nat) (o : L32Ops) : LaneOps :=
  match laneUses op 0 with
  | none => { mod := 0, fl := 0, mask := 0, c := 1021, b := 1021, a := 1021, d := 1021, lit := none }
  | some u =>
    { mod := 0, fl := 0, mask := o.msel.setWidth 4, c := 1021, b := shortField u.b o.b, a := shortField u.a o.a,
      d := shortField u.d o.d, lit := none }

/-- An L32 word is legal (R99). -/
def shortLegal (op : Nat) (o : L32Ops) : Bool :=
  match laneUses op 0 with
  | none => false
  | some u =>
    shortUnused u.d o.d && shortUnused u.a o.a && shortUnused u.b o.b && laneLegal op (shortToLane op o)

/-- The shared fields of an engine command (R90, R323): guard, scope, and a nonzero scope only with ordering. -/
def seOk (flt : Bool) (o : SeOps) : Bool :=
  (decide (o.g.toNat < 16) || o.g == 31) && decide (o.scope.toNat ≤ if flt then 4 else 3) && (o.scope == 0 || o.acq || o.rel)

/-- The first of `n` consecutive scalar registers: a whole group that fits below s64. -/
def groupOk (n : Nat) (r : BitVec 6) : Bool := r.toNat % n == 0 && decide (r.toNat + n ≤ 64)

/-- The barrier scopes (R158). -/
def barOk (c : BitVec 3) : Bool := c == 1 || c == 2

/-- A CSR write, set or clear (R157). -/
def opnOk (k : BitVec 2) : Bool := k != 0

/-- Halyard fields that a word does not use are zero (R375, R376). -/
def hlOk (i : Instr) : Bool :=
  match i with
  | .hlSet o => o.b == 0 && o.y == 0 && decide (o.x.toNat ≤ 1) && (o.x == 0 || o.a == 0)
  | .hlLoop o | .hlNext o => o.b == 0 && o.x == 0 && o.y == 0
  | .hlStr o => o.d == 0 && decide (o.x.toNat < 8) && o.y == 0
  | .hlEmit o =>
    o.imm == 0 && decide (o.x.toNat < 16) && decide (o.y.toNat < 16) && (o.x.getLsbD 3 || (o.x == 0 && o.b == 0)) &&
      (o.y.getLsbD 3 || (o.y == 0 && o.d == 0)) && decide (o.x.toNat % 8 < 6) && decide (o.y.toNat % 8 < 6)
  | .hlGuard o => o.d == 0 && o.a == 0 && o.b == 0 && o.y == 0 && o.imm == 0 && (decide (o.x.toNat < 16) || o.x == 31)
  | .hlGuardRes o => o.d == 0 && o.b == 0 && o.y == 1 && o.imm == 0 && decide (o.x.toNat < 16)
  | .hlBarExpect o => o.d == 0 && o.b == 0 && decide (o.x.toNat < 128) && decide (o.y.toNat ≤ 1) && o.imm == 0
  | .hlBarArrive o =>
    o.d == 0 && o.a == 0 && o.b == 0 && decide (o.x.toNat < 128) && (o.y == 2 || o.y == 3) && o.imm == 0
  | .hlEnd o => o.d == 0 && o.a == 0 && o.b == 0 && o.x == 0 && o.y == 0 && o.imm == 0
  | _ => true

/-- The legality of an instruction's own fields. Events have none. -/
def Instr.wellFormed (i : Instr) : Bool :=
  match i with
  | .barInit _ _ c | .barExpect _ _ c | .barWait _ _ c | .barTest _ _ c => barOk c
  | .barArrive _ c => barOk c
  | .fenceAcq c | .fenceRel c | .fenceAcqRel c => decide (c.toNat ≤ 4)
  | .fpctlWrite k _ _ | .fpstatWrite k _ _ | .trootWrite k _ _ | .fqbaseWrite k _ _ | .ringsWrite k _ _
  | .pfxbaseWrite k _ _ | .wpdataWrite k _ _ => opnOk k
  | .registerWrite k _ _ n => opnOk k && (n == 0x010 || n == 0x050 || n == 0x801 || n == 0x802 || n == 0x814)
  | .msav _ a | .mcnt _ a | .mffs _ a => decide (a.toNat < 16)
  | .mset d _ => decide (d.toNat < 16)
  | .execAnd a | .execAndn a | .execOr a => decide (a.toNat < 16)
  | .sget _ v _ | .vset _ v _ => decide (v.toNat < 640)
  | .brx v _ => decide (v.toNat < 640)
  | .yieldp _ b => groupOk 2 b
  | .hstart _ b => groupOk 4 b
  | .put o | .get o | .signal o => seOk true o
  | .copy o | .copyLbl o | .copyScl o | .fill o | .mma o | .mmaz o | .mma2 o | .mma2z o | .relld o | .acclblStore o | .acclblLoad o
  | .tfsum o | .wbind o | .wstrip o | .wpart o | .wdraw o | .waccept o | .wcommit o | .rsload o | .gldesc o | .thresh o => seOk false o
  | .tokToM o | .tokToV o | .accz o | .tfset o | .kvsplice o | .pfxlk o | .pfxins o | .pin o | .unpin o => seOk false o && o.b == 0
  | .glinv o => seOk false o && o.a == 0 && o.b == 0
  | .laneNopL16 _ => true
  | .dictionaryCode _ idx => idx != 0
  | i =>
    match laneOf i with
    | some (op, o) => laneLegal op.toNat o
    | none =>
      match shortOf i with
      | some (op, o) => shortLegal op.toNat o
      | none => hlOk i

end Sys2Proof
end

