-- ==== Sys2Proof/Machine/Operands.lean ====
section
/-! DEFINITION. Lane operands: shapes, register fields, queue pops, active lanes, and the writing of results (R34, R64 to
R69, R97, R104). -/

namespace Sys2Proof.Machine

/-- The value in lane `l` (R64). -/
def LaneReg.lane (r : LaneReg) (l : Nat) : W32 :=
  match r with
  | .u v => v
  | .a b st => b + BitVec.ofNat 32 l * st
  | .g xs => xs.getD l 0

/-- One value per lane. -/
def LaneReg.expand (r : LaneReg) (w : Nat) : List W32 := (List.range w).map r.lane

/-- The tag code (R64). -/
def LaneReg.tag (r : LaneReg) : Nat :=
  match r with
  | .u _ => 0
  | .a _ _ => 1
  | .g _ => 2

def LaneReg.isU (r : LaneReg) : Bool :=
  match r with
  | .u _ => true
  | .a _ _ | .g _ => false

def LaneReg.isG (r : LaneReg) : Bool :=
  match r with
  | .g _ => true
  | .u _ | .a _ _ => false

def Group.reg (x : Group) (n : Nat) : LaneReg := x.v.get (.u 0) n
def Group.setReg (x : Group) (n : Nat) (r : LaneReg) : Group := { x with v := x.v.put n r }
def Group.mask (x : Group) (m : Nat) : W64 := x.m.get 0 m
def Group.setMask (x : Group) (m : Nat) (v : W64) : Group := { x with m := x.m.put m (v &&& low64 x.desc.w) }

/-- A name that is the pop of an operand queue (R69). -/
def Group.popOf (x : Group) (n : Nat) : Option Nat :=
  if 632 ≤ n ∧ n < 640 ∧ x.desc.qmap.getLsbD (n - 632) then some (n - 632) else none

/-- What a register field reads from a name (R97); the named constants fill the first of several names and the others are
zero. -/
def fieldConst (f : Nat) (lit : Option W32) : LaneReg :=
  match f with
  | 1020 => .a 0 1
  | 1022 => .u (BitVec.allOnes 32)
  | 1023 => .u (lit.getD 0)
  | _ => .u 0

/-- The queues that reading `n` names from field `f` pops. -/
def Group.popsOf (x : Group) (f : BitVec 10) (n : Nat) : List Nat :=
  (List.range n).filterMap (fun i => x.popOf (f.toNat + i))

/-- Pops one entry of queue `q`. -/
def Group.pop (x : Group) (q : Nat) : LaneReg × Group :=
  match x.oq.get [] q with
  | [] => (.u 0, x)
  | r :: t => (r, { x with oq := x.oq.put q t })

/-- Reads `n` consecutive names from field `f` on, popping queues (R69, R97); a pop reads as G (R66). A constant gives
the first name its value and every other one zero, four of a 128-bit store among them (log 117). -/
def readNames (x : Group) (f : Nat) (lit : Option W32) (n : Nat) : List LaneReg × Group :=
  match n with
  | 0 => ([], x)
  | k + 1 =>
    let u := readNames x f lit k
    if f ≥ 1020 then (u.1 ++ [if k = 0 then fieldConst f lit else .u 0], u.2)
    else
      match x.popOf (f + k) with
      | some q =>
        let p := u.2.pop q
        (u.1 ++ [.g (p.1.expand x.desc.w)], p.2)
      | none => (u.1 ++ [x.reg (f + k)], u.2)

/-- Everything a lane instruction reads before it does anything (R34, R97). -/
structure LaneEnv where
  g : Nat
  sp : Nat
  handler : Bool
  run : Running
  /-- The group, once its queue pops are taken. -/
  x : Group
  w : Nat
  act : W64
  a : List LaneReg
  b : List LaneReg
  c : List LaneReg
  d : List LaneReg
  e : LaneReg
  deriving DecidableEq, Repr

/-- The lanes that are active, rising. -/
def LaneEnv.lanes (e : LaneEnv) : List Nat := onesOf e.act e.w

/-- All W lanes are active. -/
def LaneEnv.full (e : LaneEnv) : Bool := e.act == low64 e.w

def nth (l : List LaneReg) (k : Nat) : LaneReg := l.getD k (.u 0)

def LaneEnv.av (e : LaneEnv) (l : Nat) : W32 := (nth e.a 0).lane l
def LaneEnv.bv (e : LaneEnv) (l : Nat) : W32 := (nth e.b 0).lane l
def LaneEnv.cv (e : LaneEnv) (l : Nat) : W32 := (nth e.c 0).lane l
def LaneEnv.dv (e : LaneEnv) (l : Nat) : W32 := (nth e.d 0).lane l

/-- A mask register as the clause reads it: a GLEAN of the clause that is to write it has not changed it for the clause (R37). -/
def Running.maskOf (r : Running) (x : Group) (m : Nat) : W64 := r.priorM.get (x.mask m) m

/-- Mask operand `m` of a lane instruction. -/
def LaneEnv.maskOf (e : LaneEnv) (m : Nat) : W64 := e.run.maskOf e.x m

/-- The lane registers as the clause reads them: those that a long-latency instruction of the clause writes keep the values they had
when it issued (R37). -/
def Running.regsOf (r : Running) (x : Group) : Map LaneReg := r.prior.foldr (fun p v => v.put p.1 p.2) x.v

/-- A long-latency instruction of the clause is to write `n` names from `d` on and mask `mreg`; the clause goes on reading them as they
are now (R37). -/
def Running.noted (r : Running) (x : Group) (d n mreg : Nat) : Running :=
  { r with
    prior := (List.range n).foldl (fun m i => m.put (d + i) (x.reg (d + i))) r.prior
    priorM := if mreg = 0 then r.priorM else r.priorM.put mreg (x.mask mreg) }

/-- The clause reads what it has written itself (R37). -/
def Running.wrote (r : Running) (ns : List Nat) (m : Option Nat) : Running :=
  { r with prior := r.prior.filter (fun p => !ns.contains p.1), priorM := r.priorM.filter (fun p => m != some p.1) }

/-- A pair in lane `l`, low half in the first name (R63). -/
def pairLane (rs : List LaneReg) (l : Nat) : W64 := (nth rs 1).lane l ++ (nth rs 0).lane l

/-- The flag that FL names, when the clause has it (R96). -/
def Running.flagOf (r : Running) (fl : BitVec 2) : Option Nat :=
  match fl.toNat with
  | 1 => if r.fa = 15 then none else some r.fa
  | 2 => if r.fb = 15 then none else some r.fb
  | _ => none

/-- FL names a flag that the clause header gives (R96). -/
def Running.flagOk (r : Running) (fl : BitVec 2) : Bool := fl == 0 || (r.flagOf fl).isSome

/-- A write to these names waits for a pending long-latency write, or for a command that holds them (R37, R167). -/
def Group.regBusy (x : Group) (n cnt : Nat) : Bool :=
  x.acc.any (fun a => a.dcount != 0 && (match a.op with
    | .lds | .atoms _ | .sts => false
    | .load _ | .store | .atom _ _ _ | .lres _ | .scond _ | .accrd _ _ | .accwr _ | .accerm _ | .glean _ | .recput _ =>
      decide (a.dst < n + cnt) && decide (n < a.dst + a.dcount)))

def Group.maskBusy (x : Group) (m : Nat) : Bool := m != 0 && x.acc.any (fun a => a.mreg == m)

/-- The lane registers that the group's queued commands hold (R167). -/
def State.heldRegs (s : State) (g : Nat) : List Nat :=
  let x := s.grp g
  (s.core x.core).queues.foldl (fun l p => l ++ ((p.2.filter (fun c => c.group == g)).flatMap (·.held))) []

/-- The names that reading `n` names from field `f` takes from the register file. -/
def Group.namesOf (x : Group) (f : BitVec 10) (n : Nat) : List Nat :=
  ((List.range n).map (f.toNat + ·)).filter (fun k => decide (k < 640) && (x.popOf k).isNone)

/-- The front of every lane instruction: who issues it, whether its word is legal (R104, R111), and whether it has to wait
(R37, R69, R167); a source that holds an uncorrectable error is a machine check (R238). -/
def State.laneFront (s : State) (op : Nat) (o : LaneOps) : Except Out LaneEnv :=
  match s.cur with
  | .lane g sp =>
    let x := s.grp g
    match (s.split g sp).issuing with
    | none => .error (.refused .noAgent)
    | some (h, r) =>
      let w := x.desc.w
      let mk := if o.mask = 0 then BitVec.allOnes 64 else r.maskOf x o.mask.toNat
      let act := r.retry.getD (r.exec &&& mk) &&& low64 w
      match laneUses op o.mod.toNat with
      | none => .error (.next (s.takeTrap 0x10 act 0))
      | some u =>
        let lit := o.lit
        let wr := u.d.writes
        let dpop := (x.popsOf o.d wr) != []
        if !laneLegal op o || !r.flagOk o.fl || dpop then .error (.next (s.takeTrap 0x10 act 0))
        else
          let isXpr := op == 0x0C5
          let pops := x.popsOf o.a u.a.reads ++ x.popsOf o.b u.b.reads ++ x.popsOf o.c u.c.reads ++ x.popsOf o.d u.d.reads ++
            (if isXpr then x.popsOf (xprE o) 1 else [])
          let short := pops.any (fun q => decide ((x.oq.get [] q).length < (pops.filter (· == q)).length))
          let held := s.heldRegs g
          let busy := (wr != 0 && (x.regBusy o.d.toNat wr || (List.range wr).any (fun i => held.contains (o.d.toNat + i)))) ||
            (u.d == .maskW && x.maskBusy o.d.toNat)
          let sources := x.namesOf o.a u.a.reads ++ x.namesOf o.b u.b.reads ++ x.namesOf o.c u.c.reads ++ x.namesOf o.d u.d.reads ++
            (if isXpr then x.namesOf (xprE o) 1 else [])
          if short || (busy && act != 0) then .error (.next s)
          else if act != 0 && sources.any x.vBad.contains then
            .error (.next (s.machineCheck g sp 0 0 (clauseAt r.addr r.off) act 0xFF))
          else
            let ra := readNames { x with v := r.regsOf x } o.a.toNat none u.a.reads
            let rb := readNames ra.2 o.b.toNat (if isXpr then none else lit) u.b.reads
            let rc := readNames rb.2 o.c.toNat none u.c.reads
            let rd := readNames rc.2 o.d.toNat none u.d.reads
            let re := if isXpr then readNames rd.2 (xprE o).toNat none 1 else ([], rd.2)
            .ok { g := g, sp := sp, handler := h, run := r, x := { re.2 with v := x.v }, w := w, act := act, a := ra.1, b := rb.1, c := rc.1,
                  d := rd.1, e := nth re.1 0 }
  | .device | .scalar _ _ | .engine _ _ | .service _ | .halyard _ _ => .error (.refused .noAgent)

/-- The lane stream goes past the instruction in hand; with its last instruction the clause's entry leaves (R33). -/
def State.laneAdvance (s : State) (g sp : Nat) (handler : Bool) (r : Running) : State :=
  let off := r.off + s.fetchLen / 2
  let fin := decide (r.len ≤ off)
  s.modSplit g sp (fun p =>
    if handler then
      { p with hrun := if fin then none else some { r with off := off, retry := none }
               hqueue := if fin then p.hqueue.tail else p.hqueue }
    else
      { p with run := if fin then none else some { r with off := off, retry := none }
               queue := if fin then p.queue.tail else p.queue })

/-- The shape and value that a register takes under R66's first two rows: no lane active, nothing; some lanes active, G. -/
def mixLanes (old new : LaneReg) (act : W64) (w : Nat) : LaneReg :=
  if act = low64 w then new
  else .g ((List.range w).map (fun l => if act.getLsbD l then new.lane l else old.lane l))

/-- A result for name `n` would be G at or above GCOUNT (R65). -/
def Group.shapeBad (x : Group) (act : W64) (n : Nat) (r : LaneReg) : Bool :=
  act != 0 && decide (x.desc.gcount ≤ n) && (r.isG || act != low64 x.desc.w)

/-- What a fixed-latency lane instruction writes: lane registers, a mask, and FPSTAT bits. -/
structure LaneEff where
  regs : List (Nat × LaneReg) := []
  mask : Option (Nat × W64) := none
  fp : Nat := 0
  deriving DecidableEq, Repr

/-- Writes the registers of a result (R66); a register written in all its lanes holds no error any more (R238; log 97). -/
def Group.writeRegs (x : Group) (act : W64) (rs : List (Nat × LaneReg)) : Group :=
  if act = 0 then x
  else
    let y := rs.foldl (fun y p => y.setReg p.1 (mixLanes (y.reg p.1) p.2 act x.desc.w)) x
    if act = low64 x.desc.w then { y with vBad := y.vBad.filter (fun n => !rs.any (fun p => p.1 == n)) } else y

/-- Writes the active lanes' bits of a mask (R173). -/
def Group.writeMask (x : Group) (act : W64) (m : Option (Nat × W64)) : Group :=
  match m with
  | none => x
  | some (k, v) => x.setMask k ((x.mask k &&& ~~~act) ||| (v &&& act))

/-- Ends a fixed-latency lane instruction: the shape trap, else its writes, and on (R65, R96, R104). -/
def State.laneEnd (s : State) (e : LaneEnv) (f : LaneEff) : State :=
  if f.regs.any (fun p => e.x.shapeBad e.act p.1 p.2) then s.takeTrap 0x14 e.act 0
  else
    let y := (e.x.writeRegs e.act f.regs).writeMask e.act f.mask
    let z := { y with fpstat := if e.act = 0 then y.fpstat else y.fpstat ||| BitVec.ofNat 64 f.fp }
    (s.setGrp e.g z).laneAdvance e.g e.sp e.handler
      (if e.act = 0 then e.run else e.run.wrote (f.regs.map (·.1)) (f.mask.map (·.1)))

/-- A fixed-latency lane instruction (R167). -/
def State.laneDo (s : State) (op : Nat) (o : LaneOps) (f : LaneEnv → LaneEff) : Out :=
  match s.laneFront op o with
  | .error r => r
  | .ok e => .next (s.laneEnd e (f e))

/-- A result of one register whose lanes are computed one by one: U where every source is U, else G (R66). -/
def LaneEnv.each (e : LaneEnv) (uni : Bool) (f : Nat → W32) : LaneReg :=
  if uni then .u (f 0) else .g ((List.range e.w).map f)

end Sys2Proof.Machine
end

