-- ==== Sys2Proof/Machine/Clause.lean ====
section
/-! DEFINITION. Code in memory: fetching, the clause header and its check, the kernel dictionary, and the interlocks of the
scalar stream on lane state (R38, R85 to R88, R95 to R106). -/

namespace Sys2Proof.Machine

/-- The outcome of a fetch (R87, R238). -/
inductive Fetched where
  | ok (bs : List Byte)
  | fault (va : W64) (cause : Nat)
  | check (pa va : Nat)
  deriving DecidableEq, Repr

/-- Fetches `n` halfwords through translation with X (R87). -/
def State.fetchHalves (s : State) (tlb : Option Nat) (va : W64) (n : Nat) : State × Fetched :=
  match n with
  | 0 => (s, .ok [])
  | k + 1 =>
    match s.translate tlb va { x := true } with
    | (t, .fault c) => (t, .fault va c)
    | (t, .check pa) => (t, .check pa va.toNat)
    | (t, .ok pa) =>
      if t.hbmBadIn pa 2 then (t, .check pa va.toNat)
      else
        match t.fetchHalves tlb (va + 2) k with
        | (u, .ok bs) => (u, .ok (t.hbmRead pa 2 ++ bs))
        | (u, r) => (u, r)

/-- Reads `n` halfwords of code as an observer, with no effect. -/
def State.peekHalves (s : State) (tlb : Option Nat) (va : W64) (n : Nat) : Option (List Byte) :=
  match n with
  | 0 => some []
  | k + 1 =>
    match s.peek tlb va { x := true }, s.peekHalves tlb (va + 2) k with
    | some pa, some bs => some (s.hbmRead pa 2 ++ bs)
    | _, _ => none

/-- A fetch that did not succeed: the group parks, or meets a machine check (R87, R238). -/
def State.fetchFailed (s : State) (g sp : Nat) (f : Fetched) (lane : Bool) (addr : W64) : State :=
  match f with
  | .ok _ => s
  | .fault va c => s.parkScalar (.fetch g sp lane) g sp 3 c va addr
  | .check pa va => s.machineCheck g sp pa va addr 0 0xFF

/-- A clause header (R102). -/
structure Header where
  wait : Nat
  fa : Nat
  fb : Nat
  len : Nat
  deriving DecidableEq, Repr

/-- The header that eight bytes hold, when it passes R103. -/
def headerOf (bs : List Byte) : Option Header :=
  let h := BitVec.ofNat 64 (numAt bs 0 8)
  let fa := (field h 20 4).toNat
  let fb := (field h 24 4).toNat
  let len := (field h 28 9).toNat
  let flagOk := fun f => decide (f < 12) || f == 15
  if field h 0 8 == 0xA7 && field h 37 27 == 0 && flagOk fa && flagOk fb && decide (2 ≤ len) && decide (len ≤ 64) then
    some { wait := (field h 8 12).toNat, fa := fa, fb := fb, len := len }
  else none

/-- The length in bytes that the first byte of a lane code gives (R95). -/
def codeBytes (b : Byte) : Nat :=
  match b.toNat % 4 with
  | 0 => 2
  | 1 => 4
  | 2 => 8
  | _ => 12

/-- The length codes end exactly at the end of the bytes (R103); `fuel` bounds the count of instructions. -/
def lengthsEnd (fuel : Nat) (bs : List Byte) : Bool :=
  match fuel with
  | 0 => bs.isEmpty
  | k + 1 =>
    match bs with
    | [] => true
    | b :: _ => decide (codeBytes b ≤ bs.length) && lengthsEnd k (bs.drop (codeBytes b))

/-- A lane code as the lane stream takes it: a NOP, a dictionary code, or an opcode with its fields (R95 to R100). -/
inductive LaneRaw where
  | nop16
  | dict (reb : BitVec 4) (idx : BitVec 10)
  | short (op : Nat) (o : L32Ops)
  | long (op : Nat) (o : LaneOps)
  deriving DecidableEq, Repr

def laneRawOf (c : LaneCode) : LaneRaw :=
  match c with
  | .l16 w => if field w 2 10 == 0 then .nop16 else .dict (field w 12 4) (field w 2 10)
  | .l32 w => .short (field w 2 6).toNat (shortFields w)
  | .l64 w => .long (field w 2 10).toNat (laneFields w none)
  | .l96 w => .long (field w 2 10).toNat (laneFields (field w 0 64) (some (field w 64 32)))

/-- Dictionary entry `idx` of the group's kernel (R100, R106). -/
def State.dictEntry (s : State) (g idx : Nat) : Option (Nat × LaneOps) :=
  let x := s.grp g
  if idx = 0 ∨ x.desc.dcount < idx then none
  else
    match s.teams.find x.team with
    | none => none
    | some t =>
      match t.bank with
      | none => none
      | some b =>
        match ((s.core x.core).dicts.get { dict := 0, count := 0, users := [], entries := [] } b).entries[idx - 1]? with
        | none => none
        | some (w, lit) =>
          some ((field w 2 10).toNat, laneFields w (if field w 0 2 == 3 then some lit else none))

/-- Adds 8 × REB to a field that names a lane register below 640 (R100); none when the sum reaches 640. -/
def rebaseField (u : Use) (reb : BitVec 4) (f : BitVec 10) : Option (BitVec 10) :=
  match u with
  | .src _ | .dst _ | .both _ | .data _ =>
    if f.toNat < 640 then
      (if f.toNat + 8 * reb.toNat < 640 then some (BitVec.ofNat 10 (f.toNat + 8 * reb.toNat)) else none)
    else some f
  | .unused | .maskR | .maskW | .ord _ _ _ | .ordGlean | .tile => some f

/-- XPR's field E, rebased as well (R100). -/
def rebaseE (op : Nat) (reb : BitVec 4) (o : LaneOps) : Option (Option W32) :=
  match o.lit with
  | none => some none
  | some l =>
    if op = 0x0C5 then (rebaseField (.src 1) reb (field l 22 10)).map (fun f => some (f ++ (field l 0 22)))
    else some (some l)

/-- A dictionary entry rebased by REB (R100). -/
def rebase (op : Nat) (reb : BitVec 4) (o : LaneOps) : Option LaneOps :=
  match laneUses op o.mod.toNat with
  | none => some o
  | some u =>
    match rebaseField u.d reb o.d, rebaseField u.a reb o.a, rebaseField u.b reb o.b, rebaseField u.c reb o.c,
          rebaseE op reb o with
    | some d, some a, some b, some c, some l => some { o with d := d, a := a, b := b, c := c, lit := l }
    | _, _, _, _, _ => none

/-- The opcode and fields that a code issues with, for the interlocks. -/
def State.rawOps (s : State) (g : Nat) (r : LaneRaw) : Option (Nat × LaneOps) :=
  match r with
  | .nop16 => none
  | .dict reb idx => (s.dictEntry g idx.toNat).bind (fun e => (rebase e.1 reb e.2).map (fun o => (e.1, o)))
  | .short op o => some (op, shortToLane op o)
  | .long op o => some (op, o)

/-- Every instruction of some code bytes (R95). -/
def State.opsOf (s : State) (g fuel : Nat) (bs : List Byte) : List (Nat × LaneOps) :=
  match fuel with
  | 0 => []
  | k + 1 =>
    match bs with
    | [] => []
    | b :: _ =>
      let rest := s.opsOf g k (bs.drop (codeBytes b))
      match s.rawOps g (laneRawOf (laneCodeOf bs)) with
      | some e => e :: rest
      | none => rest

/-- The instruction writes lane register `v`. -/
def opWritesReg (v : Nat) (e : Nat × LaneOps) : Bool :=
  match laneUses e.1 e.2.mod.toNat with
  | none => false
  | some u => decide (e.2.d.toNat ≤ v) && decide (v < e.2.d.toNat + u.d.writes)

/-- The instruction writes mask register `m`; GLEAN writes the mask its descriptor names (R342). -/
def State.opWritesMask (s : State) (core m : Nat) (e : Nat × LaneOps) : Bool :=
  match laneUses e.1 e.2.mod.toNat with
  | none => false
  | some u =>
    (u.d == .maskW && e.2.d.toNat == m) ||
      (e.1 == 0x183 && m != 0 && numAt ((s.core core).gdescs.get (List.replicate 64 0) e.2.mod.toNat) 3 1 % 16 == m)

/-- Some instruction of a queued clause from halfword `off` on satisfies `p`; an unreadable clause counts as if it did. -/
def State.clauseHas (s : State) (g : Nat) (addr : W64) (off : Nat) (p : Nat × LaneOps → Bool) : Bool :=
  let x := s.grp g
  match s.peekHalves (some x.core) addr 4 with
  | none => true
  | some hb =>
    match headerOf hb with
    | none => true
    | some h =>
      let first := max off 4
      match s.peekHalves (some x.core) (addr + BitVec.ofNat 64 (2 * first)) (h.len * 4 - first) with
      | none => true
      | some bs => (s.opsOf g 256 bs).any p

/-- The entries of a queue, each with the halfword its clause has reached; `r` is the clause that has started. -/
def entriesAt (q : List QEntry) (r : Option Running) : List (QEntry × Nat) :=
  match q with
  | [] => []
  | e :: t =>
    (e, (r.map (·.off)).getD (match e.kind with
      | .clause _ resume => max 4 resume
      | .fpctl _ | .vset _ _ | .mset _ => 4)) :: t.map (fun e => (e, 4))

/-- The entries that the scalar stream may await: those of the queue that is not frozen, and inside a handler the clause that had started
before it (R38, R59). -/
def Split.pendingEntries (p : Split) : List (QEntry × Nat) :=
  if p.inHandler then (if p.oldRun then (entriesAt p.queue p.run).take 1 else []) ++ entriesAt p.hqueue p.hrun
  else entriesAt p.queue p.run

/-- A scalar read of lane register `v` has to wait (R38). -/
def State.regAwaited (s : State) (g sp v : Nat) : Bool :=
  let x := s.grp g
  x.regBusy v 1 || (x.split sp).pendingEntries.any (fun e => match e.1.kind with
    | .clause a _ => s.clauseHas g a e.2 (opWritesReg v)
    | .vset n _ => n.toNat == v
    | .mset _ | .fpctl _ => false)

/-- A scalar read of mask register `m` has to wait (R38). -/
def State.maskAwaited (s : State) (g sp m : Nat) : Bool :=
  let x := s.grp g
  x.maskBusy m || (x.split sp).pendingEntries.any (fun e => match e.1.kind with
    | .clause a _ => s.clauseHas g a e.2 (s.opWritesMask x.core m)
    | .mset n => n.toNat == m
    | .vset _ _ | .fpctl _ => false)

/-- The queue that LRUN, VSET, MSET and FPCTL writes enter: the handler's inside a handler (R59). -/
def Split.target (p : Split) : List QEntry := if p.inHandler then p.hqueue else p.queue

/-- Puts an entry at the tail of that queue. -/
def Split.enqueue (p : Split) (e : QEntry) : Split :=
  if p.inHandler then { p with hqueue := p.hqueue ++ [e] } else { p with queue := p.queue ++ [e] }

/-- The queue holds its 8 entries (R33, R59). -/
def Split.queueFull (p : Split) : Bool := decide (8 ≤ p.target.length)

end Sys2Proof.Machine
end

