-- ==== Sys2Proof/Machine/Flags.lean ====
section
/-! DEFINITION. Completion flags and in-flight counters: what an issue adds and what a return takes away (R36, R72, R73,
R209, R264, R267). -/

namespace Sys2Proof.Machine

/-- Instructions that flag `f` awaits; the flag is set while there are any (R36). -/
def Group.flagCount (x : Group) (f : Nat) : Nat := x.flags.get 0 f

def Group.flagUp (x : Group) (f : Option Nat) : Group :=
  match f with
  | none => x
  | some k => { x with flags := x.flags.put k (x.flagCount k + 1) }

def Group.flagDown (x : Group) (f : Option Nat) : Group :=
  match f with
  | none => x
  | some k => { x with flags := x.flags.put k (x.flagCount k - 1) }

/-- Every flag of a mask over f0 to f11 is clear. -/
def Group.flagsClear (x : Group) (mask : Nat) : Bool := (List.range 12).all (fun k => !mask.testBit k || x.flagCount k == 0)

def Group.counter (x : Group) (c : Nat) : BitVec 16 := x.counters.get 0 c

/-- Counts an issue (R73). -/
def Group.countUp (x : Group) (c : Option Nat) (id : Nat) : Group :=
  match c with
  | none => x
  | some k => { x with counters := x.counters.put k (x.counter k + 1),
                       inflight := x.inflight ++ [{ ctr := k, id := id, returned := false }] }

/-- A counter that would pass 0xFFFF holds the access (R73). -/
def Group.counterFull (x : Group) (c : Option Nat) : Bool :=
  match c with
  | none => false
  | some k => x.counter k == 0xFFFF

/-- Lets the counters fall for returned accesses, in issue order for each counter (R73); `held` lists the counters that an
earlier access without a return holds. -/
def settleFrom (l : List Counted) (held : List Nat) (cs : Map (BitVec 16)) : List Counted × Map (BitVec 16) :=
  match l with
  | [] => ([], cs)
  | e :: t =>
    if e.returned && !held.contains e.ctr then settleFrom t held (cs.put e.ctr (cs.get 0 e.ctr - 1))
    else
      let u := settleFrom t (e.ctr :: held) cs
      (e :: u.1, u.2)

/-- A counted access has returned (R73). -/
def Group.countReturn (x : Group) (id : Nat) : Group :=
  let u := settleFrom (x.inflight.map (fun e => if e.id = id then { e with returned := true } else e)) [] x.counters
  { x with inflight := u.1, counters := u.2 }

/-- Every flag is clear and every counter zero (R146, R279). -/
def Group.quiet (x : Group) : Bool := x.flagsClear 0xFFF && (List.range 6).all (fun c => x.counter c == 0)

/-- No clause stands in the queue that is not frozen, and none that started before a handler issues: each has issued its last
instruction (R59, R149, R154; log 9). -/
def Split.clausesDone (p : Split) : Bool :=
  !p.oldRun && p.target.all (fun e => match e.kind with
    | .clause _ _ => false
    | .vset _ _ | .mset _ | .fpctl _ => true)

/-- Every clause of the queue that is not frozen has started (R39; log 9). -/
def Split.clausesStarted (p : Split) : Bool :=
  let running := if p.inHandler then p.hrun.isSome else p.run.isSome
  (if running then p.target.tail else p.target).all (fun e => match e.kind with
    | .clause _ _ => false
    | .vset _ _ | .mset _ | .fpctl _ => true)

/-- A lane waits at the fault of its translation (R229). -/
def LaneAcc.waiting (l : LaneAcc) : Bool := l.fault.isSome

/-- An access of the group waits at a fault: no later access of the group passes translation (R229, R230). -/
def Group.faulted (x : Group) : Bool := x.acc.any (fun a => a.lanes.any LaneAcc.waiting)

/-- Entries popped from operand queues when a command retires or is discarded (R377). -/
def Group.popMask (x : Group) (pops : BitVec 8) : Group :=
  (List.range 8).foldl (fun y q => if pops.getLsbD q then (y.pop q).2 else y) x

/-- A command discarded by a false guard has one effect, that its counter falls (R267, R370; log 30). -/
def State.discardCmd (s : State) (m : Cmd) : State := s.modGrp m.group (fun x => x.countReturn m.id)

/-- A command of the group completes or retires: its counter falls and its POPS are taken (R264, R267, R377). -/
def State.retireCmd (s : State) (m : Cmd) : State :=
  s.modGrp m.group (fun x => (x.countReturn m.id).popMask m.pops)

/-- The SE fields of an engine command's row. -/
def seOpsOf (i : Instr) : Option SeOps :=
  match i with
  | .put o | .get o | .signal o | .copy o | .copyLbl o | .copyScl o | .fill o | .mma o | .mmaz o | .mma2 o | .mma2z o
  | .relld o | .tokToM o | .tokToV o | .accz o | .acclblStore o | .acclblLoad o | .tfset o | .tfsum o | .wbind o
  | .wstrip o | .wpart o | .wdraw o | .waccept o | .wcommit o | .kvsplice o | .pfxlk o | .pfxins o | .pin o | .unpin o
  | .rsload o | .gldesc o | .glinv o | .thresh o => some o
  | _ => none

/-- The guard slot a command names (R90). -/
def guardSlotOf (i : Instr) : Option Nat :=
  match seOpsOf i with
  | some o => if o.g.toNat < 16 then some o.g.toNat else none
  | none => none

/-- The core that holds the barrier of a scope: 1 `.team`, 2 `.clu` (R158). -/
def Group.barCore (x : Group) (scope : Nat) : Nat := if scope = 1 then x.core else x.corner

/-- The barrier that a copy command's bytes go to: core and number (R335, R338). -/
def State.barrierOf (s : State) (m : Cmd) : Option (Nat × Nat) :=
  match m.row with
  | .copy _ | .copyLbl _ | .copyScl _ | .fill _ =>
    let w := (m.vals.getD 2 0).toNat
    if w / 256 % 2 = 1 then none else some ((s.grp m.group).barCore (w / 128 % 2 + 1), w % 128)
  | _ => none

/-- What a counter awaits to fall to a threshold: the oldest of what it counts (R73). -/
def Group.awaits (x : Group) (c thr : Nat) : List Nat :=
  ((x.inflight.filter (fun n => n.ctr == c)).take ((x.counter c).toNat - thr)).map (·.id)

/-- A split of the group, any of them, waits for the command: a WAITC on the counter that counts it, or a wait on the barrier that its bytes go
to (R233). A GCLR on the slot that guards it is no such wait (log 115). -/
def State.waitsFor (s : State) (m : Cmd) : Bool :=
  let x := s.grp m.group
  x.splits.any (fun p => match p.2.stall with
    | some (.waitc c thr) => (x.awaits c thr).contains m.id
    | some (.barrier k n _) => s.barrierOf m == some (k, n)
    | _ => false)

/-- A fault has parked the command, or the context that emitted it (R233, R372). -/
def State.cmdStuck (s : State) (m : Cmd) : Bool :=
  m.parked || (match m.ctx with
    | some x =>
      let h := (s.core (s.grp m.group).core).hal.get HalCtx.reset x
      h.running && h.parked && h.owner == m.group
    | none => false)

/-- The group waits for a command that a fault has parked (R233, R372). -/
def State.stuck (s : State) (g : Nat) : Bool :=
  (s.core (s.grp g).core).queues.any (fun q => q.2.any (fun m => m.group == g && s.cmdStuck m && s.waitsFor m))

/-- A group that waits for such a command is Parked (R52, R233). -/
def State.parkStuck (s : State) (g : Nat) : State := if s.stuck g then s.park g else s

/-- Takes commands out of every queue: a paired command stands in two (R320). -/
def State.dropCmds (s : State) (ids : List Nat) : State :=
  { s with cores := s.cores.map (fun p =>
      (p.1, { p.2 with queues := p.2.queues.map (fun q => (q.1, q.2.filter (fun m => !ids.contains m.id))) })) }

/-- Discards the commands of a group that wait on an unresolved guard slot, as if the slot were false (R146, R267). -/
def State.discardHeld (s : State) (g : Nat) : State :=
  let x := s.grp g
  let gone := fun (m : Cmd) => m.group == g && !m.started && (match guardSlotOf m.row with
    | some k => x.guards.get .unresolved k == .unresolved
    | none => false)
  let dead := (s.core x.core).queues.flatMap (fun p => p.2.filter gone)
  dead.foldl State.discardCmd (s.dropCmds (dead.map (·.id)))

end Sys2Proof.Machine
end

