-- ==== Sys2Proof/Machine/Float.lean ====
section
/-! DEFINITION. Floating-point numbers as exact values, one rounding for every format, and the binary32, binary16 and
bfloat16 operations (R169, R175 to R178, R288). -/

namespace Sys2Proof.Machine

/-- FPSTAT bits (R78). -/
def fNV : Nat := 1
def fDZ : Nat := 2
def fOF : Nat := 4
def fUF : Nat := 8
def fNX : Nat := 16
def fWL : Nat := 32

/-- A value with its sign: NaN (signalling or not), infinity, or m × 2^e. -/
inductive Num where
  | nan (sig : Bool)
  | inf (neg : Bool)
  | fin (neg : Bool) (m : Nat) (e : Int)
  deriving DecidableEq, Repr

/-- Rounding modes, in the order of FPCTL.RM (R78). -/
inductive Rm where
  | rne
  | rtz
  | rup
  | rdn
  deriving DecidableEq, Repr

def rmOf (n : Nat) : Rm :=
  match n % 4 with
  | 0 => .rne
  | 1 => .rtz
  | 2 => .rup
  | _ => .rdn

/-- A binary format of R288 with infinities: exponent and mantissa widths. -/
structure Fmt where
  eb : Nat
  mb : Nat
  deriving DecidableEq, Repr

def f32 : Fmt := { eb := 8, mb := 23 }
def f16 : Fmt := { eb := 5, mb := 10 }
def bf16 : Fmt := { eb := 8, mb := 7 }
def fE5 : Fmt := { eb := 5, mb := 2 }

def Fmt.emin (f : Fmt) : Int := 2 - 2 ^ (f.eb - 1)
/-- The code of +infinity. -/
def Fmt.infCode (f : Fmt) : Nat := (2 ^ f.eb - 1) * 2 ^ f.mb
/-- The sign bit. -/
def Fmt.signBit (f : Fmt) (neg : Bool) : Nat := if neg then 2 ^ (f.eb + f.mb) else 0
/-- The canonical NaN (R169). -/
def Fmt.qnan (f : Fmt) : Nat := f.infCode + 2 ^ (f.mb - 1)

/-- The value of a code whose exponent field may be all ones for ordinary numbers (R288). -/
def decodeFin (mb : Nat) (emin : Int) (neg : Bool) (mag : Nat) : Num :=
  let ex := mag / 2 ^ mb
  let ma := mag % 2 ^ mb
  if ex = 0 then .fin neg ma (emin - mb) else .fin neg (2 ^ mb + ma) (emin + ex - 1 - mb)

/-- The value of a code of a format with infinities (R288). -/
def Fmt.decode (f : Fmt) (v : Nat) : Num :=
  let mag := v % 2 ^ (f.eb + f.mb)
  let neg := v.testBit (f.eb + f.mb)
  if f.infCode < mag then .nan (!mag.testBit (f.mb - 1))
  else if mag = f.infCode then .inf neg
  else decodeFin f.mb f.emin neg mag

/-- The number of bits of `n`, up to `fuel`. -/
def bitLen (n : Nat) : Nat := if n = 0 then 0 else n.log2 + 1

/-- Rounds an integer magnitude with a remainder up to the next integer or not. -/
def roundUpP (m : Rm) (neg : Bool) (odd : Bool) (rem half : Nat) (sticky : Bool) : Bool :=
  match m with
  | .rne => decide (half < rem) || (rem == half && (sticky || odd))
  | .rtz => false
  | .rup => !neg && (rem != 0 || sticky)
  | .rdn => neg && (rem != 0 || sticky)

/-- What a rounding answers: the code of the magnitude as if exponents had no end, whether it is inexact, and whether it is
tiny after rounding (R169). -/
structure Rounded where
  code : Nat
  inexact : Bool
  tiny : Bool
  deriving DecidableEq, Repr

/-- m × 2^−shift rounded to an integer, with whether it is inexact. -/
def roundShift (rm : Rm) (neg : Bool) (m : Nat) (shift : Int) (sticky : Bool) : Nat × Bool :=
  if shift ≤ 0 then
    let q := m * 2 ^ (-shift).toNat
    (if roundUpP rm neg (q % 2 == 1) 0 1 sticky then q + 1 else q, sticky)
  else
    let k := shift.toNat
    let q := m / 2 ^ k
    let rem := m % 2 ^ k
    (if roundUpP rm neg (q % 2 == 1) rem (2 ^ (k - 1)) sticky then q + 1 else q, rem != 0 || sticky)

/-- Rounds m × 2^e (m above 0; `sticky` says that the exact value lies above it and below (m + 1) × 2^e) to `mb` mantissa bits
and least exponent `emin`. -/
def roundSig (mb : Nat) (emin : Int) (rm : Rm) (neg : Bool) (m : Nat) (e : Int) (sticky : Bool) : Rounded :=
  let top : Int := e + bitLen m - 1
  let ex := max top emin
  let r := roundShift rm neg m (ex - mb - e) sticky
  let wide := roundShift rm neg m (top - mb - e) sticky
  let tiny := decide (top < emin) && !(top == emin - 1 && wide.1 == 2 ^ (mb + 1))
  { code := (ex - emin).toNat * 2 ^ mb + r.1, inexact := r.2, tiny := tiny }

/-- Rounds into a format with infinities: the code and the flags OF, UF and NX; with `ftz` a subnormal result is a zero of its
sign (R169). -/
def Fmt.round (f : Fmt) (rm : Rm) (ftz : Bool) (neg : Bool) (m : Nat) (e : Int) (sticky : Bool) : Nat × Nat :=
  if m = 0 ∧ !sticky then (f.signBit neg, 0)
  else
    let r := if m = 0 then roundSig f.mb f.emin rm neg 1 (e - 2) true else roundSig f.mb f.emin rm neg m e sticky
    if f.infCode ≤ r.code then
      let toInf := match rm with
        | .rne => true
        | .rtz => false
        | .rup => !neg
        | .rdn => neg
      (f.signBit neg + (if toInf then f.infCode else f.infCode - 1), fOF + fNX)
    else if ftz && decide (r.code < 2 ^ f.mb) then (f.signBit neg, fUF + fNX)
    else (f.signBit neg + r.code, if r.inexact then (if r.tiny then fUF + fNX else fNX) else 0)

/-- Reads an operand: under FTZ a subnormal is a zero of its sign (R169). -/
def Fmt.read (f : Fmt) (ftz : Bool) (v : Nat) : Num :=
  match f.decode v with
  | .fin n m e => if ftz && decide (v % 2 ^ (f.eb + f.mb) < 2 ^ f.mb) then .fin n 0 e else .fin n m e
  | x => x

def Num.isNan (x : Num) : Bool :=
  match x with
  | .nan _ => true
  | .inf _ | .fin _ _ _ => false

/-- A signalling NaN sets NV (R169). -/
def Num.nv (x : Num) : Nat :=
  match x with
  | .nan true => fNV
  | .nan false | .inf _ | .fin _ _ _ => 0

def Num.neg (x : Num) : Num :=
  match x with
  | .nan s => .nan s
  | .inf n => .inf (!n)
  | .fin n m e => .fin (!n) m e

/-- Writes a value into a format. -/
def Fmt.write (f : Fmt) (rm : Rm) (ftz : Bool) (x : Num) : Nat × Nat :=
  match x with
  | .nan _ => (f.qnan, 0)
  | .inf n => (f.signBit n + f.infCode, 0)
  | .fin n m e => f.round rm ftz n m e false

/-- The exact product. `none` is an invalid operation. -/
def Num.mul (x y : Num) : Option Num :=
  match x, y with
  | .nan s, _ => some (.nan s)
  | _, .nan s => some (.nan s)
  | .inf a, .inf b => some (.inf (a != b))
  | .inf a, .fin b m _ => if m = 0 then none else some (.inf (a != b))
  | .fin a m _, .inf b => if m = 0 then none else some (.inf (a != b))
  | .fin a m e, .fin b n k => some (.fin (a != b) (m * n) (e + k))

/-- The exact sum; an exact zero sum of unlike signs is +0, or −0 toward −infinity (R175). -/
def Num.add (rm : Rm) (x y : Num) : Option Num :=
  match x, y with
  | .nan s, _ => some (.nan s)
  | _, .nan s => some (.nan s)
  | .inf a, .inf b => if a = b then some (.inf a) else none
  | .inf a, .fin _ _ _ => some (.inf a)
  | .fin _ _ _, .inf b => some (.inf b)
  | .fin a m e, .fin b n k =>
    let q := min e k
    let u : Int := (if a then -1 else 1) * (m * 2 ^ (e - q).toNat : Nat) + (if b then -1 else 1) * (n * 2 ^ (k - q).toNat : Nat)
    if u = 0 then some (.fin (if a = b then a else rm == .rdn) 0 q) else some (.fin (decide (u < 0)) u.natAbs q)

/-- An invalid operation is the canonical NaN with NV; a NaN operand gives it too (R169). -/
def Fmt.finish (f : Fmt) (rm : Rm) (ftz : Bool) (r : Option Num) (nv : Nat) : Nat × Nat :=
  match r with
  | none => (f.qnan, fNV ||| nv)
  | some x =>
    let w := f.write rm ftz x
    (w.1, w.2 ||| nv)

def Fmt.add (f : Fmt) (rm : Rm) (ftz : Bool) (a b : Nat) : Nat × Nat :=
  let x := f.read ftz a
  let y := f.read ftz b
  f.finish rm ftz (x.add rm y) (x.nv ||| y.nv)

def Fmt.sub (f : Fmt) (rm : Rm) (ftz : Bool) (a b : Nat) : Nat × Nat :=
  let x := f.read ftz a
  let y := f.read ftz b
  f.finish rm ftz (x.add rm y.neg) (x.nv ||| y.nv)

def Fmt.mul (f : Fmt) (rm : Rm) (ftz : Bool) (a b : Nat) : Nat × Nat :=
  let x := f.read ftz a
  let y := f.read ftz b
  f.finish rm ftz (x.mul y) (x.nv ||| y.nv)

/-- Fused multiply-add: one rounding; 0 × infinity is invalid even with a NaN addend (R175). -/
def Fmt.fma (f : Fmt) (rm : Rm) (ftz : Bool) (a b c : Nat) : Nat × Nat :=
  let x := f.read ftz a
  let y := f.read ftz b
  let z := f.read ftz c
  f.finish rm ftz ((x.mul y).bind (fun p => p.add rm z)) (x.nv ||| y.nv ||| z.nv)

/-- Exact comparison of two numbers that are not NaN: −1, 0 or 1; zeros are equal. -/
def Num.cmp (x y : Num) : Int :=
  match x, y with
  | .nan _, _ => 0
  | _, .nan _ => 0
  | .inf a, .inf b => if a = b then 0 else if a then -1 else 1
  | .inf a, .fin _ _ _ => if a then -1 else 1
  | .fin _ _ _, .inf b => if b then 1 else -1
  | .fin a m e, .fin b n k =>
    let q := min e k
    let u : Int := (if a then -1 else 1) * (m * 2 ^ (e - q).toNat : Nat)
    let v : Int := (if b then -1 else 1) * (n * 2 ^ (k - q).toNat : Nat)
    if u < v then -1 else if u = v then 0 else 1

def Num.isNeg (x : Num) : Bool :=
  match x with
  | .nan _ => false
  | .inf n => n
  | .fin n _ _ => n

def Num.isZero (x : Num) : Bool :=
  match x with
  | .fin _ 0 _ => true
  | .nan _ | .inf _ | .fin _ _ _ => false

/-- The lesser of two numbers; −0 is below +0 (R176). -/
def Num.less (x y : Num) : Bool := x.cmp y < 0 || (x.cmp y == 0 && x.isNeg && !y.isNeg)

/-- fmin and fmax (R176): exact, so an operand is returned as it was read. -/
def Fmt.minmax (f : Fmt) (ftz : Bool) (wantMin : Bool) (a b : Nat) : Nat × Nat :=
  let x := f.read ftz a
  let y := f.read ftz b
  let out := fun (z : Num) => (f.write .rne false z).1
  let nv := x.nv ||| y.nv
  if x.isNan && y.isNan then (f.qnan, nv)
  else if x.isNan then (out y, nv)
  else if y.isNan then (out x, nv)
  else if x.less y = wantMin then (out x, nv) else (out y, nv)

/-- An integral value in a rounding mode; NX is not set (R175). -/
def Fmt.integral (f : Fmt) (rm : Rm) (ftz : Bool) (a : Nat) : Nat × Nat :=
  match f.read ftz a with
  | .nan s => (f.qnan, if s then fNV else 0)
  | .inf n => (f.signBit n + f.infCode, 0)
  | .fin n m e =>
    if e ≥ 0 then ((f.round .rne false n m e false).1, 0)
    else ((f.round .rne false n (roundShift rm n m (-e) false).1 0 false).1, 0)

/-- a × 2^b (R175). -/
def Fmt.scale (f : Fmt) (rm : Rm) (ftz : Bool) (a : Nat) (b : Int) : Nat × Nat :=
  match f.read ftz a with
  | .nan s => (f.qnan, if s then fNV else 0)
  | .inf n => (f.signBit n + f.infCode, 0)
  | .fin n m e => f.round rm ftz n m (max (-1000) (min 1000 b) + e) false

/-- The integer square root, bit by bit from bit n − 1 down. -/
def isqrtFrom (n x r : Nat) : Nat :=
  match n with
  | 0 => r
  | k + 1 => isqrtFrom k x (if (r + 2 ^ k) * (r + 2 ^ k) ≤ x then r + 2 ^ k else r)

def isqrt (x : Nat) : Nat := isqrtFrom (bitLen x / 2 + 1) x 0

/-- √(m × 2^e) as an integer, a power of two, and whether it is inexact. -/
def sqrtParts (m : Nat) (e : Int) : Nat × Int × Bool :=
  let odd := e % 2 != 0
  let x := (if odd then 2 * m else m) * 2 ^ 128
  let r := isqrt x
  (r, ((if odd then e - 1 else e) - 128) / 2, r * r != x)

/-- fsqrt, and √ for the special functions (R175). -/
def Fmt.sqrt (f : Fmt) (rm : Rm) (ftz : Bool) (a : Nat) : Nat × Nat :=
  match f.read ftz a with
  | .nan s => (f.qnan, if s then fNV else 0)
  | .inf n => if n then (f.qnan, fNV) else (f.infCode, 0)
  | .fin n m e =>
    if m = 0 then (f.signBit n, 0)
    else if n then (f.qnan, fNV)
    else
      let p := sqrtParts m e
      f.round rm ftz false p.1 p.2.1 p.2.2

/-! The special functions of binary32 (R177, R178): exact cases apart, an expansion far below the last bit decides the one
rounding to nearest even. -/

/-- Fraction bits of the expansions. -/
def xp : Nat := 320

/-- ln 2 × 2^320, rounded down. -/
def ln2Fix : Nat :=
  1480553391661173448385607439722553250922680800745876974795605978609098082859138712941075737848984

/-- (1 ÷ ln 2) × 2^320, rounded down. -/
def invLn2Fix : Nat :=
  3081577904126213121686167198097690134163479766071396094403848907535455306605342191083616308484524

/-- Adds the terms z^k ÷ k! from term `k` on, each in `xp` fraction bits. -/
def expTerms (n k term z acc : Nat) : Nat :=
  match n with
  | 0 => acc
  | j + 1 =>
    let t := term * z / 2 ^ xp / k
    expTerms j (k + 1) t z (acc + t)

/-- 2^f for a fraction f of `xp` bits, as a number of `xp` fraction bits. -/
def exp2Fix (f : Nat) : Nat := expTerms 80 1 (2 ^ xp) (f * ln2Fix / 2 ^ xp) (2 ^ xp)

/-- `n` bits of log2 y for y in [1, 2) of `xp` fraction bits, by repeated squaring. -/
def log2Bits (n y acc : Nat) : Nat :=
  match n with
  | 0 => acc
  | k + 1 =>
    let q := y * y / 2 ^ xp
    if 2 ^ (xp + 1) ≤ q then log2Bits k (q / 2) (2 * acc + 1) else log2Bits k q (2 * acc)

/-- frcp (R177, R178). -/
def frcp (ftz : Bool) (a : Nat) : Nat × Nat :=
  match f32.read ftz a with
  | .nan s => (f32.qnan, if s then fNV else 0)
  | .inf n => (f32.signBit n, 0)
  | .fin n m e =>
    if m = 0 then (f32.signBit n + f32.infCode, fDZ)
    else f32.round .rne ftz n (2 ^ 128 / m) (-e - 128) (2 ^ 128 % m != 0)

/-- frsq (R177, R178). -/
def frsq (ftz : Bool) (a : Nat) : Nat × Nat :=
  match f32.read ftz a with
  | .nan s => (f32.qnan, if s then fNV else 0)
  | .inf n => if n then (f32.qnan, fNV) else (0, 0)
  | .fin n m e =>
    if m = 0 then (f32.signBit n + f32.infCode, fDZ)
    else if n then (f32.qnan, fNV)
    else
      let odd := e % 2 != 0
      let x := if odd then 2 * m else m
      let r := isqrt (2 ^ 256 / x)
      f32.round .rne ftz false r (-((if odd then e - 1 else e) / 2) - 128) (r * r * x != 2 ^ 256)

/-- flog2 (R177, R178). -/
def flog2 (ftz : Bool) (a : Nat) : Nat × Nat :=
  match f32.read ftz a with
  | .nan s => (f32.qnan, if s then fNV else 0)
  | .inf n => if n then (f32.qnan, fNV) else (f32.infCode, 0)
  | .fin n m e =>
    if m = 0 then (f32.signBit true + f32.infCode, fDZ)
    else if n then (f32.qnan, fNV)
    else
      let k := bitLen m - 1
      let ex : Int := e + k
      if m = 2 ^ k then
        if ex = 0 then (0, 0) else f32.round .rne ftz (decide (ex < 0)) ex.natAbs 0 false
      else
        let t : Int := ex * 2 ^ 120 + log2Bits 120 (m * 2 ^ (xp - k)) 0
        if t < 0 then f32.round .rne ftz true (t.natAbs - 1) (-120) true else f32.round .rne ftz false t.natAbs (-120) true

/-- 2^(±m × 2^e) as an integer with `xp` fraction bits, a power of two, and whether it is inexact. -/
def exp2Parts (neg : Bool) (m : Nat) (e : Int) : Nat × Int × Bool :=
  let v : Int := if 0 ≤ e then m * 2 ^ (xp + e.toNat) else m * 2 ^ xp / 2 ^ (-e).toNat
  let exact := decide (0 ≤ e) || m * 2 ^ xp % 2 ^ (-e).toNat == 0
  let s : Int := if neg then (if exact then -v else -v - 1) else v
  let n := s / 2 ^ xp
  let f := (s % 2 ^ xp).toNat
  if f = 0 ∧ exact then (2 ^ xp, n - xp, false) else (exp2Fix f, n - xp, true)

/-- fexp2 (R177, R178). -/
def fexp2 (ftz : Bool) (a : Nat) : Nat × Nat :=
  match f32.read ftz a with
  | .nan s => (f32.qnan, if s then fNV else 0)
  | .inf n => if n then (0, 0) else (f32.infCode, 0)
  | .fin n m e =>
    if m = 0 then (f32.infCode / 255 * 127, 0)
    else if (Num.fin false m e).cmp (.fin false 1 9) > 0 then
      (if n then (0, fUF + fNX) else (f32.infCode, fOF + fNX))
    else
      let p := exp2Parts n m e
      f32.round .rne ftz false p.1 p.2.1 p.2.2

/-- ftanh (R177, R178). -/
def ftanh (ftz : Bool) (a : Nat) : Nat × Nat :=
  match f32.read ftz a with
  | .nan s => (f32.qnan, if s then fNV else 0)
  | .inf n => (f32.signBit n + f32.infCode / 255 * 127, 0)
  | .fin n m e =>
    if m = 0 then (f32.signBit n, 0)
    else if (Num.fin false m e).cmp (.fin false 1 (-40)) < 0 then
      f32.round .rne ftz n (m * 2 ^ 64 - 1) (e - 64) true
    else if (Num.fin false m e).cmp (.fin false 32 0) > 0 then
      f32.round .rne ftz n (2 ^ 64 - 1) (-64) true
    else
      -- 2x ÷ ln 2 in 2·xp fraction bits, then e^(2x) = 2^that
      let num := 2 * m * invLn2Fix
      let v := if 0 ≤ e then num * 2 ^ e.toNat else num / 2 ^ (-e).toNat
      let k := v / 2 ^ xp
      let ex := exp2Fix (v % 2 ^ xp) * 2 ^ k
      f32.round .rne ftz n ((ex - 2 ^ xp) * 2 ^ 200 / (ex + 2 ^ xp)) (-200) true

/-! The operations on 32-bit lanes. -/

/-- FTZ of FPCTL (R78). -/
def fpFtz (fp : W64) : Bool := fp.getLsbD 2

/-- The rounding mode that RND gives: FPCTL.RM for 0 (R168). -/
def rndMode (rnd : Nat) (fp : W64) : Rm :=
  match rnd with
  | 0 => rmOf (fp.toNat % 4)
  | k + 1 => rmOf k

end Sys2Proof.Machine
end

