-- ==== Sys2Proof/Machine/Formats.lean ====
section
/-! DEFINITION. The 28 matrix formats: reading an element and a scale, writing narrow and block elements, and the sum of one run
(R286 to R298). -/

namespace Sys2Proof.Machine

/-- The classes of R286. -/
inductive FClass where
  | float
  | int
  | power
  deriving DecidableEq, Repr

/-- The scale formats of a block format (R286). -/
inductive ScaleFmt where
  | none
  | e8m0
  | e4m3
  deriving DecidableEq, Repr

/-- A row of the table of R286. -/
structure FmtRow where
  bits : Nat
  nativeK : Nat
  cls : FClass
  block : Nat
  scale : ScaleFmt
  deriving DecidableEq, Repr

/-- The table of R286; codes 28 to 31 name no format. -/
def fmtRow (code : Nat) : Option FmtRow :=
  match code with
  | 0 => some { bits := 32, nativeK := 32, cls := .float, block := 0, scale := .none }
  | 1 | 2 => some { bits := 16, nativeK := 64, cls := .float, block := 0, scale := .none }
  | 3 | 4 => some { bits := 8, nativeK := 128, cls := .float, block := 0, scale := .none }
  | 5 | 6 => some { bits := 6, nativeK := 170, cls := .float, block := 0, scale := .none }
  | 7 => some { bits := 4, nativeK := 256, cls := .float, block := 0, scale := .none }
  | 8 | 9 | 13 => some { bits := 8, nativeK := 128, cls := .float, block := 32, scale := .e8m0 }
  | 10 | 11 => some { bits := 6, nativeK := 170, cls := .float, block := 32, scale := .e8m0 }
  | 12 => some { bits := 4, nativeK := 256, cls := .float, block := 32, scale := .e8m0 }
  | 14 | 16 => some { bits := 4, nativeK := 256, cls := .float, block := 16, scale := .e4m3 }
  | 15 => some { bits := 8, nativeK := 128, cls := .float, block := 16, scale := .e4m3 }
  | 17 | 18 => some { bits := 8, nativeK := 128, cls := .int, block := 0, scale := .none }
  | 19 | 20 => some { bits := 4, nativeK := 256, cls := .int, block := 0, scale := .none }
  | 21 => some { bits := 16, nativeK := 64, cls := .int, block := 0, scale := .none }
  | 22 => some { bits := 2, nativeK := 256, cls := .int, block := 0, scale := .none }
  | 23 => some { bits := 1, nativeK := 256, cls := .int, block := 0, scale := .none }
  | 24 => some { bits := 8, nativeK := 128, cls := .power, block := 0, scale := .none }
  | 25 => some { bits := 8, nativeK := 128, cls := .power, block := 32, scale := .e8m0 }
  | 26 => some { bits := 4, nativeK := 256, cls := .power, block := 0, scale := .none }
  | 27 => some { bits := 4, nativeK := 256, cls := .power, block := 32, scale := .e8m0 }
  | _ => Option.none

def fmtBits (code : Nat) : Nat := ((fmtRow code).map (·.bits)).getD 32
def fmtBlock (code : Nat) : Nat := ((fmtRow code).map (·.block)).getD 0

/-- The element that a format stores, without its scale. -/
inductive Elem where
  | ieee (f : Fmt)
  /-- A float whose all-ones exponent is an ordinary binade; `nan` is the magnitude that is NaN, if one is. -/
  | tight (mb : Nat) (emin : Int) (max : Nat) (nan : Option Nat)
  /-- An integer of so many bits, signed or not, times 2^−frac. -/
  | int (bits : Nat) (signed : Bool) (frac : Nat)
  | tern
  | bin
  | ps8
  | ps4
  deriving DecidableEq, Repr

/-- E4M3, E3M2, E2M3 and E2M1 (R288). -/
def elE4 : Elem := .tight 3 (-6) 0x7E (some 0x7F)
def elE3M2 : Elem := .tight 2 (-2) 0x1F Option.none
def elE2M3 : Elem := .tight 3 0 0x1F Option.none
def elE2M1 : Elem := .tight 1 0 0x7 Option.none

/-- The element of a format (R286). -/
def elemOf (code : Nat) : Elem :=
  match code with
  | 0 => .ieee f32
  | 1 => .ieee f16
  | 2 => .ieee bf16
  | 3 | 8 | 15 => elE4
  | 4 | 9 => .ieee fE5
  | 5 | 10 => elE3M2
  | 6 | 11 => elE2M3
  | 7 | 12 | 14 => elE2M1
  | 13 => .int 8 true 6
  | 16 | 19 => .int 4 true 0
  | 17 => .int 8 true 0
  | 18 => .int 8 false 0
  | 20 => .int 4 false 0
  | 21 => .int 16 true 0
  | 22 => .tern
  | 23 => .bin
  | 24 | 25 => .ps8
  | _ => .ps4

/-- term(s, e) of R289 in units of 2^−6. -/
def psTerm (s : Bool) (e : Nat) : Int := if e = 7 then 0 else (if s then -1 else 1) * 2 ^ (6 - e)

def ofInt (v : Int) (e : Int) : Num := .fin (decide (v < 0)) v.natAbs e

/-- The signed value of an n-bit code. -/
def signedOf (bits v : Nat) : Int := if v.testBit (bits - 1) then (v : Int) - 2 ^ bits else v

/-- The value of an element (R288 to R290). -/
def Elem.read (k : Elem) (v : Nat) : Num :=
  match k with
  | .ieee f => f.decode v
  | .tight mb emin max nan =>
    let width := (bitLen max)
    let mag := v % 2 ^ width
    if nan = some mag then .nan false else decodeFin mb emin (v.testBit width) mag
  | .int bits signed frac => ofInt (if signed then signedOf bits (v % 2 ^ bits) else (v % 2 ^ bits : Nat)) (-frac)
  | .tern =>
    match v % 4 with
    | 1 => .fin false 1 0
    | 3 => .fin true 1 0
    | _ => .fin false 0 0
  | .bin => .fin (v % 2 == 0) 1 0
  | .ps8 => ofInt (psTerm (v.testBit 7) (v / 16 % 8) + psTerm (v.testBit 3) (v % 8)) (-6)
  | .ps4 => ofInt (psTerm (v.testBit 3) (v % 8)) (-6)

/-- The FMTE condition: TERN's code 0b10 (R290, R296). -/
def Elem.bad (k : Elem) (v : Nat) : Bool :=
  match k with
  | .tern => v % 4 == 2
  | .ieee _ | .tight _ _ _ _ | .int _ _ _ | .bin | .ps8 | .ps4 => false

/-- The value of a scale byte (R291); 1 for a format without blocks. -/
def ScaleFmt.read (s : ScaleFmt) (b : Nat) : Num :=
  match s with
  | .none => .fin false 1 0
  | .e8m0 => if b = 255 then .nan false else .fin false 1 ((b : Int) - 127)
  | .e4m3 => elE4.read b

/-- The exact product of an element and its scale; 0 × infinity does not arise, and NaN wins. -/
def scaled (x s : Num) : Num := (x.mul s).getD (.nan false)

/-- m × 2^e ÷ den, as a longer significand, an exponent, and whether the exact value lies above it. -/
def quotient (m den : Nat) (e : Int) : Nat × Int × Bool :=
  if den = 1 then (m, e, false) else (m * 2 ^ 64 / den, e - 64, m * 2 ^ 64 % den != 0)

/-- Writes the value x ÷ den into an element (R297): the code and the flags. -/
def Elem.write (k : Elem) (rm : Rm) (nosat : Bool) (x : Num) (den : Nat) : Nat × Nat :=
  match k with
  | .ieee f =>
    let sat := f == fE5 && !nosat
    match x with
    | .nan s => (f.qnan, if s then fNV else 0)
    | .inf n => if sat then (f.signBit n + (f.infCode - 1), fOF) else (f.signBit n + f.infCode, 0)
    | .fin n m e =>
      let q := quotient m den e
      if sat then
        if m = 0 then (f.signBit n, 0)
        else
          let r := roundSig f.mb f.emin rm n q.1 q.2.1 q.2.2
          if f.infCode ≤ r.code then (f.signBit n + (f.infCode - 1), fOF + fNX)
          else (f.signBit n + r.code, if r.inexact then (if r.tiny then fUF + fNX else fNX) else 0)
      else f.round rm false n q.1 q.2.1 q.2.2
  | .tight mb emin max nan =>
    let sign := fun (n : Bool) => if n then 2 ^ bitLen max else 0
    match x with
    | .nan s =>
      match nan with
      | some c => (c, if s then fNV else 0)
      | Option.none => (max, fNV)
    | .inf n => (sign n + max, fOF)
    | .fin n m e =>
      let q := quotient m den e
      if m = 0 then (sign n, 0)
      else
        let r := roundSig mb emin rm n q.1 q.2.1 q.2.2
        if max < r.code then (sign n + max, fOF + fNX)
        else (sign n + r.code, if r.inexact then (if r.tiny then fUF + fNX else fNX) else 0)
  | .int bits signed frac =>
    let lo : Int := if signed then -(2 ^ (bits - 1)) else 0
    let hi : Int := if signed then 2 ^ (bits - 1) - 1 else 2 ^ bits - 1
    let code := fun (v : Int) => (v % 2 ^ bits).toNat
    match x with
    | .nan _ => (0, fNV)
    | .inf n => (code (if n then lo else hi), fNV)
    | .fin n m e =>
      let q := quotient m den (e + frac)
      let r := roundShift rm n q.1 (-q.2.1) q.2.2
      let v : Int := if n then -(r.1 : Int) else r.1
      if v < lo then (code lo, fNV) else if hi < v then (code hi, fNV) else (code v, if r.2 then fNX else 0)
  | .tern | .bin | .ps8 | .ps4 => (0, 0)

/-! Block scales (R298). -/

/-- The exponent of the largest normal binade of an element (R298). -/
def elemEmax (code : Nat) : Int :=
  match code with
  | 8 => 8
  | 9 => 15
  | 10 => 4
  | 11 | 12 => 2
  | _ => 0

/-- The largest finite element of an S16 format (R298). -/
def elemLargest (code : Nat) : Nat :=
  match code with
  | 14 => 6
  | 15 => 448
  | _ => 7

/-- The least positive E4M3 code whose value times `m` is at or above amax (R298). -/
def leastE4 (m : Nat) (amax : Num) (codes : List Nat) : Nat :=
  match codes with
  | [] => 0x7E
  | c :: t =>
    match elE4.read c with
    | .fin n v e => if (Num.fin n (v * m) e).cmp amax ≥ 0 then c else leastE4 m amax t
    | .nan _ | .inf _ => leastE4 m amax t

/-- The greatest finite magnitude of a block. -/
def amaxOf (xs : List Num) : Num :=
  xs.foldl (fun a x => match x with
    | .fin _ m e => if (Num.fin false m e).cmp a > 0 then .fin false m e else a
    | .nan _ | .inf _ => a) (.fin false 0 0)

/-- The scale byte of a block (R298). -/
def blockScale (code : Nat) (xs : List Num) : Nat :=
  let nan := xs.any Num.isNan
  let amax := amaxOf xs
  match ((fmtRow code).map (·.scale)).getD .none with
  | .none => 0
  | .e8m0 =>
    if nan then 0xFF
    else
      match amax with
      | .fin _ m e =>
        if m = 0 then 127
        else (max (-127) (min 127 (e + bitLen m - 1 - elemEmax code)) + 127).toNat
      | .nan _ | .inf _ => 127
  | .e4m3 =>
    if nan then 0x7F
    else if amax.isZero then 0x38
    else leastE4 (elemLargest code) amax ((List.range 0x7E).map (· + 1))

/-- Divides by a scale and writes (R298); under a NaN scale every quotient is NaN (log 23). -/
def writeScaled (code : Nat) (x scale : Num) : Nat :=
  match scale with
  | .fin _ m e =>
    match x with
    | .fin n k f => ((elemOf code).write .rne false (.fin n k (f - e)) m).1
    | .nan _ | .inf _ => ((elemOf code).write .rne false x 1).1
  | .nan _ | .inf _ => ((elemOf code).write .rne false (.nan false) 1).1

/-! Sums (R295). -/

/-- The exact sum S of a run's products: none where it is NaN (R295). An exact zero is +0. -/
def runSum (ps : List (Option Num)) : Num :=
  let step := fun (a : Num) (p : Option Num) =>
    match p with
    | none => Num.nan false
    | some x => (a.add .rne x).getD (.nan false)
  match ps.foldl step (.fin false 0 0) with
  | .fin n m e => if m = 0 then .fin false 0 0 else .fin n m e
  | x => x

/-- One element of an FP32 accumulator takes a run's sum (R295). -/
def accFloat (acc : W32) (sum : Num) : W32 :=
  let r := (f32.write .rne false sum).1
  BitVec.ofNat 32 (f32.add .rne false acc.toNat r).1

/-- One element of an INT32 accumulator takes a run's sum; the Bool says that it was clamped (R295). -/
def accInt (acc : W32) (sum : Num) : W32 × Bool :=
  let s : Int := match sum with
    | .fin n m e => (if n then -1 else 1) * (m * 2 ^ e.toNat : Nat)
    | .nan _ | .inf _ => 0
  let v := acc.toInt + s
  if v < -2147483648 then (0x80000000, true)
  else if 2147483647 < v then (0x7FFFFFFF, true)
  else (BitVec.ofInt 32 v, false)

/-- The classes and formats of R293 pair; the answer says whether the accumulator is INT32. -/
def pairing (fa fb : Nat) : Option Bool :=
  match fmtRow fa, fmtRow fb with
  | some a, some b =>
    let withP := fun f => f == 17 || f == 3 || f == 4 || f == 1 || f == 2
    match a.cls, b.cls with
    | .float, .float => some false
    | .int, .int => some true
    | .power, .float | .power, .int => if withP fb then some false else Option.none
    | .float, .power | .int, .power => if withP fa then some false else Option.none
    | .power, .power | .float, .int | .int, .float => Option.none
  | _, _ => Option.none

/-- The K step of a command (R287). -/
def kStep (fa fb : Nat) : Nat :=
  match fmtRow fa, fmtRow fb with
  | some a, some b => min a.nativeK b.nativeK
  | _, _ => 0

end Sys2Proof.Machine
end

