-- ==== Sys2Proof/Machine/Memory.lean ====
section
/-! DEFINITION. Accesses in flight: what each does to memory when it is performed, when it may be, and what its completion
writes (R37, R196 to R213, R243 to R251). -/

namespace Sys2Proof.Machine

/-- A place in a byte-addressed space, read. -/
def State.readPlace (s : State) (pl : Space × Nat) (n : Nat) : List Byte :=
  match pl.1 with
  | .hbm => s.hbmRead pl.2 n
  | .spad c => s.spadRead c pl.2 n
  | .tile _ _ => []

/-- A byte of the place has failing check bits (R238). -/
def State.badPlace (s : State) (pl : Space × Nat) (n : Nat) : Bool :=
  match pl.1 with
  | .hbm => s.hbmBadIn pl.2 n
  | .spad c => s.spadBadIn c pl.2 n
  | .tile c t => (s.core c).tileBad.contains (t, pl.2)

/-- A place written by `own`, a group's split by its number + 4 × its life. -/
def State.writePlace (s : State) (own : Option (Nat × Nat)) (pl : Space × Nat) (bs : List Byte) : State :=
  match pl.1 with
  | .hbm => s.hbmWrite own pl.2 bs
  | .spad c => s.spadWrite c pl.2 bs
  | .tile _ _ => s

/-- Words, lowest first, of a little-endian number. -/
def wordsOf (n v : Nat) : List W32 :=
  match n with
  | 0 => []
  | k + 1 => BitVec.ofNat 32 v :: wordsOf k (v / 2 ^ 32)

/-- The number that some words hold, lowest first. -/
def natOfWords (ws : List W32) : Nat :=
  match ws with
  | [] => 0
  | w :: t => w.toNat + 2 ^ 32 * natOfWords t

/-- The bytes of a load or store size (R199). -/
def szBytes (sz : Nat) : Nat :=
  match sz with
  | 0 => 4
  | 1 | 2 => 1
  | 3 | 4 => 2
  | 5 => 8
  | _ => 16

/-- The lane words of a loaded number (R199). -/
def extendLoad (sz v : Nat) : List W32 :=
  match sz with
  | 1 => [(BitVec.ofNat 8 v).signExtend 32]
  | 3 => [(BitVec.ofNat 16 v).signExtend 32]
  | 5 => wordsOf 2 v
  | 6 => wordsOf 4 v
  | _ => [BitVec.ofNat 32 v]

/-- The integer atomics on w-bit values (R155, R201). -/
def aopInt {w : Nat} (aop : Nat) (old c cmp : BitVec w) : BitVec w :=
  match aop with
  | 0 => old + c
  | 1 => old &&& c
  | 2 => old ||| c
  | 3 => old ^^^ c
  | 4 => c
  | 5 => if old = cmp then c else old
  | 6 => smin old c
  | 7 => smax old c
  | 8 => umin old c
  | _ => umax old c

/-- Aop (R201): the new value of `n` bytes. -/
def aopNew (aop : Nat) (w64 : Bool) (old c cmp : Nat) : Nat :=
  if aop = 10 then (f32.add .rne false old c).1
  else if w64 then (aopInt aop (BitVec.ofNat 64 old) (BitVec.ofNat 64 c) (BitVec.ofNat 64 cmp)).toNat
  else (aopInt aop (BitVec.ofNat 32 old) (BitVec.ofNat 32 c) (BitVec.ofNat 32 cmp)).toNat

/-- ATOMS' function as an AOP (R155). -/
def atomsAop (fn : Nat) : Nat :=
  match fn with
  | 0 => 0
  | 1 => 1
  | 2 => 2
  | 3 => 4
  | 4 => 5
  | 5 => 6
  | _ => 7

/-- The access reads memory or an accumulator tile and meets its errors (R238). -/
def AccOp.checks (o : AccOp) : Bool :=
  match o with
  | .load _ | .atom _ _ _ | .lres _ | .accrd _ _ | .accerm _ | .lds | .atoms _ => true
  | .store | .scond _ | .accwr _ | .glean _ | .recput _ | .sts => false

/-- KIND of R232. -/
def AccOp.kind (o : AccOp) : Nat :=
  match o with
  | .load _ | .lres _ | .glean _ | .accrd _ _ | .accerm _ => 0
  | .store | .scond _ | .accwr _ | .recput _ => 1
  | .atom _ _ _ => 2
  | .lds | .sts | .atoms _ => 4

/-- A load or returning atomic, for FENCE's table (R162). -/
def AccOp.returns (o : AccOp) : Bool :=
  match o with
  | .load _ | .lres _ | .scond _ | .accrd _ _ | .accerm _ | .glean _ | .recput _ | .lds | .atoms _ => true
  | .atom _ _ ret => ret
  | .store | .accwr _ | .sts => false

/-- The access needs R and W of its leaf (R197, R156). -/
def AccOp.need (o : AccOp) : Need :=
  match o with
  | .load _ | .lres _ | .glean _ | .lds => { r := true }
  | .store | .scond _ | .sts | .recput _ => { w := true }
  | .atom _ _ _ | .atoms _ => { r := true, w := true }
  | .accrd _ _ | .accwr _ | .accerm _ => {}

def LaneAcc.done (l : LaneAcc) : Bool := l.result.isSome

/-- Every lane has been performed. -/
def Access.performed (a : Access) : Bool := a.lanes.all LaneAcc.done

/-- A lower lane of this SCOND succeeded in the same granule (R202). -/
def granuleTaken (ls : List LaneAcc) (l : LaneAcc) (gr : Nat) : Bool :=
  ls.any (fun k => decide (k.lane < l.lane) && k.result.map (·.head?) == some (some 0) &&
    (match k.place with
     | some (_, p) => p / 64 == gr
     | none => false))

/-- The issuing split, told from the others that have had its number (R203). -/
def Access.agent (a : Access) : Nat := a.split + 4 * a.life

/-- A higher lane of the store has written byte `i` of this lane's place before it: the lane waited at a fault (R200). -/
def Access.covered (a : Access) (l : LaneAcc) (pl : Space × Nat) (i : Nat) : Bool :=
  a.lanes.any (fun k => decide (l.lane < k.lane) && k.done && (match k.place with
    | some (sp, y) => sp == pl.1 && decide (y ≤ pl.2 + i) && decide (pl.2 + i < y + k.size)
    | none => false))

/-- A lane of a store writes its bytes, but for those that a higher lane has supplied (R200). -/
def State.storeLane (s : State) (g : Nat) (a : Access) (l : LaneAcc) (pl : Space × Nat) : State :=
  let bs := leBytes l.size (natOfWords l.data)
  if (List.range l.size).any (a.covered l pl) then
    ((List.range l.size).zip bs).foldl (fun t p => if a.covered l pl p.1 then t else t.writePlace (some (g, a.agent)) (pl.1, pl.2 + p.1) [p.2]) s
  else s.writePlace (some (g, a.agent)) pl bs

/-- PERFORMING one lane of an access at its place (R199 to R206, R332, R155): the memory changes, and the lane's result. -/
def State.performAt (s : State) (g : Nat) (a : Access) (l : LaneAcc) (pl : Space × Nat) : State × List W32 :=
  let own := some (g, a.agent)
  let sp := a.split
  let key := l.lane + 64 * a.life
  let old := leNat (s.readPlace pl l.size)
  match a.op with
  | .load sz => (s, extendLoad sz old)
  | .store => (s.storeLane g a l pl, [])
  | .atom aop w64 _ =>
    (s.writePlace own pl (leBytes l.size (aopNew aop w64 old (natOfWords l.data) (natOfWords l.cmp))),
     wordsOf (if w64 then 2 else 1) old)
  | .lres w64 =>
    (s.modSplit g sp (fun p => { p with resv := p.resv.put key (pl.2 / 64) }), wordsOf (if w64 then 2 else 1) old)
  | .scond w64 =>
    let ok := (s.split g sp).resv.find key == some (pl.2 / 64) && !granuleTaken a.lanes l (pl.2 / 64)
    let s1 := if ok then s.writePlace own pl (leBytes l.size (natOfWords l.data)) else s
    (s1.modSplit g sp (fun p => { p with resv := p.resv.erase key }), (if ok then 0 else 1) :: (if w64 then [0] else []))
  | .accrd t norm =>
    let k := s.tile (s.grp g).core t
    (s, [if norm && k.erm.getLsbD (pl.2 / 128) then 0 else k.elems.get 0 pl.2])
  | .accwr t =>
    let c := (s.grp g).core
    let k := s.tile c t
    ((s.setTile c t { k with elems := k.elems.put pl.2 (l.data.headD 0) }).modCore c (fun k => { k with
      tileBad := k.tileBad.filter (· != (t, pl.2)) }), [])
  | .accerm t => (s, [(s.tile (s.grp g).core t).erm.extractLsb' (32 * (pl.2 % 4)) 32])
  | .glean _ | .recput _ => (s, l.data)
  | .lds => (s, wordsOf 2 old)
  | .sts => (s.writePlace own pl (leBytes 8 (natOfWords l.data)), [])
  | .atoms fn => (s.writePlace own pl (leBytes 8 (aopNew (atomsAop fn) true old (natOfWords l.data) (natOfWords l.cmp))), wordsOf 2 old)

/-- Performs the listed lanes of an access, ascending, those that are not performed yet and that have a place. -/
def State.performLanes (s : State) (g : Nat) (a : Access) (which : LaneAcc → Bool) : State × Access :=
  a.lanes.foldl (fun (t : State × Access) l =>
    match l.place with
    | some pl =>
      if !l.done && which l then
        let r := t.1.performAt g t.2 l pl
        (r.1, { t.2 with lanes := t.2.lanes.map (fun k => if k.lane = l.lane then { k with result := some r.2 } else k) })
      else t
    | none => t) (s, a)

/-- A read with NORM meets an error of its row's ERM word (R238, R332). -/
def State.badErm (s : State) (op : AccOp) (pl : Space × Nat) : Bool :=
  match op, pl.1 with
  | .accrd _ true, .tile c t => (s.core c).tileBad.contains (t, 16384 + pl.2 / 4096)
  | _, _ => false

/-- A lane of an access would meet an uncorrectable error at a place. -/
def State.badFor (s : State) (op : AccOp) (l : LaneAcc) (pl : Space × Nat) : Bool := s.badPlace pl l.size || s.badErm op pl

/-- The first lane that would meet an uncorrectable error. -/
def State.badLane (s : State) (a : Access) : Option LaneAcc :=
  if a.op.checks then
    a.lanes.find? (fun l => !l.done && (match l.place with
      | some pl => s.badFor a.op l pl
      | none => false))
  else none

/-- Puts an access back in its group. -/
def State.setAccess (s : State) (g : Nat) (a : Access) : State :=
  s.modGrp g (fun x => { x with acc := x.acc.map (fun b => if b.id = a.id then a else b) })

/-- A physical address to report for a place. -/
def placePa (pl : Option (Space × Nat)) : Nat := (pl.map (·.2)).getD 0

/-- Performs what the access can be performed of. A lane that meets an uncorrectable error is a machine check in the group, and
whether each other lane was performed is left open (R213). -/
def State.performAccess (s : State) (g : Nat) (a : Access) : Except State (State × Access) :=
  match s.badLane a with
  | none => .ok (s.performLanes g a (fun _ => true))
  | some l =>
    let n := s.freeNo
    let t := ({ s with freeNo := n + 1 } : State).performLanes g a (fun k =>
      Config.lanePerformed n k.lane && !(match k.place with
        | some pl => s.badFor a.op k pl
        | none => true))
    .error (t.1.machineCheck g a.split (placePa l.place) l.va.toNat a.addr
      (if a.op.kind = 4 then 0 else 1#64 <<< l.lane) (if a.op.kind = 4 then 0xFF else l.lane))

/-- Two placed lanes touch a common byte, or a common element (R243). -/
def LaneAcc.meets (a b : LaneAcc) : Bool :=
  match a.place, b.place with
  | some (p, x), some (q, y) => p == q && decide (x < y + b.size) && decide (y < x + a.size)
  | _, _ => false

/-- Two accesses touch a common location. -/
def Access.meets (a b : Access) : Bool := a.lanes.any (fun l => b.lanes.any (fun k => l.meets k))

/-- An LRES or an SCOND; those of one split take their reservations in program order (R202). -/
def AccOp.reserves (o : AccOp) : Bool :=
  match o with
  | .lres _ | .scond _ => true
  | .load _ | .store | .atom _ _ _ | .accrd _ _ | .accwr _ | .accerm _ | .glean _ | .recput _ | .lds | .sts | .atoms _ => false

/-- The earlier access `b` of the group has to be performed before `a` (R202, R210, R248). -/
def Access.precedes (b a : Access) : Bool :=
  b.acq || a.rel || (b.agent == a.agent && (b.meets a || (b.op.reserves && a.op.reserves)))

/-- A clause enqueued by split `k` before position `pos` of the program order has not issued its last instruction. -/
def Group.clauseBefore (x : Group) (k pos : Nat) : Bool :=
  (x.split k).queue.any (fun e => (match e.kind with
    | .clause _ _ => true
    | .vset _ _ | .mset _ | .fpctl _ => false) && decide (e.no < pos))

/-- The accesses that a BRX or a JOIN of split `sp` puts before access `id`, at place `no` of the program order, are performed, those of
queued clauses included (R250). -/
def Group.bornBefore (x : Group) (sp no id : Nat) : Bool :=
  (x.split sp).born.all (fun q => decide (no < q.2) ||
    (!x.clauseBefore q.1 q.2 && x.acc.all (fun b => b.id == id || b.split != q.1 || decide (q.2 ≤ b.no) || b.performed)))

/-- Those that precede an access are performed (R250). -/
def Group.bornDone (x : Group) (a : Access) : Bool := x.bornBefore a.split a.no a.id

/-- The earlier accesses of the group let this one be performed now (R202, R210, R248, R250). -/
def Group.mayPerform (x : Group) (a : Access) : Bool :=
  (x.acc.takeWhile (fun b => b.id != a.id)).all (fun b => b.performed || !b.precedes a) && x.bornDone a

/-- What an access writes when it completes: its destination registers, for all its lanes together (R37, R66), and GLEAN's mask
(R342). -/
def Group.landed (x : Group) (a : Access) : Group :=
  let act : W64 := a.lanes.foldl (fun m l => m ||| (1#64 <<< l.lane)) 0
  let word := fun (l i : Nat) => (((a.lanes.find? (fun k => k.lane == l)).bind (·.result)).getD []).getD i 0
  let regs := (List.range a.dcount).map (fun i => (a.dst + i, LaneReg.g ((List.range x.desc.w).map (fun l => word l i))))
  let y := x.writeRegs act regs
  if a.mreg = 0 then y
  else
    let m : W64 := a.lanes.foldl (fun m l => if word l.lane 1 = 0 then m else m ||| (1#64 <<< l.lane)) 0
    y.writeMask act (some (a.mreg, m))

/-- A completed access leaves its group: results land, its flag clears and its counter falls (R37, R73, R96). -/
def Group.retire (x : Group) (a : Access) : Group :=
  let y := (x.landed a).flagDown a.flag
  ({ y with acc := y.acc.filter (fun b => b.id != a.id) }).countReturn a.id

/-- A lane's access (not a scalar's). -/
def AccOp.isLane (o : AccOp) : Bool :=
  match o with
  | .lds | .sts | .atoms _ => false
  | .load _ | .store | .atom _ _ _ | .lres _ | .scond _ | .accrd _ _ | .accwr _ | .accerm _ | .glean _ | .recput _ => true

/-- An access leaves its group without a result: it has met an uncorrectable error (R213). -/
def State.dropAccess (s : State) (g id : Nat) : State := s.modGrp g (fun x => { x with acc := x.acc.filter (fun b => b.id != id) })

/-! Issue. -/

/-- What a lane memory instruction asks for: the place of a lane's address when its space is not translated. -/
structure Plan where
  op : AccOp
  ctr : Option Nat
  lanes : List LaneAcc
  dst : Nat := 0
  dcount : Nat := 0
  mreg : Nat := 0
  acq : Bool := false
  rel : Bool := false
  scope : Nat := 0

/-- A command of the split with ACQ that precedes program position `no` holds the split's accesses (R263). -/
def acqOf (i : Instr) : Bool :=
  match seOpsOf i with
  | some o => o.acq
  | none => false

def State.heldByAcq (s : State) (g sp no : Nat) : Bool :=
  (s.core (s.grp g).core).queues.any (fun q => q.2.any (fun m =>
    m.group == g && m.split == sp && m.ctx.isNone && decide (m.id < no) && acqOf m.row))

/-- Every access in flight that a fence with these flags waits for has been performed (R162). -/
def Group.fenced (x : Group) (acq rel : Bool) : Bool :=
  x.acc.all (fun a => a.performed || !(rel || (acq && a.op.returns)))

/-- Translates the lanes of a global access, lane by lane: the lanes, or the address at which the walker met an error. -/
def State.translateLanes (s : State) (core : Nat) (need : Need) (ls : List LaneAcc) : State × Except (Nat × LaneAcc) (List LaneAcc) :=
  ls.foldl (fun (t : State × Except (Nat × LaneAcc) (List LaneAcc)) l =>
    match t.2 with
    | .error e => (t.1, .error e)
    | .ok done =>
      match l.place with
      | some _ => (t.1, .ok (done ++ [l]))
      | none =>
        match t.1.translate (some core) l.va need with
        | (u, .ok pa) => (u, .ok (done ++ [{ l with place := some (.hbm, pa) }]))
        | (u, .fault c) => (u, .ok (done ++ [{ l with fault := some c }]))
        | (u, .check pa) => (u, .error (pa, l))) (s, .ok [])

/-- The 4 KiB page of a virtual address. -/
def pageOf (va : W64) : Nat := va.toNat % 2 ^ 56 / 4096

/-- A faulted lane that has no record yet; a scalar access has one lane, and its record names none (R156, R232). -/
def State.unrecorded (s : State) (g : Nat) (a : Access) (l : LaneAcc) : Bool :=
  l.waiting && !(s.frecs.any (fun r => r.holds && r.owner == .access g a.split a.id && (!a.op.isLane || r.lanes.getLsbD l.lane)))

/-- Records the faulted lanes of an access, one record a page in ascending order of their lowest lane, as far as there is room
(R229, R230). -/
def recordFaults (fuel : Nat) (s : State) (g : Nat) (a : Access) : State :=
  match fuel with
  | 0 => s
  | k + 1 =>
    let x := s.grp g
    match a.lanes.find? (s.unrecorded g a) with
    | none => s
    | some l =>
      if !s.recordRoom g x.core then s
      else
        let mine := a.lanes.filter (fun j => s.unrecorded g a j && pageOf j.va == pageOf l.va)
        let mask : W64 := if a.op.isLane then mine.foldl (fun m j => m ||| (1#64 <<< j.lane)) 0 else 0
        recordFaults k (s.addRecord (.access g a.split a.id) x.core a.op.kind a.split (l.fault.getD 0) x.slotNo 0 0 l.va mask a.addr) g a

/-- A fault on an SCOND's lane clears its reservation (R203). -/
def State.faultedScond (s : State) (g : Nat) (a : Access) : State :=
  match a.op with
  | .scond _ => s.modSplit g a.split (fun p => { p with
      resv := p.resv.filter (fun r => !a.lanes.any (fun l => l.waiting && l.lane + 64 * a.life == r.1)) })
  | _ => s

/-- The faulted lanes of an access take their records, and the group parks; without room for one the access waits at translation, as one
that has not returned (R229, R230). -/
def State.recordAccess (s : State) (g : Nat) (a : Access) : State :=
  if s.recordRoom g (s.grp g).core then (recordFaults 64 s g a).park g else s

/-- An access that has translated goes past issue; with a faulted lane its other lanes are performed at once, and the group
parks (R212, R229). `none`: it has to wait. -/
def State.launchAccess (s : State) (g : Nat) (a : Access) (after : State → State) : Option State :=
  let put := fun (t : State) => after (t.modGrp g (fun x => { (x.flagUp a.flag).countUp a.ctr a.id with acc := x.acc ++ [a] }))
  if a.lanes.any LaneAcc.waiting then
    if !(s.grp g).mayPerform a then none
    else
      match (put s).performAccess g a with
      | .error t => some (t.dropAccess g a.id)
      | .ok (t, b) => some (((t.setAccess g b).faultedScond g b).recordAccess g b)
  else some (put s)

/-- A save has laid out the group's area: its accesses are listed there and stay as they are (R81). -/
def Group.laidOut (x : Group) : Bool := x.st == .yielding && !x.area.isEmpty

/-- A long-latency lane access completes, when every lane has its place and the order allows it (R37, R248); one that waits at a fault
without a record takes it when one frees (R230). -/
def State.completeAccess (s : State) (g id : Nat) : State :=
  match (s.grp g).acc.find? (fun a => a.id == id) with
  | none => s
  | some a =>
    if !a.op.isLane || (s.grp g).laidOut then s
    else if a.lanes.any (s.unrecorded g a) then s.recordAccess g a
    else if (match a.op with
        | .recput _ => !a.performed
        | _ => false) || a.lanes.any LaneAcc.waiting || !(s.grp g).mayPerform a then s
    else
      match s.performAccess g a with
      | .error t => t.dropAccess g id
      | .ok (t, b) => t.modGrp g (fun x => x.retire b)

/-- LONG_LATENCY_COMPLETION (R37). -/
def execLongLatencyCompletion (g acc : Nat) (s : State) : Out := s.eventDo (fun t => t.completeAccess g acc)

/-- The front of a lane access after R104's checks: the shape trap, an empty active set (R211), a full counter, the hold of an
ACQ command or of a faulted access, translation, and the access in flight. -/
def State.issueAccess (s : State) (e : LaneEnv) (o : LaneOps) (p : Plan) : State :=
  let g := e.g
  if (List.range p.dcount).any (fun i => e.x.shapeBad e.act (p.dst + i) (.g [])) then s.takeTrap 0x14 e.act 0
  else if e.act = 0 then
    if e.x.fenced p.acq p.rel then (s.setGrp g e.x).laneAdvance g e.sp e.handler e.run else s
  else if e.x.counterFull p.ctr || s.heldByAcq g e.sp e.run.no || e.x.faulted then s
  else
    let u := (s.setGrp g e.x).fresh
    match u.2.translateLanes e.x.core p.op.need p.lanes with
    | (t, .error (pa, l)) => t.machineCheck g e.sp pa l.va.toNat (clauseAt e.run.addr e.run.off) (1#64 <<< l.lane) l.lane
    | (t, .ok ls) =>
      let a : Access := { id := u.1, split := e.sp, op := p.op, lanes := ls, dst := p.dst, dcount := p.dcount, mreg := p.mreg,
                          flag := e.run.flagOf o.fl, ctr := p.ctr, acq := p.acq, rel := p.rel, scope := p.scope,
                          addr := clauseAt e.run.addr e.run.off, no := e.run.no, life := (s.split g e.sp).life }
      (t.launchAccess g a (fun v => v.laneAdvance g e.sp e.handler (e.run.noted e.x p.dst p.dcount p.mreg))).getD s

/-- A lane memory instruction. -/
def State.laneAccess (s : State) (op : Nat) (o : LaneOps) (f : LaneEnv → Plan) : Out :=
  match s.laneFront op o with
  | .error r => r
  | .ok e => .next (s.issueAccess e o (f e))

end Sys2Proof.Machine
end

