-- ==== Sys2Proof/Machine/ScalarMem.lean ====
section
/-! DEFINITION. LDS, STS, ATOMS and GCOND: the scalar stream's accesses to global memory, for a group and for a service core
(R153 to R156, R92, R368, R425). -/

namespace Sys2Proof.Machine

/-- Addr of R153. -/
def scalarAddr (ea : W64) : W64 := ((ea >>> 3) <<< 3).setWidth 56 |>.setWidth 64

/-- Something earlier than this point of a split's program holds a scalar access back: clauses that have not issued (R154), an
ACQ command (R263), an access that waits at a fault (R229). -/
def State.scalarHeld (s : State) (g sp : Nat) : Bool :=
  !(s.split g sp).clausesDone || s.heldByAcq g sp s.nextId || (s.grp g).faulted

/-- A scalar access of a group goes on (R154, R156): it translates, or parks the group. -/
def State.scalarAccess (s : State) (g sp : Nat) (op : AccOp) (ea : W64) (d : BitVec 6) (ret : Bool) (data cmp : W64) : State :=
  if s.scalarHeld g sp then s.stallAs .held
  else
    let x := s.grp g
    let va := scalarAddr ea
    let u := s.fresh
    match u.2.translate (some x.core) va op.need with
    | (t, .check pa) => t.machineCheck g sp pa va.toNat s.pc 0 0xFF
    | (t, r) =>
      let l : LaneAcc := { lane := 0, va := va, place := match r with
                             | .ok pa => some (.hbm, pa)
                             | .fault _ | .check _ => none
                           size := 8, data := wordsOf 2 data.toNat, cmp := wordsOf 2 cmp.toNat, result := none
                           fault := match r with
                             | .fault c => some c
                             | .ok _ | .check _ => none }
      let a : Access := { id := u.1, split := sp, op := op, lanes := [l], dst := if ret then d.toNat else 0, dcount := 0, mreg := 0,
                          flag := none, ctr := none, acq := false, rel := false, scope := 0, addr := s.pc, no := u.1,
                          life := (s.split g sp).life }
      (t.launchAccess g a State.advance).getD (s.stallAs .held)

/-- A doubleword access of a service core is performed at once; a fault traps it with 0x20 and an uncorrectable error with 0x19
(R425). -/
def State.serviceAccess (s : State) (need : Need) (ea : W64) (f : State → Nat → State) : State :=
  let va := scalarAddr ea
  match s.translate none va need with
  | (t, .fault _) => t.takeTrap 0x20 0 va
  | (t, .check pa) => (t.noteCheck pa va.toNat s.pc.toNat 0xFF 0xFF 0xFF).takeTrap 0x19 0 (BitVec.ofNat 64 pa)
  | (t, .ok pa) =>
    if need.r && t.hbmBadIn pa 8 then (t.noteCheck pa va.toNat s.pc.toNat 0xFF 0xFF 0xFF).takeTrap 0x19 0 (BitVec.ofNat 64 pa)
    else (f t pa).advance

/-- LDS (R153). -/
def execLds (d a : BitVec 6) (i : BitVec 14) (s : State) : Out :=
  match s.cur with
  | .service _ => .next (s.serviceAccess { r := true } (s.sreg a + i.signExtend 64)
      (fun t pa => t.setSreg d (BitVec.ofNat 64 (t.hbmNat pa 8))))
  | .device | .scalar _ _ | .lane _ _ | .engine _ _ | .halyard _ _ =>
    s.groupDo [d, a] (fun g sp t => t.scalarAccess g sp .lds (t.sreg a + i.signExtend 64) d true 0 0)

/-- STS (R153). -/
def execSts (d a : BitVec 6) (i : BitVec 14) (s : State) : Out :=
  match s.cur with
  | .service _ => .next (s.serviceAccess { w := true } (s.sreg a + i.signExtend 64)
      (fun t pa => t.hbmPut none pa 8 (t.sreg d).toNat))
  | .device | .scalar _ _ | .lane _ _ | .engine _ _ | .halyard _ _ =>
    s.groupDo [d, a] (fun g sp t => t.scalarAccess g sp .sts (t.sreg a + i.signExtend 64) 0 false (t.sreg d) 0)

/-- ATOMS (R155). -/
def State.atoms (s : State) (fn : Nat) (d a b : BitVec 6) : Out :=
  match s.cur with
  | .service _ => .next (s.serviceAccess { r := true, w := true } (s.sreg a) (fun t pa =>
      let old := t.hbmNat pa 8
      (t.hbmPut none pa 8 (aopNew (atomsAop fn) true old (t.sreg b).toNat (t.sreg d).toNat)).setSreg d (BitVec.ofNat 64 old)))
  | .device | .scalar _ _ | .lane _ _ | .engine _ _ | .halyard _ _ =>
    s.groupDo [d, a, b] (fun g sp t => t.scalarAccess g sp (.atoms fn) (t.sreg a) d true (t.sreg b) (t.sreg d))

/-- ATOMS.ADD (R155). -/
def execAtomsAdd (d a b : BitVec 6) (s : State) : Out := s.atoms 0 d a b
/-- ATOMS.AND (R155). -/
def execAtomsAnd (d a b : BitVec 6) (s : State) : Out := s.atoms 1 d a b
/-- ATOMS.OR (R155). -/
def execAtomsOr (d a b : BitVec 6) (s : State) : Out := s.atoms 2 d a b
/-- ATOMS.XCHG (R155). -/
def execAtomsXchg (d a b : BitVec 6) (s : State) : Out := s.atoms 3 d a b
/-- ATOMS.CAS (R155). -/
def execAtomsCas (d a b : BitVec 6) (s : State) : Out := s.atoms 4 d a b
/-- ATOMS.MIN (R155). -/
def execAtomsMin (d a b : BitVec 6) (s : State) : Out := s.atoms 5 d a b
/-- ATOMS.MAX (R155). -/
def execAtomsMax (d a b : BitVec 6) (s : State) : Out := s.atoms 6 d a b

/-- An LDS or ATOMS returns to its register, or an STS is performed: the scalar access `id` of the group, when the order allows
it (R153, R248). `back` says which of the two events it is. -/
def State.scalarComplete (s : State) (g id : Nat) (back : Bool) : State :=
  match (s.grp g).acc.find? (fun a => a.id == id) with
  | none => s
  | some a =>
    let right := match a.op with
      | .lds | .atoms _ => back
      | .sts => !back
      | _ => false
    if !right then s
    else if a.lanes.any (s.unrecorded g a) then s.recordAccess g a
    else if a.lanes.any LaneAcc.waiting || !(s.grp g).mayPerform a then s
    else
      match s.performAccess g a with
      | .error t => t.dropAccess g id
      | .ok (t, b) =>
        let v := BitVec.ofNat 64 (natOfWords ((b.lanes.head?.bind (·.result)).getD []))
        let t1 := if a.dst = 0 then t else t.modSplit g a.split (fun p => { p with regs := p.regs.put a.dst v })
        t1.modGrp g (fun x => { x with acc := x.acc.filter (fun k => k.id != id) })

/-- SCALAR_ACCESS_RETURN (R153). -/
def execScalarAccessReturn (g acc : Nat) (s : State) : Out := s.eventDo (fun t => t.scalarComplete g acc true)

/-- SCALAR_STORE_PERFORMED (R153). -/
def execScalarStorePerformed (g acc : Nat) (s : State) : Out := s.eventDo (fun t => t.scalarComplete g acc false)

end Sys2Proof.Machine
end

