-- ==== Sys2Proof/Machine/Barriers.lean ====
section
/-! DEFINITION. Named barriers (R158 to R160, R253, R256, R344). -/

namespace Sys2Proof.Machine

/-- A change of phase of barrier `b` of core `c` comes to a split's core: a split that waits on the old phase goes on, and one whose wait
began after that change lets it pass (R160). -/
def Split.phaseSeen (p : Split) (c b : Nat) : Split :=
  match p.stall with
  | some (.barrier k n m) =>
    if k = c ∧ n = b then (if m = 0 then { p with spc := p.spc + 4, stall := none } else { p with stall := some (.barrier k n (m - 1)) })
    else p
  | _ => p

/-- A change of phase of barrier `b` of core `c` comes to the groups that `who` names (R160). -/
def State.releaseWaiters (s : State) (c b : Nat) (who : Group → Bool) : State :=
  { s with groups := s.groups.map (fun p =>
      if who p.2 then (p.1, { p.2 with splits := p.2.splits.map (fun q => (q.1, q.2.phaseSeen c b)) }) else p) }

/-- The other cores of the clusters whose rank-0 core is `c`. -/
def State.clusterCores (s : State) (c : Nat) : List Nat :=
  ((s.groups.filter (fun p => p.2.st.resident && p.2.corner == c && p.2.core != c)).map (fun p => p.2.core)).eraseDups

/-- One phase completes (R160): waiters of the core go on, messages leave for the other members, attached jobs become due. -/
def State.phaseDone (s : State) (c n : Nat) : State :=
  let b := s.bar c n
  let ph := !b.phase
  (s.setBar c n { b with
    arrivals := b.arrivals - b.expect
    nbytes := b.nbytes - b.ebytes
    ebytes := 0
    phase := ph
    jobs := []
    due := b.due ++ sortBy (·.core) b.jobs
    msgs := b.msgs ++ (s.clusterCores c).map (fun m => (m, ph)) }).releaseWaiters c n (fun x => x.core == c)

/-- Both conditions of R160 hold. -/
def Barrier.full (b : Barrier) : Bool := decide (b.expect ≤ b.arrivals) && decide (b.ebytes ≤ b.nbytes)

/-- Phases that the carried excess completes after the first; a phase that expects no arrival waits for one (log 25). -/
def phasesFrom (fuel : Nat) (s : State) (c n : Nat) : State :=
  match fuel with
  | 0 => s
  | k + 1 =>
    let b := s.bar c n
    if b.full && b.expect != 0 then phasesFrom k (s.phaseDone c n) c n else s

/-- Tests barrier `n` of core `c` after an arrival, bytes or a change of the expectation (R160). -/
def State.testBar (s : State) (c n : Nat) : State :=
  if (s.bar c n).full then phasesFrom ((s.bar c n).arrivals.toNat) (s.phaseDone c n) c n else s

/-- One arrival (R159). -/
def State.arrive (s : State) (c n : Nat) : State :=
  let b := s.bar c n
  (s.setBar c n { b with arrivals := b.arrivals + 1 }).testBar c n

/-- Bytes arrive (R160, R338). -/
def State.addBytes (s : State) (c n : Nat) (v : BitVec 32) : State :=
  let b := s.bar c n
  (s.setBar c n { b with nbytes := b.nbytes + v }).testBar c n

/-- The expectation rises, modulo 2^32 (R159). -/
def State.expectBytes (s : State) (c n : Nat) (v : BitVec 32) : State :=
  let b := s.bar c n
  (s.setBar c n { b with ebytes := b.ebytes + v }).testBar c n

/-- A barrier instruction of a group (R158): `f` takes the group, the split, the barrier's core and its number. -/
def State.barDo (s : State) (regs : List (BitVec 6)) (a : BitVec 6) (c : BitVec 3) (f : Nat → Nat → Nat → Nat → State → State) : Out :=
  s.groupDo (a :: regs) (fun g sp t =>
    let n := (t.sreg a).toNat
    if !barOk c || 127 < n then t.illegal else f g sp ((t.grp g).barCore c.toNat) n t)

/-- BAR.INIT (R159). -/
def execBarInit (a b : BitVec 6) (c : BitVec 3) (s : State) : Out :=
  s.barDo [b] a c (fun _ _ k n t =>
    let v := t.sreg b
    if v.extractLsb' 48 16 ≠ 0 then t.illegal
    else (t.setBar k n { t.bar k n with
      expect := v.extractLsb' 0 16, ebytes := v.extractLsb' 16 32, arrivals := 0, nbytes := 0, phase := false }).advance)

/-- BAR.EXPECT (R159). -/
def execBarExpect (a b : BitVec 6) (c : BitVec 3) (s : State) : Out :=
  s.barDo [b] a c (fun _ _ k n t => (t.expectBytes k n ((t.sreg b).setWidth 32)).advance)

/-- An arrival of a split waits for what its release covers: its enqueued clauses and its accesses, and those that its BRX or JOIN puts
before them (R159, R250, R253, R263). -/
def State.arriveHeld (s : State) (g sp : Nat) : Bool :=
  s.scalarHeld g sp || !((s.grp g).acc.all (fun a => a.split != sp || a.performed)) || !(s.grp g).bornBefore sp s.nextId s.nextId

/-- BAR.ARRIVE (R159). -/
def execBarArrive (a : BitVec 6) (c : BitVec 3) (s : State) : Out :=
  s.barDo [] a c (fun g sp k n t => if t.arriveHeld g sp then t.stallAs .held else (t.arrive k n).advance)

/-- The split waits already at this barrier (R160). -/
def Split.waitsAt (p : Split) (k n : Nat) : Bool :=
  match p.stall with
  | some (.barrier c b _) => c == k && b == n
  | _ => false

/-- BAR.WAIT (R159, R160): passes when the phase differs from s[B][0], and else waits for the change of phase that follows those still on
their way to its core (log 25); a group that waits for the bytes of a command that a fault has parked is Parked (R233). -/
def execBarWait (a b : BitVec 6) (c : BitVec 3) (s : State) : Out :=
  s.barDo [b] a c (fun g sp k n t =>
    if (t.split g sp).waitsAt k n then t.parkStuck g
    else if (t.bar k n).phase ≠ (t.sreg b).getLsbD 0 then t.advance
    else (t.stallAs (.barrier k n (((t.bar k n).msgs.filter (fun m => m.1 == (t.grp g).core)).length))).parkStuck g)

/-- BAR.TEST (R159). -/
def execBarTest (a b : BitVec 6) (c : BitVec 3) (s : State) : Out :=
  s.barDo [b] a c (fun _ _ k n t => (t.setSreg b (b64 (t.bar k n).phase)).advance)

/-- PHASE_MESSAGE_ARRIVAL: the oldest message in flight to a member core releases that core's waiters (R160). -/
def State.phaseMessage (s : State) (owner n member : Nat) : State :=
  let b := s.bar owner n
  match b.msgs.find? (fun p => p.1 == member) with
  | none => s
  | some m => (s.setBar owner n { b with msgs := b.msgs.erase m }).releaseWaiters owner n (fun x => x.core == member)

/-- PHASE_MESSAGE_ARRIVAL (R160). -/
def execPhaseMessageArrival (owner bar member : Nat) (s : State) : Out := s.eventDo (fun t => t.phaseMessage owner bar member)

end Sys2Proof.Machine
end

