-- ==== Sys2Proof/Machine/LaneInt.lean ====
section
/-! DEFINITION. The integer, bit and comparison lane instructions on 32-bit lanes and pairs (R66, R70, R170 to R174). -/

namespace Sys2Proof.Machine

/-- A word that issues as an L32 form (R99); one whose unused fields are not zero is illegal, as FL = 3 is. -/
def State.shortDo (s : State) (op : Nat) (o : L32Ops) (f : LaneOps → State → Out) : Out :=
  let w := shortToLane op o
  let ok := match laneUses op 0 with
    | none => false
    | some u => shortUnused u.d o.d && shortUnused u.a o.a && shortUnused u.b o.b
  f (if ok then w else { w with fl := 3 }) s

/-- Every register source of the list is U. -/
def allU (rs : List LaneReg) : Bool := rs.all LaneReg.isU

/-- One result register. -/
def effReg (o : LaneOps) (r : LaneReg) : LaneEff := { regs := [(o.d.toNat, r)] }

/-- A pair result: U when every source half is U, else G (R66, R171). -/
def effPair (e : LaneEnv) (o : LaneOps) (uni : Bool) (f : Nat → W64) : LaneEff :=
  { regs := [(o.d.toNat, e.each uni (fun l => (f l).setWidth 32)),
             (o.d.toNat + 1, e.each uni (fun l => (f l).extractLsb' 32 32))] }

/-- An integer instruction of one source (R170). -/
def State.int1 (s : State) (op : Nat) (o : LaneOps) (f : W32 → W32) : Out :=
  s.laneDo op o (fun e => effReg o (e.each (allU e.a) (fun l => f (e.av l))))

/-- An integer instruction of two sources (R170). -/
def State.int2 (s : State) (op : Nat) (o : LaneOps) (f : W32 → W32 → W32) : Out :=
  s.laneDo op o (fun e => effReg o (e.each (allU (e.a ++ e.b)) (fun l => f (e.av l) (e.bv l))))

/-- MOD names the `.b64` form (R168). -/
def isB64 (o : LaneOps) : Bool := o.mod == 32

/-- A bit instruction with a 32-bit and a 64-bit form of one source. -/
def State.bit1 (s : State) (op : Nat) (o : LaneOps) (f : W32 → W32) (f64 : W64 → W64) : Out :=
  s.laneDo op o (fun e =>
    if isB64 o then effPair e o (allU e.a) (fun l => f64 (pairLane e.a l))
    else effReg o (e.each (allU e.a) (fun l => f (e.av l))))

/-- A bit instruction with a 32-bit and a 64-bit form of two sources. -/
def State.bit2 (s : State) (op : Nat) (o : LaneOps) (f : W32 → W32 → W32) (f64 : W64 → W64 → W64) : Out :=
  s.laneDo op o (fun e =>
    if isB64 o then effPair e o (allU (e.a ++ e.b)) (fun l => f64 (pairLane e.a l) (pairLane e.b l))
    else effReg o (e.each (allU (e.a ++ e.b)) (fun l => f (e.av l) (e.bv l))))

/-- A shift: the amount is one register, b[4:0] or b[5:0] (R170, R171). -/
def State.shift (s : State) (op : Nat) (o : LaneOps) (f : W32 → Nat → W32) (f64 : W64 → Nat → W64) : Out :=
  s.laneDo op o (fun e =>
    if isB64 o then effPair e o (allU (e.a ++ e.b)) (fun l => f64 (pairLane e.a l) ((e.bv l).toNat % 64))
    else effReg o (e.each (allU (e.a ++ e.b)) (fun l => f (e.av l) ((e.bv l).toNat % 32))))

/-- Base and stride of U and A registers. -/
def LaneReg.line (r : LaneReg) : Option (W32 × W32) :=
  match r with
  | .u v => some (v, 0)
  | .a b st => some (b, st)
  | .g _ => none

def LaneReg.isA (r : LaneReg) : Bool :=
  match r with
  | .a _ _ => true
  | .u _ | .g _ => false

/-- The sum clamped to the signed or the unsigned range (R170). -/
def clampS (v : Int) : W32 := if v < -2147483648 then 0x80000000 else if 2147483647 < v then 0x7FFFFFFF else BitVec.ofInt 32 v
def clampW (v : Int) : W32 := if v < 0 then 0 else if 4294967295 < v then 0xFFFFFFFF else BitVec.ofInt 32 v

/-- add and sub (R66, R170, R171). -/
def State.addSub (s : State) (op : Nat) (o : LaneOps) (f : W32 → W32 → W32) (f64 : W64 → W64 → W64) (g : Int → Int → Int) : Out :=
  s.laneDo op o (fun e =>
    let a := nth e.a 0
    let b := nth e.b 0
    let sat := o.mod.toNat % 4
    if isB64 o then effPair e o (allU (e.a ++ e.b)) (fun l => f64 (pairLane e.a l) (pairLane e.b l))
    else if sat = 1 then effReg o (e.each (allU [a, b]) (fun l => clampS (g (e.av l).toInt (e.bv l).toInt)))
    else if sat = 2 then effReg o (e.each (allU [a, b]) (fun l => clampW (g (e.av l).toNat (e.bv l).toNat)))
    else
      match a.line, b.line with
      | some (x, sx), some (y, sy) =>
        if a.isA || b.isA then effReg o (.a (f x y) (f sx sy)) else effReg o (.u (f x y))
      | _, _ => effReg o (.g ((List.range e.w).map (fun l => f (e.av l) (e.bv l)))))

/-- mul: the product of a line by a U value is a line (R66). -/
def State.mulLow (s : State) (op : Nat) (o : LaneOps) : Out :=
  s.laneDo op o (fun e =>
    match nth e.a 0, nth e.b 0 with
    | .a x st, .u v => effReg o (.a (x * v) (st * v))
    | .u v, .a x st => effReg o (.a (x * v) (st * v))
    | a, b => effReg o (e.each (allU [a, b]) (fun l => e.av l * e.bv l)))

/-- shl: a line shifted by a U amount is a line (R66). -/
def State.shl (s : State) (op : Nat) (o : LaneOps) : Out :=
  s.laneDo op o (fun e =>
    if isB64 o then effPair e o (allU (e.a ++ e.b)) (fun l => pairLane e.a l <<< ((e.bv l).toNat % 64))
    else
      match nth e.a 0, nth e.b 0 with
      | .a x st, .u v => effReg o (.a (x <<< (v.toNat % 32)) (st <<< (v.toNat % 32)))
      | a, b => effReg o (e.each (allU [a, b]) (fun l => e.av l <<< ((e.bv l).toNat % 32))))

/-- mov keeps the source's shape (R66). -/
def State.movLane (s : State) (op : Nat) (o : LaneOps) : Out :=
  s.laneDo op o (fun e =>
    if isB64 o then effPair e o (allU e.a) (fun l => pairLane e.a l) else effReg o (nth e.a 0))

/-- A comparison writes bits of a mask register (R173). -/
def State.cmpDo (s : State) (op : Nat) (o : LaneOps) (f : LaneEnv → Nat → Bool) : Out :=
  s.laneDo op o (fun e =>
    { mask := some (o.d.toNat, (List.range e.w).foldl (fun m l => if f e l then m ||| (1#64 <<< l) else m) 0) })

/-- The operands of two integers compared. -/
def State.icmp (s : State) (op : Nat) (o : LaneOps) (f : W32 → W32 → Bool) : Out :=
  s.cmpDo op o (fun e l => f (e.av l) (e.bv l))

/-- abs and neg: `.sat` gives 0x7FFF_FFFF for −2^31 (R170). -/
def absW (sat : Bool) (a : W32) : W32 := if a = 0x80000000 then (if sat then 0x7FFFFFFF else a) else if a.msb then -a else a
def negW (sat : Bool) (a : W32) : W32 := if a = 0x80000000 then (if sat then 0x7FFFFFFF else a) else -a

/-- The high half of a product. -/
def hiS (a b : W32) : W32 := BitVec.ofInt 32 (a.toInt * b.toInt / 4294967296)
def hiW (a b : W32) : W32 := BitVec.ofNat 32 (a.toNat * b.toNat / 4294967296)

/-- bfe and bfi read `pos` and `len` from B (R172). -/
def bfPos (b : W32) : Nat := b.toNat % 32
def bfLen (b : W32) : Nat := min (b.toNat / 256 % 64) (32 - bfPos b)

/-- The field that bfe extracts (R172). -/
def bfeW (sx : Bool) (a b : W32) : W32 :=
  let f := BitVec.ofNat 32 (a.toNat / 2 ^ bfPos b % 2 ^ bfLen b)
  if sx && bfLen b != 0 && a.getLsbD (bfPos b + bfLen b - 1) then f ||| (BitVec.allOnes 32 <<< bfLen b) else f

/-- bfi (R172). -/
def bfiW (a b c : W32) : W32 :=
  let m : W32 := BitVec.ofNat 32 (2 ^ bfLen b - 1) <<< bfPos b
  (c &&& ~~~m) ||| ((a <<< bfPos b) &&& m)

/-- nop: no effect (R170). -/
def doLaneNop (o : LaneOps) (s : State) : Out := s.laneDo 0x001 o (fun _ => {})

/-- nop: no effect (R170). -/
def execLaneNop (o : LaneOps) (s : State) : Out := doLaneNop o s

/-- nop: no effect (R170), in its L32 form (R99). -/
def execLaneNopL32 (o : L32Ops) (s : State) : Out := s.shortDo 0x001 o doLaneNop

/-- mov (R170). -/
def doLaneMov (o : LaneOps) (s : State) : Out := s.movLane 0x002 o

/-- mov (R170). -/
def execLaneMov (o : LaneOps) (s : State) : Out := doLaneMov o s

/-- mov (R170), in its L32 form (R99). -/
def execLaneMovL32 (o : L32Ops) (s : State) : Out := s.shortDo 0x002 o doLaneMov

/-- add (R170). -/
def doLaneAdd (o : LaneOps) (s : State) : Out := s.addSub 0x003 o (· + ·) (· + ·) (· + ·)

/-- add (R170). -/
def execLaneAdd (o : LaneOps) (s : State) : Out := doLaneAdd o s

/-- add (R170), in its L32 form (R99). -/
def execLaneAddL32 (o : L32Ops) (s : State) : Out := s.shortDo 0x003 o doLaneAdd

/-- sub (R170). -/
def doLaneSub (o : LaneOps) (s : State) : Out := s.addSub 0x004 o (· - ·) (· - ·) (· - ·)

/-- sub (R170). -/
def execLaneSub (o : LaneOps) (s : State) : Out := doLaneSub o s

/-- sub (R170), in its L32 form (R99). -/
def execLaneSubL32 (o : L32Ops) (s : State) : Out := s.shortDo 0x004 o doLaneSub

/-- mul (R170). -/
def doLaneMul (o : LaneOps) (s : State) : Out := s.mulLow 0x005 o

/-- mul (R170). -/
def execLaneMul (o : LaneOps) (s : State) : Out := doLaneMul o s

/-- mul (R170), in its L32 form (R99). -/
def execLaneMulL32 (o : L32Ops) (s : State) : Out := s.shortDo 0x005 o doLaneMul

/-- mulh (R170). -/
def doLaneMulh (o : LaneOps) (s : State) : Out := s.int2 0x006 o hiS

/-- mulh (R170). -/
def execLaneMulh (o : LaneOps) (s : State) : Out := doLaneMulh o s

/-- mulh (R170), in its L32 form (R99). -/
def execLaneMulhL32 (o : L32Ops) (s : State) : Out := s.shortDo 0x006 o doLaneMulh

/-- mulhw (R170). -/
def doLaneMulhw (o : LaneOps) (s : State) : Out := s.int2 0x007 o hiW

/-- mulhw (R170). -/
def execLaneMulhw (o : LaneOps) (s : State) : Out := doLaneMulhw o s

/-- mulhw (R170), in its L32 form (R99). -/
def execLaneMulhwL32 (o : L32Ops) (s : State) : Out := s.shortDo 0x007 o doLaneMulhw

/-- min (R170). -/
def doLaneMin (o : LaneOps) (s : State) : Out := s.int2 0x008 o smin

/-- min (R170). -/
def execLaneMin (o : LaneOps) (s : State) : Out := doLaneMin o s

/-- min (R170), in its L32 form (R99). -/
def execLaneMinL32 (o : L32Ops) (s : State) : Out := s.shortDo 0x008 o doLaneMin

/-- max (R170). -/
def doLaneMax (o : LaneOps) (s : State) : Out := s.int2 0x009 o smax

/-- max (R170). -/
def execLaneMax (o : LaneOps) (s : State) : Out := doLaneMax o s

/-- max (R170), in its L32 form (R99). -/
def execLaneMaxL32 (o : L32Ops) (s : State) : Out := s.shortDo 0x009 o doLaneMax

/-- minw (R170). -/
def doLaneMinw (o : LaneOps) (s : State) : Out := s.int2 0x00A o umin

/-- minw (R170). -/
def execLaneMinw (o : LaneOps) (s : State) : Out := doLaneMinw o s

/-- minw (R170), in its L32 form (R99). -/
def execLaneMinwL32 (o : L32Ops) (s : State) : Out := s.shortDo 0x00A o doLaneMinw

/-- maxw (R170). -/
def doLaneMaxw (o : LaneOps) (s : State) : Out := s.int2 0x00B o umax

/-- maxw (R170). -/
def execLaneMaxw (o : LaneOps) (s : State) : Out := doLaneMaxw o s

/-- maxw (R170), in its L32 form (R99). -/
def execLaneMaxwL32 (o : L32Ops) (s : State) : Out := s.shortDo 0x00B o doLaneMaxw

/-- and (R170). -/
def doLaneAnd (o : LaneOps) (s : State) : Out := s.bit2 0x00C o (fun a b => a &&& b) (fun a b => a &&& b)

/-- and (R170). -/
def execLaneAnd (o : LaneOps) (s : State) : Out := doLaneAnd o s

/-- and (R170), in its L32 form (R99). -/
def execLaneAndL32 (o : L32Ops) (s : State) : Out := s.shortDo 0x00C o doLaneAnd

/-- or (R170). -/
def doLaneOr (o : LaneOps) (s : State) : Out := s.bit2 0x00D o (fun a b => a ||| b) (fun a b => a ||| b)

/-- or (R170). -/
def execLaneOr (o : LaneOps) (s : State) : Out := doLaneOr o s

/-- or (R170), in its L32 form (R99). -/
def execLaneOrL32 (o : L32Ops) (s : State) : Out := s.shortDo 0x00D o doLaneOr

/-- xor (R170). -/
def doLaneXor (o : LaneOps) (s : State) : Out := s.bit2 0x00E o (fun a b => a ^^^ b) (fun a b => a ^^^ b)

/-- xor (R170). -/
def execLaneXor (o : LaneOps) (s : State) : Out := doLaneXor o s

/-- xor (R170), in its L32 form (R99). -/
def execLaneXorL32 (o : L32Ops) (s : State) : Out := s.shortDo 0x00E o doLaneXor

/-- andn (R170). -/
def doLaneAndn (o : LaneOps) (s : State) : Out := s.bit2 0x00F o (fun a b => a &&& ~~~b) (fun a b => a &&& ~~~b)

/-- andn (R170). -/
def execLaneAndn (o : LaneOps) (s : State) : Out := doLaneAndn o s

/-- andn (R170), in its L32 form (R99). -/
def execLaneAndnL32 (o : L32Ops) (s : State) : Out := s.shortDo 0x00F o doLaneAndn

/-- not (R170). -/
def doLaneNot (o : LaneOps) (s : State) : Out := s.bit1 0x010 o (fun a => ~~~a) (fun a => ~~~a)

/-- not (R170). -/
def execLaneNot (o : LaneOps) (s : State) : Out := doLaneNot o s

/-- not (R170), in its L32 form (R99). -/
def execLaneNotL32 (o : L32Ops) (s : State) : Out := s.shortDo 0x010 o doLaneNot

/-- shl (R170). -/
def doLaneShl (o : LaneOps) (s : State) : Out := s.shl 0x011 o

/-- shl (R170). -/
def execLaneShl (o : LaneOps) (s : State) : Out := doLaneShl o s

/-- shl (R170), in its L32 form (R99). -/
def execLaneShlL32 (o : L32Ops) (s : State) : Out := s.shortDo 0x011 o doLaneShl

/-- shr (R170). -/
def doLaneShr (o : LaneOps) (s : State) : Out := s.shift 0x012 o (fun a n => a >>> n) (fun a n => a >>> n)

/-- shr (R170). -/
def execLaneShr (o : LaneOps) (s : State) : Out := doLaneShr o s

/-- shr (R170), in its L32 form (R99). -/
def execLaneShrL32 (o : L32Ops) (s : State) : Out := s.shortDo 0x012 o doLaneShr

/-- sar (R170). -/
def doLaneSar (o : LaneOps) (s : State) : Out := s.shift 0x013 o (fun a n => a.sshiftRight n) (fun a n => a.sshiftRight n)

/-- sar (R170). -/
def execLaneSar (o : LaneOps) (s : State) : Out := doLaneSar o s

/-- sar (R170), in its L32 form (R99). -/
def execLaneSarL32 (o : L32Ops) (s : State) : Out := s.shortDo 0x013 o doLaneSar

/-- rot, to the right (R170). -/
def doLaneRot (o : LaneOps) (s : State) : Out := s.shift 0x014 o rotr rotr

/-- rot, to the right (R170). -/
def execLaneRot (o : LaneOps) (s : State) : Out := doLaneRot o s

/-- rot, to the right (R170), in its L32 form (R99). -/
def execLaneRotL32 (o : L32Ops) (s : State) : Out := s.shortDo 0x014 o doLaneRot

/-- clz (R170). -/
def doLaneClz (o : LaneOps) (s : State) : Out := s.int1 0x015 o (fun a => BitVec.ofNat 32 (clzNat 32 a.toNat))

/-- clz (R170). -/
def execLaneClz (o : LaneOps) (s : State) : Out := doLaneClz o s

/-- clz (R170), in its L32 form (R99). -/
def execLaneClzL32 (o : L32Ops) (s : State) : Out := s.shortDo 0x015 o doLaneClz

/-- ctz (R170). -/
def doLaneCtz (o : LaneOps) (s : State) : Out := s.int1 0x016 o (fun a => BitVec.ofNat 32 (ctzNat 32 a.toNat))

/-- ctz (R170). -/
def execLaneCtz (o : LaneOps) (s : State) : Out := doLaneCtz o s

/-- ctz (R170), in its L32 form (R99). -/
def execLaneCtzL32 (o : L32Ops) (s : State) : Out := s.shortDo 0x016 o doLaneCtz

/-- popc (R170). -/
def doLanePopc (o : LaneOps) (s : State) : Out := s.int1 0x017 o (fun a => BitVec.ofNat 32 (popNat 32 a.toNat))

/-- popc (R170). -/
def execLanePopc (o : LaneOps) (s : State) : Out := doLanePopc o s

/-- popc (R170), in its L32 form (R99). -/
def execLanePopcL32 (o : L32Ops) (s : State) : Out := s.shortDo 0x017 o doLanePopc

/-- abs (R170). -/
def doLaneAbs (o : LaneOps) (s : State) : Out := s.int1 0x018 o (absW (o.mod == 1))

/-- abs (R170). -/
def execLaneAbs (o : LaneOps) (s : State) : Out := doLaneAbs o s

/-- abs (R170), in its L32 form (R99). -/
def execLaneAbsL32 (o : L32Ops) (s : State) : Out := s.shortDo 0x018 o doLaneAbs

/-- neg (R170). -/
def doLaneNeg (o : LaneOps) (s : State) : Out := s.int1 0x019 o (negW (o.mod == 1))

/-- neg (R170). -/
def execLaneNeg (o : LaneOps) (s : State) : Out := doLaneNeg o s

/-- neg (R170), in its L32 form (R99). -/
def execLaneNegL32 (o : L32Ops) (s : State) : Out := s.shortDo 0x019 o doLaneNeg

/-- cmp.eq (R173). -/
def doCmpEq (o : LaneOps) (s : State) : Out := s.icmp 0x021 o (· == ·)

/-- cmp.eq (R173). -/
def execCmpEq (o : LaneOps) (s : State) : Out := doCmpEq o s

/-- cmp.eq (R173), in its L32 form (R99). -/
def execCmpEqL32 (o : L32Ops) (s : State) : Out := s.shortDo 0x021 o doCmpEq

/-- cmp.ne (R173). -/
def doCmpNe (o : LaneOps) (s : State) : Out := s.icmp 0x022 o (· != ·)

/-- cmp.ne (R173). -/
def execCmpNe (o : LaneOps) (s : State) : Out := doCmpNe o s

/-- cmp.ne (R173), in its L32 form (R99). -/
def execCmpNeL32 (o : L32Ops) (s : State) : Out := s.shortDo 0x022 o doCmpNe

/-- cmp.lt, signed (R173). -/
def doCmpLt (o : LaneOps) (s : State) : Out := s.icmp 0x023 o BitVec.slt

/-- cmp.lt, signed (R173). -/
def execCmpLt (o : LaneOps) (s : State) : Out := doCmpLt o s

/-- cmp.lt, signed (R173), in its L32 form (R99). -/
def execCmpLtL32 (o : L32Ops) (s : State) : Out := s.shortDo 0x023 o doCmpLt

/-- cmp.le, signed (R173). -/
def doCmpLe (o : LaneOps) (s : State) : Out := s.icmp 0x024 o BitVec.sle

/-- cmp.le, signed (R173). -/
def execCmpLe (o : LaneOps) (s : State) : Out := doCmpLe o s

/-- cmp.le, signed (R173), in its L32 form (R99). -/
def execCmpLeL32 (o : L32Ops) (s : State) : Out := s.shortDo 0x024 o doCmpLe

/-- cmp.ltw, unsigned (R173). -/
def doCmpLtw (o : LaneOps) (s : State) : Out := s.icmp 0x025 o BitVec.ult

/-- cmp.ltw, unsigned (R173). -/
def execCmpLtw (o : LaneOps) (s : State) : Out := doCmpLtw o s

/-- cmp.ltw, unsigned (R173), in its L32 form (R99). -/
def execCmpLtwL32 (o : L32Ops) (s : State) : Out := s.shortDo 0x025 o doCmpLtw

/-- cmp.lew, unsigned (R173). -/
def doCmpLew (o : LaneOps) (s : State) : Out := s.icmp 0x026 o BitVec.ule

/-- cmp.lew, unsigned (R173). -/
def execCmpLew (o : LaneOps) (s : State) : Out := doCmpLew o s

/-- cmp.lew, unsigned (R173), in its L32 form (R99). -/
def execCmpLewL32 (o : L32Ops) (s : State) : Out := s.shortDo 0x026 o doCmpLew

/-- lid: the lane's linear index in the grid (R66, R170). -/
def doLid (o : LaneOps) (s : State) : Out := s.laneDo 0x02D o (fun e =>
  effReg o (.a (BitVec.ofNat 32 (e.x.gid * e.w)) 1))

/-- lid: the lane's linear index in the grid (R66, R170). -/
def execLid (o : LaneOps) (s : State) : Out := doLid o s

/-- lid: the lane's linear index in the grid (R66, R170), in its L32 form (R99). -/
def execLidL32 (o : L32Ops) (s : State) : Out := s.shortDo 0x02D o doLid

/-- vshape: the tag code of A, uniform (R70). -/
def doVshape (o : LaneOps) (s : State) : Out := s.laneDo 0x02E o (fun e =>
  effReg o (.u (BitVec.ofNat 32 (nth e.a 0).tag)))

/-- vshape: the tag code of A, uniform (R70). -/
def execVshape (o : LaneOps) (s : State) : Out := doVshape o s

/-- vshape: the tag code of A, uniform (R70), in its L32 form (R99). -/
def execVshapeL32 (o : L32Ops) (s : State) : Out := s.shortDo 0x02E o doVshape

/-- mad (R172). -/
def doMad (o : LaneOps) (s : State) : Out := s.laneDo 0x040 o (fun e =>
  effReg o (e.each (allU (e.a ++ e.b ++ e.c)) (fun l => e.av l * e.bv l + e.cv l)))

/-- mad (R172). -/
def execMad (o : LaneOps) (s : State) : Out := doMad o s

/-- sel: the mask is a source that is not U, so the result is G (R172). -/
def doSel (o : LaneOps) (s : State) : Out := s.laneDo 0x042 o (fun e =>
  let m := e.maskOf o.c.toNat
  effReg o (.g ((List.range e.w).map (fun l => if m.getLsbD l then e.av l else e.bv l))))

/-- sel: the mask is a source that is not U, so the result is G (R172). -/
def execSel (o : LaneOps) (s : State) : Out := doSel o s

/-- bfe (R172). -/
def doBfe (o : LaneOps) (s : State) : Out := s.int2 0x043 o (bfeW (o.mod == 1))

/-- bfe (R172). -/
def execBfe (o : LaneOps) (s : State) : Out := doBfe o s

/-- bfi (R172). -/
def doBfi (o : LaneOps) (s : State) : Out := s.laneDo 0x044 o (fun e =>
  effReg o (e.each (allU (e.a ++ e.b ++ e.c)) (fun l => bfiW (e.av l) (e.bv l) (e.cv l))))

/-- bfi (R172). -/
def execBfi (o : LaneOps) (s : State) : Out := doBfi o s

end Sys2Proof.Machine
end

