-- ==== Sys2Proof/Machine/LaneFloat.lean ====
section
/-! DEFINITION. The floating-point lane instructions: arithmetic, comparisons, special functions, conversion, packed halves and
dequantization (R169, R173 to R182). -/

namespace Sys2Proof.Machine

/-- A value with the FPSTAT bits it sets. -/
abbrev Flagged := Nat × Nat

/-- The lanes' values and the union of the active lanes' flags (R167). -/
def floatEff (e : LaneEnv) (o : LaneOps) (f : Nat → Flagged) : LaneEff :=
  { regs := [(o.d.toNat, .g ((List.range e.w).map (fun l => BitVec.ofNat 32 (f l).1)))],
    fp := e.lanes.foldl (fun m l => m ||| (f l).2) 0 }

/-- The rounding mode and FTZ that an instruction's RND field and the clause's FPCTL give (R79, R168). -/
def LaneEnv.rm (e : LaneEnv) (o : LaneOps) : Rm := rndMode (o.mod.toNat % 8) e.run.fpctl
def LaneEnv.ftz (e : LaneEnv) : Bool := fpFtz e.run.fpctl

def State.float1 (s : State) (op : Nat) (o : LaneOps) (f : Rm → Bool → Nat → Flagged) : Out :=
  s.laneDo op o (fun e => floatEff e o (fun l => f (e.rm o) e.ftz (e.av l).toNat))

def State.float2 (s : State) (op : Nat) (o : LaneOps) (f : Rm → Bool → Nat → Nat → Flagged) : Out :=
  s.laneDo op o (fun e => floatEff e o (fun l => f (e.rm o) e.ftz (e.av l).toNat (e.bv l).toNat))

/-- A comparison of binary32 values: the condition, with the flags (R173). -/
def State.fcmp (s : State) (op : Nat) (o : LaneOps) (quiet : Bool) (f : Num → Num → Bool) : Out :=
  s.laneDo op o (fun e =>
    let rd := fun l => (f32.read e.ftz (e.av l).toNat, f32.read e.ftz (e.bv l).toNat)
    { mask := some (o.d.toNat, (List.range e.w).foldl (fun m l => if f (rd l).1 (rd l).2 then m ||| (1#64 <<< l) else m) 0),
      fp := e.lanes.foldl (fun m l =>
        let x := rd l
        m ||| (if quiet then x.1.nv ||| x.2.nv else if x.1.isNan || x.2.isNan then fNV else 0)) 0 })

/-- Neither is NaN. -/
def ordered (x y : Num) : Bool := !x.isNan && !y.isNan

/-- The class bit of a binary32 value (R174). -/
def classBit (v : Nat) : Nat :=
  let sub := decide (v % 2 ^ 31 < 2 ^ 23)
  match f32.decode v with
  | .nan true => 0
  | .nan false => 1
  | .inf true => 2
  | .inf false => 9
  | .fin true m _ => if m = 0 then 5 else if sub then 4 else 3
  | .fin false m _ => if m = 0 then 6 else if sub then 7 else 8

/-! Packed halves (R181). -/

/-- The type and the rounding of a packed instruction. -/
def halfFmt (o : LaneOps) : Fmt := if o.mod.toNat / 8 = 1 then bf16 else f16

/-- Both halves of a packed result. -/
def halves (f : Nat → Flagged) : Flagged :=
  let lo := f 0
  let hi := f 1
  (lo.1 + hi.1 * 65536, lo.2 ||| hi.2)

/-- Half `k` of a lane value. -/
def halfOf (v : W32) (k : Nat) : Nat := v.toNat / 65536 ^ k % 65536

def State.half2 (s : State) (op : Nat) (o : LaneOps) (f : Fmt → Rm → Bool → Nat → Nat → Flagged) : Out :=
  s.laneDo op o (fun e => floatEff e o (fun l => halves (fun k =>
    f (halfFmt o) (e.rm o) e.ftz (halfOf (e.av l) k) (halfOf (e.bv l) k))))

/-! Conversion (R179, R180). -/

/-- A binary32 value rounded to an integer in a range; NaN is 0 and a clamp sets NV (R180). -/
def toIntRange (rm : Rm) (lo hi : Int) (x : Num) : Int × Nat :=
  match x with
  | .nan _ => (0, fNV)
  | .inf n => (if n then lo else hi, fNV)
  | .fin n m e =>
    let r := roundShift rm n m (-e) false
    let v : Int := if n then -(r.1 : Int) else r.1
    if v < lo then (lo, fNV) else if hi < v then (hi, fNV) else (v, if r.2 then fNX else 0)

/-- An integer as a lane word. -/
def wordOf (v : Int) : Nat := (v % 2 ^ 32).toNat

/-- A clamped integer as a lane word. -/
def clampWord (lo hi v : Int) : Nat := wordOf (max lo (min hi v))

/-- The conversion `cv` of a lane's A, and B for the packing forms (R179, R180). -/
def convert (cv : Nat) (rm : Rm) (ftz : Bool) (a b : W32) : Flagged :=
  let src := f32.read ftz a.toNat
  let widen := fun (f : Fmt) (v : Nat) =>
    let x := f.read ftz v
    let w := f32.write rm false x
    (w.1, w.2 ||| x.nv)
  let narrow := fun (f : Fmt) (v : W32) =>
    let x := f32.read ftz v.toNat
    let w := f.write rm ftz x
    (w.1, w.2 ||| x.nv)
  let toI := fun (lo hi : Int) =>
    let r := toIntRange rm lo hi src
    (wordOf r.1, r.2)
  let lo16 := a.toNat % 65536
  match cv with
  | 0 =>
    let w := f32.write rm false src
    (w.1, src.nv)
  | 1 => widen f16 lo16
  | 2 => widen bf16 lo16
  | 3 => f32.write rm ftz (ofInt a.toInt 0)
  | 4 => f32.write rm ftz (ofInt a.toNat 0)
  | 5 => narrow f16 a
  | 6 => narrow bf16 a
  | 7 => toI (-2147483648) 2147483647
  | 8 => toI 0 4294967295
  | 9 => toI (-32768) 32767
  | 10 => toI 0 65535
  | 11 => toI (-128) 127
  | 12 => toI 0 255
  | 13 => (clampWord (-32768) 32767 a.toInt, 0)
  | 14 => (clampWord 0 65535 a.toInt, 0)
  | 15 => (clampWord (-128) 127 a.toInt, 0)
  | 16 => (clampWord 0 255 a.toInt, 0)
  | 17 => (clampWord 0 2147483647 a.toNat, 0)
  | 18 => (clampWord 0 2147483647 a.toInt, 0)
  | 19 => halves (fun k => narrow f16 (if k = 0 then a else b))
  | 20 => halves (fun k => narrow bf16 (if k = 0 then a else b))
  | 21 => widen f16 (a.toNat / 65536)
  | 22 => widen bf16 (a.toNat / 65536)
  | 23 => elE4.write rm false src 1
  | 24 => (Elem.ieee fE5).write rm false src 1
  | _ => (Elem.ieee fE5).write rm true src 1

/-! Dequantization (R182). -/

/-- The format code, and elements a word, of a dq opcode (R182, R286). -/
def dqFmt (op : Nat) : Nat :=
  match op with
  | 0x4B => 3
  | 0x4C => 4
  | 0x4D => 5
  | 0x4E => 6
  | 0x4F => 7
  | 0x50 => 17
  | 0x51 => 19
  | 0x52 => 24
  | _ => 26

/-- dq: the element that ELT names times the scale byte that BSEL names (R182). -/
def State.dq (s : State) (op : Nat) (o : LaneOps) : Out :=
  s.laneDo op o (fun e =>
    let elt := o.mod.toNat / 4
    let sel := o.mod.toNat % 4
    let code := dqFmt op
    floatEff e o (fun l =>
      let sc := (e.bv (l * dqCount op / 32)).toNat / 256 ^ sel % 256
      let x := (elemOf code).read ((e.av l).toNat / 2 ^ (fmtBits code * elt) % 2 ^ fmtBits code)
      let y := scaled x (ScaleFmt.e8m0.read sc)
      if y.isNan then (f32.qnan, 0) else f32.write (rndMode 0 e.run.fpctl) e.ftz y))

/-- fadd (R175). -/
def doFadd (o : LaneOps) (s : State) : Out := s.float2 0x01A o f32.add

/-- fadd (R175). -/
def execFadd (o : LaneOps) (s : State) : Out := doFadd o s

/-- fadd (R175), in its L32 form (R99). -/
def execFaddL32 (o : L32Ops) (s : State) : Out := s.shortDo 0x01A o doFadd

/-- fsub (R175). -/
def doFsub (o : LaneOps) (s : State) : Out := s.float2 0x01B o f32.sub

/-- fsub (R175). -/
def execFsub (o : LaneOps) (s : State) : Out := doFsub o s

/-- fsub (R175), in its L32 form (R99). -/
def execFsubL32 (o : L32Ops) (s : State) : Out := s.shortDo 0x01B o doFsub

/-- fmul (R175). -/
def doFmul (o : LaneOps) (s : State) : Out := s.float2 0x01C o f32.mul

/-- fmul (R175). -/
def execFmul (o : LaneOps) (s : State) : Out := doFmul o s

/-- fmul (R175), in its L32 form (R99). -/
def execFmulL32 (o : L32Ops) (s : State) : Out := s.shortDo 0x01C o doFmul

/-- fmin (R176). -/
def doFmin (o : LaneOps) (s : State) : Out := s.float2 0x01D o (fun _ z a b => f32.minmax z true a b)

/-- fmin (R176). -/
def execFmin (o : LaneOps) (s : State) : Out := doFmin o s

/-- fmin (R176), in its L32 form (R99). -/
def execFminL32 (o : L32Ops) (s : State) : Out := s.shortDo 0x01D o doFmin

/-- fmax (R176). -/
def doFmax (o : LaneOps) (s : State) : Out := s.float2 0x01E o (fun _ z a b => f32.minmax z false a b)

/-- fmax (R176). -/
def execFmax (o : LaneOps) (s : State) : Out := doFmax o s

/-- fmax (R176), in its L32 form (R99). -/
def execFmaxL32 (o : L32Ops) (s : State) : Out := s.shortDo 0x01E o doFmax

/-- fabs: bit 31 cleared (R176). -/
def doFabs (o : LaneOps) (s : State) : Out := s.float1 0x01F o (fun _ _ a => (a % 2 ^ 31, 0))

/-- fabs: bit 31 cleared (R176). -/
def execFabs (o : LaneOps) (s : State) : Out := doFabs o s

/-- fabs: bit 31 cleared (R176), in its L32 form (R99). -/
def execFabsL32 (o : L32Ops) (s : State) : Out := s.shortDo 0x01F o doFabs

/-- fneg: bit 31 inverted (R176). -/
def doFneg (o : LaneOps) (s : State) : Out := s.float1 0x020 o (fun _ _ a => ((a + 2 ^ 31) % 2 ^ 32, 0))

/-- fneg: bit 31 inverted (R176). -/
def execFneg (o : LaneOps) (s : State) : Out := doFneg o s

/-- fneg: bit 31 inverted (R176), in its L32 form (R99). -/
def execFnegL32 (o : L32Ops) (s : State) : Out := s.shortDo 0x020 o doFneg

/-- fcmp.eq (R173). -/
def doFcmpEq (o : LaneOps) (s : State) : Out := s.fcmp 0x027 o true (fun x y => ordered x y && x.cmp y == 0)

/-- fcmp.eq (R173). -/
def execFcmpEq (o : LaneOps) (s : State) : Out := doFcmpEq o s

/-- fcmp.eq (R173), in its L32 form (R99). -/
def execFcmpEqL32 (o : L32Ops) (s : State) : Out := s.shortDo 0x027 o doFcmpEq

/-- fcmp.ne (R173). -/
def doFcmpNe (o : LaneOps) (s : State) : Out := s.fcmp 0x028 o true (fun x y => !ordered x y || x.cmp y != 0)

/-- fcmp.ne (R173). -/
def execFcmpNe (o : LaneOps) (s : State) : Out := doFcmpNe o s

/-- fcmp.ne (R173), in its L32 form (R99). -/
def execFcmpNeL32 (o : L32Ops) (s : State) : Out := s.shortDo 0x028 o doFcmpNe

/-- fcmp.lt (R173). -/
def doFcmpLt (o : LaneOps) (s : State) : Out := s.fcmp 0x029 o false (fun x y => ordered x y && decide (x.cmp y < 0))

/-- fcmp.lt (R173). -/
def execFcmpLt (o : LaneOps) (s : State) : Out := doFcmpLt o s

/-- fcmp.lt (R173), in its L32 form (R99). -/
def execFcmpLtL32 (o : L32Ops) (s : State) : Out := s.shortDo 0x029 o doFcmpLt

/-- fcmp.le (R173). -/
def doFcmpLe (o : LaneOps) (s : State) : Out := s.fcmp 0x02A o false (fun x y => ordered x y && decide (x.cmp y ≤ 0))

/-- fcmp.le (R173). -/
def execFcmpLe (o : LaneOps) (s : State) : Out := doFcmpLe o s

/-- fcmp.le (R173), in its L32 form (R99). -/
def execFcmpLeL32 (o : L32Ops) (s : State) : Out := s.shortDo 0x02A o doFcmpLe

/-- fcmp.un (R173). -/
def doFcmpUn (o : LaneOps) (s : State) : Out := s.fcmp 0x02B o true (fun x y => !ordered x y)

/-- fcmp.un (R173). -/
def execFcmpUn (o : LaneOps) (s : State) : Out := doFcmpUn o s

/-- fcmp.un (R173), in its L32 form (R99). -/
def execFcmpUnL32 (o : L32Ops) (s : State) : Out := s.shortDo 0x02B o doFcmpUn

/-- fcls (R174). -/
def doFcls (o : LaneOps) (s : State) : Out := s.cmpDo 0x02C o (fun e l => (e.bv l).getLsbD (classBit (e.av l).toNat))

/-- fcls (R174). -/
def execFcls (o : LaneOps) (s : State) : Out := doFcls o s

/-- fcls (R174), in its L32 form (R99). -/
def execFclsL32 (o : L32Ops) (s : State) : Out := s.shortDo 0x02C o doFcls

/-- fma: one rounding (R175). -/
def doFma (o : LaneOps) (s : State) : Out := s.laneDo 0x041 o (fun e =>
  floatEff e o (fun l => f32.fma (e.rm o) e.ftz (e.av l).toNat (e.bv l).toNat (e.cv l).toNat))

/-- fma: one rounding (R175). -/
def execFma (o : LaneOps) (s : State) : Out := doFma o s

/-- cvt (R179, R180). -/
def doCvt (o : LaneOps) (s : State) : Out := s.laneDo 0x045 o (fun e =>
  let rm := if o.mod.toNat % 2 = 1 then .rtz else rndMode 0 e.run.fpctl
  floatEff e o (fun l => convert (o.mod.toNat / 2) rm e.ftz (e.av l) (e.bv l)))

/-- cvt (R179, R180). -/
def execCvt (o : LaneOps) (s : State) : Out := doCvt o s

/-- frnd (R175). -/
def doFrnd (o : LaneOps) (s : State) : Out := s.float1 0x046 o f32.integral

/-- frnd (R175). -/
def execFrnd (o : LaneOps) (s : State) : Out := doFrnd o s

/-- fscale: a × 2^b, b a signed integer (R175). -/
def doFscale (o : LaneOps) (s : State) : Out := s.laneDo 0x047 o (fun e =>
  floatEff e o (fun l => f32.scale (e.rm o) e.ftz (e.av l).toNat (e.bv l).toInt))

/-- fscale: a × 2^b, b a signed integer (R175). -/
def execFscale (o : LaneOps) (s : State) : Out := doFscale o s

/-- hadd2 (R181). -/
def doHadd2 (o : LaneOps) (s : State) : Out := s.half2 0x048 o Fmt.add

/-- hadd2 (R181). -/
def execHadd2 (o : LaneOps) (s : State) : Out := doHadd2 o s

/-- hmul2 (R181). -/
def doHmul2 (o : LaneOps) (s : State) : Out := s.half2 0x049 o Fmt.mul

/-- hmul2 (R181). -/
def execHmul2 (o : LaneOps) (s : State) : Out := doHmul2 o s

/-- hfma2 (R181). -/
def doHfma2 (o : LaneOps) (s : State) : Out := s.laneDo 0x04A o (fun e => floatEff e o (fun l => halves (fun k =>
  (halfFmt o).fma (e.rm o) e.ftz (halfOf (e.av l) k) (halfOf (e.bv l) k) (halfOf (e.cv l) k))))

/-- hfma2 (R181). -/
def execHfma2 (o : LaneOps) (s : State) : Out := doHfma2 o s

/-- dq.e4 (R182). -/
def doDqE4 (o : LaneOps) (s : State) : Out := s.dq 0x04B o

/-- dq.e4 (R182). -/
def execDqE4 (o : LaneOps) (s : State) : Out := doDqE4 o s

/-- dq.e5 (R182). -/
def doDqE5 (o : LaneOps) (s : State) : Out := s.dq 0x04C o

/-- dq.e5 (R182). -/
def execDqE5 (o : LaneOps) (s : State) : Out := doDqE5 o s

/-- dq.e3m2 (R182). -/
def doDqE3m2 (o : LaneOps) (s : State) : Out := s.dq 0x04D o

/-- dq.e3m2 (R182). -/
def execDqE3m2 (o : LaneOps) (s : State) : Out := doDqE3m2 o s

/-- dq.e2m3 (R182). -/
def doDqE2m3 (o : LaneOps) (s : State) : Out := s.dq 0x04E o

/-- dq.e2m3 (R182). -/
def execDqE2m3 (o : LaneOps) (s : State) : Out := doDqE2m3 o s

/-- dq.fp4 (R182). -/
def doDqFp4 (o : LaneOps) (s : State) : Out := s.dq 0x04F o

/-- dq.fp4 (R182). -/
def execDqFp4 (o : LaneOps) (s : State) : Out := doDqFp4 o s

/-- dq.i8 (R182). -/
def doDqI8 (o : LaneOps) (s : State) : Out := s.dq 0x050 o

/-- dq.i8 (R182). -/
def execDqI8 (o : LaneOps) (s : State) : Out := doDqI8 o s

/-- dq.i4 (R182). -/
def doDqI4 (o : LaneOps) (s : State) : Out := s.dq 0x051 o

/-- dq.i4 (R182). -/
def execDqI4 (o : LaneOps) (s : State) : Out := doDqI4 o s

/-- dq.ps8 (R182). -/
def doDqPs8 (o : LaneOps) (s : State) : Out := s.dq 0x052 o

/-- dq.ps8 (R182). -/
def execDqPs8 (o : LaneOps) (s : State) : Out := doDqPs8 o s

/-- dq.ps4 (R182). -/
def doDqPs4 (o : LaneOps) (s : State) : Out := s.dq 0x053 o

/-- dq.ps4 (R182). -/
def execDqPs4 (o : LaneOps) (s : State) : Out := doDqPs4 o s

/-- frcp (R177, R178). -/
def doFrcp (o : LaneOps) (s : State) : Out := s.float1 0x080 o (fun _ z a => frcp z a)

/-- frcp (R177, R178). -/
def execFrcp (o : LaneOps) (s : State) : Out := doFrcp o s

/-- frsq (R177, R178). -/
def doFrsq (o : LaneOps) (s : State) : Out := s.float1 0x081 o (fun _ z a => frsq z a)

/-- frsq (R177, R178). -/
def execFrsq (o : LaneOps) (s : State) : Out := doFrsq o s

/-- flog2 (R177, R178). -/
def doFlog2 (o : LaneOps) (s : State) : Out := s.float1 0x083 o (fun _ z a => flog2 z a)

/-- flog2 (R177, R178). -/
def execFlog2 (o : LaneOps) (s : State) : Out := doFlog2 o s

/-- fexp2 (R177, R178). -/
def doFexp2 (o : LaneOps) (s : State) : Out := s.float1 0x084 o (fun _ z a => fexp2 z a)

/-- fexp2 (R177, R178). -/
def execFexp2 (o : LaneOps) (s : State) : Out := doFexp2 o s

/-- ftanh (R177, R178). -/
def doFtanh (o : LaneOps) (s : State) : Out := s.float1 0x085 o (fun _ z a => ftanh z a)

/-- ftanh (R177, R178). -/
def execFtanh (o : LaneOps) (s : State) : Out := doFtanh o s

/-- fsqrt (R175). -/
def doFsqrt (o : LaneOps) (s : State) : Out := s.float1 0x082 o f32.sqrt

/-- fsqrt (R175). -/
def execFsqrt (o : LaneOps) (s : State) : Out := doFsqrt o s

end Sys2Proof.Machine
end

