-- ==== Sys2Proof/Machine/LaneMem.lean ====
section
/-! DEFINITION. Lane loads, stores, atomics, reserved pairs, futures, the tag table and prefetch (R192 to R213). -/

namespace Sys2Proof.Machine

/-- The three spaces of a lane access (R196). -/
inductive Window where
  | global
  | local
  | cluster
  deriving DecidableEq, Repr

/-- A lane's effective address before alignment (R196): a virtual address, or an offset in the core's or the cluster's scratchpad. -/
def LaneEnv.ea (e : LaneEnv) (w : Window) (l : Nat) : W64 :=
  match w with
  | .global => pairLane e.a l + (e.bv l).setWidth 64
  | .local => BitVec.ofNat 64 ((e.av l + e.bv l).toNat % 2 ^ 21)
  | .cluster => BitVec.ofNat 64 ((e.av l + e.bv l).toNat % (e.x.members * 2 ^ 21))

/-- An offset with its low log2(n) bits ignored (R196). -/
def alignDown (v n : Nat) : Nat := v / n * n

/-- The place of a scratchpad access of `n` bytes (R196). -/
def Group.spadPlace (x : Group) (w : Window) (off n : Nat) : Option (Space × Nat) :=
  match w with
  | .global => none
  | .local => some (.spad x.core, alignDown (off % 2 ^ 21) n)
  | .cluster =>
    let o := alignDown (off % (x.members * 2 ^ 21)) n
    some (.spad (x.coreOf (o / 128 % x.members)), o / 128 / x.members * 128 + o % 128)

/-- A lane's part of an access. -/
def LaneEnv.part (e : LaneEnv) (w : Window) (n l : Nat) (data cmp : List W32) : LaneAcc :=
  let ea := e.ea w l
  { lane := l, va := BitVec.ofNat 64 (alignDown ea.toNat n), place := e.x.spadPlace w ea.toNat n, size := n, data := data,
    cmp := cmp, result := none, fault := none }

/-- The first `n` names of a group of registers, in lane `l`. -/
def namesAt (rs : List LaneReg) (n l : Nat) : List W32 := (List.range n).map (fun i => (nth rs i).lane l)

/-- The ordering of R194. -/
def ordAcq (v : Nat) : Bool := v / 8 % 2 == 1
def ordRel (v : Nat) : Bool := v / 16 % 2 == 1

/-- A load (R199). -/
def State.load (s : State) (op : Nat) (w : Window) (ctr : Nat) (o : LaneOps) : Out :=
  s.laneAccess op o (fun e =>
    let sz := o.mod.toNat % 8
    { op := .load sz, ctr := some ctr, lanes := e.lanes.map (fun l => e.part w (szBytes sz) l [] []), dst := o.d.toNat,
      dcount := szNames sz, acq := ordAcq o.c.toNat, scope := o.c.toNat % 8 })

/-- A store (R199, R200). -/
def State.store (s : State) (op : Nat) (w : Window) (ctr : Nat) (o : LaneOps) : Out :=
  s.laneAccess op o (fun e =>
    let sz := o.mod.toNat % 8
    { op := .store, ctr := some ctr, lanes := e.lanes.map (fun l => e.part w (szBytes sz) l (namesAt e.d (szNames sz) l) []),
      rel := ordRel o.c.toNat, scope := o.c.toNat % 8 })

/-- An atomic (R201); its ordering stands in the literal (R194). -/
def State.atom (s : State) (op : Nat) (w : Window) (o : LaneOps) : Out :=
  s.laneAccess op o (fun e =>
    let m := o.mod.toNat
    let w64 := m % 2 == 1
    let nr := m / 2 % 2 == 1
    let n := if w64 then 2 else 1
    let ord := (o.lit.getD 0).toNat
    { op := .atom (m / 4) w64 (!nr), ctr := some (if w == .global then (if nr then 1 else 0) else 2),
      lanes := e.lanes.map (fun l => e.part w (4 * n) l (namesAt e.c n l) (namesAt e.d n l)), dst := o.d.toNat,
      dcount := if nr then 0 else n, acq := ordAcq ord, rel := ordRel ord, scope := ord % 8 })

/-- The space of a future (R204). -/
def futWindow (mod : Nat) : Window :=
  match mod with
  | 0 => .global
  | 1 => .local
  | _ => .cluster

/-- Records a probe's faulted lanes and parks the group (R204); without room for one record it waits. -/
def State.parkProbe (s : State) (e : LaneEnv) (ls : List LaneAcc) : State :=
  let x := s.grp e.g
  let bad := ls.filter LaneAcc.waiting
  let pages := (bad.map (fun l => pageOf l.va)).eraseDups
  if !s.recordRoom e.g x.core then s
  else
    (pages.foldl (fun t p =>
      let mine := bad.filter (fun l => pageOf l.va == p)
      match mine with
      | [] => t
      | l :: _ =>
        if t.recordRoom e.g x.core then
          t.addRecord (.probe e.g e.sp) x.core 0 e.sp (l.fault.getD 0) x.slotNo 0 0 l.va
            (mine.foldl (fun m j => m ||| (1#64 <<< j.lane)) 0) (clauseAt e.run.addr e.run.off)
        else t) s).park e.g

/-- The lanes of a FUT.RD whose future is empty (R204). -/
def State.emptyLanes (s : State) (ls : List LaneAcc) : List LaneAcc :=
  ls.filter (fun l => match l.place with
    | some pl => !(leNat (s.readPlace pl 8)).testBit 63
    | none => true)

/-- FUT.RD once its lanes are translated: waits for its place in the order, then issues or raises "future empty" (R58, R204). -/
def State.futGo (s t : State) (e : LaneEnv) (o : LaneOps) (ls : List LaneAcc) : State :=
  let a : Access := { id := t.nextId, split := e.sp, op := .load 5, lanes := ls, dst := 0, dcount := 0, mreg := 0, flag := none,
                      ctr := none, acq := false, rel := false, scope := 0, addr := clauseAt e.run.addr e.run.off, no := e.run.no }
  if !e.x.mayPerform a then s
  else
    match t.badLane a with
    | some l => t.machineCheck e.g e.sp (placePa l.place) l.va.toNat a.addr (1#64 <<< l.lane) l.lane
    | none =>
      match t.emptyLanes ls with
      | [] =>
        let val := fun (i l : Nat) => ((ls.find? (fun k => k.lane == l)).bind (·.place)).elim (0 : W32) (fun pl =>
          (wordsOf 2 (leNat (t.readPlace pl 8) % 2 ^ 63)).getD i 0)
        t.laneEnd { e with x := { e.x with splits := (t.grp e.g).splits } } { regs := [(o.d.toNat, .g ((List.range e.w).map (val 0))), (o.d.toNat + 1, .g ((List.range e.w).map (val 1)))] }
      | l :: rest =>
        let mask : W64 := (l :: rest).foldl (fun m k => m ||| (1#64 <<< k.lane)) 0
        (t.modSplit e.g e.sp (fun p => if e.handler then p
          else { p with run := p.run.map (fun r => { r with stopped := true, retry := some e.act }) })).raiseUser e.g e.sp
          { code := 1, mask := mask, pc := a.addr, info := l.va } e.handler

/-- FUT.RD (R204). -/
def State.futRead (s : State) (o : LaneOps) : Out :=
  match s.laneFront 0x10B o with
  | .error r => r
  | .ok e =>
    let w := futWindow o.mod.toNat
    if (List.range 2).any (fun i => e.x.shapeBad e.act (o.d.toNat + i) (.g [])) then .next (s.takeTrap 0x14 e.act 0)
    else if e.act = 0 then
      .next (if e.x.fenced (ordAcq o.c.toNat) false then (s.setGrp e.g e.x).laneAdvance e.g e.sp e.handler e.run else s)
    else if s.heldByAcq e.g e.sp e.run.no || e.x.faulted then .next s
    else
      match s.translateLanes e.x.core { r := true } (e.lanes.map (fun l => e.part w 8 l [] [])) with
      | (t, .error (pa, l)) =>
        .next (t.machineCheck e.g e.sp pa l.va.toNat (clauseAt e.run.addr e.run.off) (1#64 <<< l.lane) l.lane)
      | (t, .ok ls) => if ls.any LaneAcc.waiting then .next (t.parkProbe e ls) else .next (s.futGo t e o ls)

/-! The tag table (R205 to R207). -/

def tagSet (va : W64) : Nat := va.toNat / 2048 % 256
def tagBits (va : W64) : BitVec 37 := va.extractLsb' 19 37

def Core.way (k : Core) (slot : Nat) : TagWay := k.tags.get { valid := false, tag := 0, used := 0 } slot

/-- The slot that a lookup hits, or the victim way of the set (R205). -/
def Core.tagLook (k : Core) (va : W64) : Except Nat Nat :=
  let set := tagSet va
  let slots := (List.range 4).map (fun i => set * 4 + i)
  match slots.find? (fun i => (k.way i).valid && (k.way i).tag == tagBits va) with
  | some i => .ok i
  | none =>
    match slots.find? (fun i => !(k.way i).valid) with
    | some i => .error i
    | none => .error ((argMin (fun i => (k.way i).used) slots).getD (set * 4))

/-- A way becomes most recently used. -/
def Core.touch (k : Core) (slot : Nat) (f : TagWay → TagWay) : Core :=
  { k with tagClock := k.tagClock + 1, tags := k.tags.put slot { f (k.way slot) with used := k.tagClock + 1 } }

/-- A fixed-latency lane instruction that changes its core too, when it does not trap. -/
def State.laneDoCore (s : State) (op : Nat) (o : LaneOps) (f : LaneEnv → LaneEff) (h : LaneEnv → Core → Core) : Out :=
  match s.laneFront op o with
  | .error r => r
  | .ok e =>
    let eff := f e
    if eff.regs.any (fun p => e.x.shapeBad e.act p.1 p.2) || e.act == 0 then .next (s.laneEnd e eff)
    else .next ((s.modCore e.x.core (h e)).laneEnd e eff)

/-- ld.g (R199). -/
def doLdG (o : LaneOps) (s : State) : Out := s.load 0x100 .global 0 o

/-- ld.g (R199). -/
def execLdG (o : LaneOps) (s : State) : Out := doLdG o s

/-- ld.s (R199). -/
def doLdS (o : LaneOps) (s : State) : Out := s.load 0x102 .local 2 o

/-- ld.s (R199). -/
def execLdS (o : LaneOps) (s : State) : Out := doLdS o s

/-- ld.c (R199). -/
def doLdC (o : LaneOps) (s : State) : Out := s.load 0x104 .cluster 2 o

/-- ld.c (R199). -/
def execLdC (o : LaneOps) (s : State) : Out := doLdC o s

/-- st.g (R199, R200). -/
def doStG (o : LaneOps) (s : State) : Out := s.store 0x101 .global 1 o

/-- st.g (R199, R200). -/
def execStG (o : LaneOps) (s : State) : Out := doStG o s

/-- st.s (R199, R200). -/
def doStS (o : LaneOps) (s : State) : Out := s.store 0x103 .local 2 o

/-- st.s (R199, R200). -/
def execStS (o : LaneOps) (s : State) : Out := doStS o s

/-- st.c (R199, R200). -/
def doStC (o : LaneOps) (s : State) : Out := s.store 0x105 .cluster 2 o

/-- st.c (R199, R200). -/
def execStC (o : LaneOps) (s : State) : Out := doStC o s

/-- atom.g (R201). -/
def doAtomG (o : LaneOps) (s : State) : Out := s.atom 0x106 .global o

/-- atom.g (R201). -/
def execAtomG (o : LaneOps) (s : State) : Out := doAtomG o s

/-- atom.s (R201). -/
def doAtomS (o : LaneOps) (s : State) : Out := s.atom 0x107 .local o

/-- atom.s (R201). -/
def execAtomS (o : LaneOps) (s : State) : Out := doAtomS o s

/-- atom.c (R201). -/
def doAtomC (o : LaneOps) (s : State) : Out := s.atom 0x108 .cluster o

/-- atom.c (R201). -/
def execAtomC (o : LaneOps) (s : State) : Out := doAtomC o s

/-- lres (R202). -/
def doLres (o : LaneOps) (s : State) : Out := s.laneAccess 0x109 o (fun e =>
  let n := o.mod.toNat % 2 + 1
  { op := .lres (n == 2), ctr := some 0, lanes := e.lanes.map (fun l => e.part .global (4 * n) l [] []), dst := o.d.toNat,
    dcount := n, acq := ordAcq o.c.toNat, scope := o.c.toNat % 8 })

/-- lres (R202). -/
def execLres (o : LaneOps) (s : State) : Out := doLres o s

/-- scond (R202). -/
def doScond (o : LaneOps) (s : State) : Out := s.laneAccess 0x10A o (fun e =>
  let n := o.mod.toNat % 2 + 1
  { op := .scond (n == 2), ctr := some 0, lanes := e.lanes.map (fun l => e.part .global (4 * n) l (namesAt e.d n l) []),
    dst := o.d.toNat, dcount := n, rel := ordRel o.c.toNat, scope := o.c.toNat % 8 })

/-- scond (R202). -/
def execScond (o : LaneOps) (s : State) : Out := doScond o s

/-- fut.rd (R204). -/
def doFutRd (o : LaneOps) (s : State) : Out := s.futRead o

/-- fut.rd (R204). -/
def execFutRd (o : LaneOps) (s : State) : Out := doFutRd o s

/-- fut.wr: bit 63 set over the pair (R204). -/
def doFutWr (o : LaneOps) (s : State) : Out := s.laneAccess 0x10C o (fun e =>
  let w := futWindow o.mod.toNat
  let full := fun (l : Nat) => [(nth e.d 0).lane l, (nth e.d 1).lane l ||| 0x80000000#32]
  { op := .store, ctr := some (if w == .global then 1 else 2), lanes := e.lanes.map (fun l => e.part w 8 l (full l) []),
    rel := ordRel o.c.toNat, scope := o.c.toNat % 8 })

/-- fut.wr: bit 63 set over the pair (R204). -/
def execFutWr (o : LaneOps) (s : State) : Out := doFutWr o s

/-- stag (R205). -/
def doStag (o : LaneOps) (s : State) : Out := 
  let k := fun (e : LaneEnv) => s.core e.x.core
  s.laneDoCore 0x10D o
    (fun e => { regs := [(o.d.toNat, .g ((List.range e.w).map (fun l => match (k e).tagLook (pairLane e.a l) with
      | .ok i => BitVec.ofNat 32 i
      | .error i => 0x80000000#32 ||| BitVec.ofNat 32 i)))] })
    (fun e c => e.lanes.foldl (fun d l => match (k e).tagLook (pairLane e.a l) with
      | .ok i => d.touch i id
      | .error _ => d) c)

/-- stag (R205). -/
def execStag (o : LaneOps) (s : State) : Out := doStag o s

/-- stag.w and stag.w.inv (R206). -/
def doStagW (o : LaneOps) (s : State) : Out := 
  let slot := fun (e : LaneEnv) (l : Nat) => (e.bv l).toNat % 1024
  let inv := o.mod == 1
  let fits := fun (e : LaneEnv) (l : Nat) => inv || slot e l / 4 == tagSet (pairLane e.a l)
  s.laneDoCore 0x10E o
    (fun e => { regs := [(o.d.toNat, .g ((List.range e.w).map (fun l => b32 (!fits e l))))] })
    (fun e c => e.lanes.foldl (fun d l =>
      if !fits e l then d
      else if inv then { d with tags := d.tags.put (slot e l) { d.way (slot e l) with valid := false, used := 0 } }
      else d.touch (slot e l) (fun w => { w with valid := true, tag := tagBits (pairLane e.a l) })) c)

/-- stag.w and stag.w.inv (R206). -/
def execStagW (o : LaneOps) (s : State) : Out := doStagW o s

/-- prf: no architectural effect (R208). -/
def doPrf (o : LaneOps) (s : State) : Out := s.laneDo 0x10F o (fun _ => {})

/-- prf: no architectural effect (R208). -/
def execPrf (o : LaneOps) (s : State) : Out := doPrf o s

end Sys2Proof.Machine
end

