-- ==== Sys2Proof/Machine/LaneMisc.lean ====
section
/-! DEFINITION. The accumulator lane instructions, GLEAN and RECPUT (R321, R332, R340, R342, R367). -/

namespace Sys2Proof.Machine

/-- The core's tile that stands for tile `n` of the group's team (R75). -/
def State.tileNo (s : State) (g n : Nat) : Nat :=
  ((s.teams.find (s.grp g).team).map (·.tiles)).getD [] |>.getD n 0

/-- A lane access to a tile: it must lie below ACCN, and hold token V when the access issues (R75, R321, R332). -/
def State.tileAccess (s : State) (op : Nat) (o : LaneOps) (aop : Nat → AccOp) (idx : LaneEnv → Nat → Nat) (dcount : Nat)
    (data : LaneEnv → Nat → List W32) : Out :=
  match s.laneFront op o with
  | .error r => r
  | .ok e =>
    let n := o.a.toNat
    let t := s.tileNo e.g n
    if e.x.desc.accn ≤ n then .next (s.takeTrap 0x10 e.act 0)
    else if (List.range dcount).any (fun i => e.x.shapeBad e.act (o.d.toNat + i) (.g [])) then .next (s.takeTrap 0x14 e.act 0)
    else if e.act != 0 && (e.x.counterFull (some 2) || s.heldByAcq e.g e.sp e.run.no || e.x.faulted) then .next s
    else if !(s.tile e.x.core t).tokenV then .next (s.takeTrap 0x15 e.act 0)
    else
      .next (s.issueAccess e o
        { op := aop t, ctr := some 2, dst := o.d.toNat, dcount := dcount,
          lanes := e.lanes.map (fun l => { lane := l, va := 0, place := some (.tile e.x.core t, idx e l), size := 1,
                                           data := data e l, cmp := [], result := none, fault := none }) })

/-- The element index of a lane (R332). -/
def elemIndex (e : LaneEnv) (l : Nat) : Nat := (e.bv l).toNat % 16384

/-- accrd (R332). -/
def doAccrd (o : LaneOps) (s : State) : Out :=
  s.tileAccess 0x180 o (fun t => .accrd t (o.mod == 1)) elemIndex 1 (fun _ _ => [])
/-- accrd (R332). -/
def execAccrd (o : LaneOps) (s : State) : Out := doAccrd o s

/-- accwr (R332). -/
def doAccwr (o : LaneOps) (s : State) : Out :=
  s.tileAccess 0x181 o .accwr elemIndex 0 (fun e l => [e.dv l])
/-- accwr (R332). -/
def execAccwr (o : LaneOps) (s : State) : Out := doAccwr o s

/-- accerm: ERM words lie apart from the elements, as index 16384 + q (R332). -/
def doAccerm (o : LaneOps) (s : State) : Out :=
  s.tileAccess 0x182 o .accerm (fun e l => 16384 + (e.bv l).toNat % 4) 1 (fun _ _ => [])
/-- accerm (R332). -/
def execAccerm (o : LaneOps) (s : State) : Out := doAccerm o s

/-! GLEAN (R340, R342). -/

/-- Fields of a Glean descriptor. -/
def gdKind (d : List Byte) : Nat := numAt d 0 1
def gdFmt (d : List Byte) : Nat := numAt d 1 1
def gdOut (d : List Byte) : Nat := numAt d 2 1
def gdMreg (d : List Byte) : Nat := numAt d 3 1 % 16
def gdRows (d : List Byte) : Nat := numAt d 4 4
def gdCols (d : List Byte) : Nat := numAt d 8 4
def gdPitch (d : List Byte) : Nat := numAt d 0x0C 4
def gdBase (d : List Byte) : Nat := numAt d 0x10 8
def gdSbase (d : List Byte) : Nat := numAt d 0x18 8
def gdSpitch (d : List Byte) : Nat := numAt d 0x20 4
def gdRpp (d : List Byte) : Nat := numAt d 0x24 4
def gdList (d : List Byte) : Nat := numAt d 0x28 8
def gdColidx (d : List Byte) : Nat := numAt d 0x30 8

/-- What a GLEAN lane read ends in. -/
inductive GRead (α : Type) where
  | ok (v : α)
  | fault (va : W64) (cause : Nat)
  | check (pa : Nat) (va : W64)
  deriving DecidableEq, Repr

/-- A Glean cache holds 256 KiB: so many lines of 64 bytes (R5). -/
def gleanLines : Nat := 4096

/-- Fills a line of a Glean cache, which gives up its oldest line when it is full (R5; log 2); the line's units keep the check bits that
they have in HBM (R238). -/
def Core.gleanFill (k : Core) (line : Nat) (bs : List Byte) (bad : List Nat) : Core :=
  let l := k.gcache.filter (fun p => p.1 != line)
  { k with gcache := (if l.length < gleanLines then l else l.tail) ++ [(line, bs)]
           gleanBad := k.gleanBad.filter (fun u => u / 2 != line) ++ bad }

/-- One byte through the Glean cache of core `c` (R238, R265, R342); `walk` makes a replay walk again. -/
def State.gleanByte (s : State) (c : Nat) (walk : Bool) (va : W64) : State × GRead Byte :=
  let t := if walk then s.translateWalk (some c) ((va.setWidth 56).setWidth 64) { r := true }
    else s.translate (some c) va { r := true }
  match t with
  | (u, .fault k) => (u, .fault va k)
  | (u, .check pa) => (u, .check pa va)
  | (u, .ok pa) =>
    let line := pa / 64
    let fill := fun (w : State) =>
      if w.hbmBadIn pa 1 then (w, GRead.check pa va)
      else
        let bs := w.hbmRead (line * 64) 64
        (w.modCore c (fun k => k.gleanFill line bs ((unitsOf (line * 64) 64).filter w.hbmBad.contains)), .ok (w.hbm.read pa))
    match (u.core c).gcache.find? (fun p => p.1 == line) with
    | some (_, bs) =>
      let w := { u with freeNo := u.freeNo + 1 }
      if !Config.gleanHit u.freeNo then fill w
      else if (u.core c).gleanBad.contains (pa / 32) then (w, .check pa va)
      else (w, .ok (bs.getD (pa % 64) 0))
    | none => fill u

/-- `n` bytes as a number. -/
def State.gleanNat (s : State) (c : Nat) (walk : Bool) (va n : Nat) : State × GRead Nat :=
  match n with
  | 0 => (s, .ok 0)
  | k + 1 =>
    match s.gleanByte c walk (BitVec.ofNat 64 va) with
    | (t, .ok b) =>
      match t.gleanNat c walk (va + 1) k with
      | (u, .ok v) => (u, .ok (b.toNat + 256 * v))
      | r => r
    | (t, .fault a k) => (t, .fault a k)
    | (t, .check a k) => (t, .check a k)

/-- `w` bits from bit address `b` on. -/
def State.gleanBits (s : State) (c : Nat) (walk : Bool) (b w : Nat) : State × GRead Nat :=
  match s.gleanNat c walk (b / 8) ((b + w - 1) / 8 - b / 8 + 1) with
  | (t, .ok v) => (t, .ok (v / 2 ^ (b % 8) % 2 ^ w))
  | r => r

/-- The lowest index m from `m` on with COLIDX[START + m] = j (R342). -/
def gleanFind (s : State) (c : Nat) (walk : Bool) (idx start j left m : Nat) : State × GRead (Option Nat) :=
  match left with
  | 0 => (s, .ok none)
  | k + 1 =>
    match s.gleanNat c walk (idx + 2 * (start + m)) 2 with
    | (t, .ok v) => if v = j then (t, .ok (some m)) else gleanFind t c walk idx start j k (m + 1)
    | (t, .fault a e) => (t, .fault a e)
    | (t, .check a e) => (t, .check a e)

/-- The bit address of element (r, c), or none when it is absent (R342). -/
def State.gleanAddr (s : State) (core : Nat) (walk : Bool) (d : List Byte) (r c : Nat) : State × GRead (Option Nat) :=
  let w := fmtBits (gdFmt d)
  if gdRows d ≤ r ∨ gdCols d ≤ c then (s, .ok none)
  else
    match gdKind d with
    | 0 => (s, .ok (some (8 * (gdBase d + r * gdPitch d) + w * c)))
    | 2 =>
      match s.gleanNat core walk (gdBase d + 8 * (r / 2 ^ gdRpp d)) 8 with
      | (t, .ok p) => (t, .ok (if p = 0 then none else some (8 * (p + r % 2 ^ gdRpp d * gdPitch d) + w * c)))
      | (t, .fault a e) => (t, .fault a e)
      | (t, .check a e) => (t, .check a e)
    | _ =>
      let br := gdPitch d % 8
      let bc := gdPitch d / 256 % 8
      match s.gleanNat core walk (gdList d + 8 * (r / 2 ^ br)) 8 with
      | (t, .ok word) =>
        let start := word % 2 ^ 32
        match gleanFind t core walk (gdColidx d) start (c / 2 ^ bc) (word / 2 ^ 32 % 2 ^ 16) 0 with
        | (u, .ok none) => (u, .ok none)
        | (u, .ok (some m)) =>
          let bytes := (2 ^ (br + bc) * w + 7) / 8
          (u, .ok (some (8 * (gdBase d + (start + m) * bytes) + w * (r % 2 ^ br * 2 ^ bc + c % 2 ^ bc))))
        | (u, .fault a e) => (u, .fault a e)
        | (u, .check a e) => (u, .check a e)
      | (t, .fault a e) => (t, .fault a e)
      | (t, .check a e) => (t, .check a e)

/-- A present element's value, written as OUT says (R342). -/
def gleanOut (d : List Byte) (elem scale : Nat) : W32 :=
  let code := gdFmt d
  let sc := (((fmtRow code).map FmtRow.scale).getD ScaleFmt.none).read scale
  let y := scaled ((elemOf code).read elem) sc
  let f := if gdOut d = 1 then bf16 else f32
  BitVec.ofNat 32 (f.write .rne false y).1

/-- One GLEAN lane: its value and whether it was absent (R342). -/
def State.gleanLane (s : State) (core : Nat) (walk : Bool) (d : List Byte) (r c : Nat) : State × GRead (List W32) :=
  match s.gleanAddr core walk d r c with
  | (t, .ok none) => (t, .ok [0, 1])
  | (t, .ok (some b)) =>
    match t.gleanBits core walk b (fmtBits (gdFmt d)) with
    | (u, .ok v) =>
      let blk := fmtBlock (gdFmt d)
      if blk = 0 then (u, .ok [gleanOut d v 0, 0])
      else
        match u.gleanNat core walk (gdSbase d + r * gdSpitch d + c / blk) 1 with
        | (w, .ok sc) => (w, .ok [gleanOut d v sc, 0])
        | (w, .fault a e) => (w, .fault a e)
        | (w, .check a e) => (w, .check a e)
    | (u, .fault a e) => (u, .fault a e)
    | (u, .check a e) => (u, .check a e)
  | (t, .fault a e) => (t, .fault a e)
  | (t, .check a e) => (t, .check a e)

/-- A GLEAN lane as a part of its access: `data` keeps its row and column for a replay. -/
def State.gleanPart (s : State) (core : Nat) (walk : Bool) (d : List Byte) (l : Nat) (r c : W32) :
    State × Except (Nat × LaneAcc) LaneAcc :=
  let base : LaneAcc := { lane := l, va := 0, place := none, size := 1, data := [r, c], cmp := [], result := none, fault := none }
  match s.gleanLane core walk d r.toNat c.toNat with
  | (t, .ok v) => (t, .ok { base with result := some v })
  | (t, .fault va k) => (t, .ok { base with va := va, fault := some k })
  | (t, .check pa va) => (t, .error (pa, { base with va := va }))

def State.gleanParts (s : State) (core : Nat) (d : List Byte) (ls : List (Nat × W32 × W32)) :
    State × Except (Nat × LaneAcc) (List LaneAcc) :=
  match ls with
  | [] => (s, .ok [])
  | (l, r, c) :: rest =>
    match s.gleanPart core false d l r c with
    | (t, .error e) => (t, .error e)
    | (t, .ok p) =>
      match t.gleanParts core d rest with
      | (u, .ok ps) => (u, .ok (p :: ps))
      | (u, .error e) => (u, .error e)

/-- Every access of the split in flight has been performed, and no acquire holds it: a GLEAN reads at issue, in its place in the program
order (R248, R265; log 24). -/
def Group.gleanMay (x : Group) (sp : Nat) : Bool := !x.faulted && x.acc.all (fun a => a.performed || (!a.acq && a.split != sp))

/-- GLEAN (R342). -/
def doGlean (o : LaneOps) (s : State) : Out :=
  match s.laneFront 0x183 o with
  | .error r => r
  | .ok e =>
    let d := (s.core e.x.core).gdescs.get (List.replicate 64 0) o.mod.toNat
    let acq := ordAcq o.c.toNat
    let mreg := gdMreg d
    if e.x.shapeBad e.act o.d.toNat (.g []) then .next (s.takeTrap 0x14 e.act 0)
    else if e.act = 0 then
      .next (if e.x.fenced acq false then (s.setGrp e.g e.x).laneAdvance e.g e.sp e.handler e.run else s)
    else if e.x.counterFull (some 3) || s.heldByAcq e.g e.sp e.run.no || e.x.maskBusy mreg || !e.x.gleanMay e.sp ||
        !e.x.bornDone { id := s.nextId, split := e.sp, op := .glean 0, lanes := [], dst := 0, dcount := 0, mreg := 0, flag := none, ctr := none,
                        acq := acq, rel := false, scope := 0, addr := 0, no := e.run.no } then .next s
    else
      let u := (s.setGrp e.g e.x).fresh
      let s1 := if acq then u.2.modCore e.x.core (fun k => { k with gcache := [] }) else u.2
      match s1.gleanParts e.x.core d (e.lanes.map (fun l => (l, e.av l, e.bv l))) with
      | (t, .error (pa, l)) =>
        .next (t.machineCheck e.g e.sp pa l.va.toNat (clauseAt e.run.addr e.run.off) (1#64 <<< l.lane) l.lane)
      | (t, .ok ls) =>
        let a : Access := { id := u.1, split := e.sp, op := .glean (leNat d), lanes := ls, dst := o.d.toNat, dcount := 1,
                            mreg := mreg, flag := e.run.flagOf o.fl, ctr := some 3, acq := acq, rel := false, scope := o.c.toNat % 8,
                            addr := clauseAt e.run.addr e.run.off, no := e.run.no, life := (s.split e.g e.sp).life }
        .next ((t.launchAccess e.g a (fun v => v.laneAdvance e.g e.sp e.handler (e.run.noted e.x o.d.toNat 1 mreg))).getD s)

/-- GLEAN (R342). -/
def execGlean (o : LaneOps) (s : State) : Out := doGlean o s

/-- RECPUT issues; its records enter at RECORD_BIN_ENTRY. With no active lane it does nothing (R367). -/
def doRecput (o : LaneOps) (s : State) : Out :=
  match s.laneFront 0x110 o with
  | .error r => r
  | .ok e =>
    if e.act = 0 then .next ((s.setGrp e.g e.x).laneAdvance e.g e.sp e.handler e.run)
    else
      .next (s.issueAccess e o
        { op := .recput 0, ctr := some 0, dst := o.d.toNat, dcount := 1, rel := true, scope := 3,
          lanes := e.lanes.map (fun l => { lane := l, va := 0, place := some (.tile e.x.core 16, l), size := 1,
                                           data := namesAt e.a 4 l, cmp := [e.bv l], result := none, fault := none }) })

/-- RECPUT (R367). -/
def execRecput (o : LaneOps) (s : State) : Out := doRecput o s

end Sys2Proof.Machine
end

