-- ==== Sys2Proof/Machine/System.lean ====
section
/-! DEFINITION. FENCE, TRAP, UTRET, YIELD, YIELDP, SVC and NOP (R161 to R165, R274, R275, R278, R279). -/

namespace Sys2Proof.Machine

/-- A command of the group stands in some queue of its core (R162). -/
def State.anyCmd (s : State) (g : Nat) : Bool := (s.core (s.grp g).core).queues.any (fun q => q.2.any (fun m => m.group == g))

/-- FENCE (R162): first the clauses, then the earlier set. On a service core every access is performed at its issue. -/
def State.fence (s : State) (acq rel : Bool) (c : BitVec 3) : Out :=
  match s.cur with
  | .service _ => .next (if 4 < c.toNat then s.illegal else s.advance)
  | .device | .scalar _ _ | .lane _ _ | .engine _ _ | .halyard _ _ =>
    s.groupDo [] (fun g sp t =>
      if 4 < c.toNat then t.illegal
      else if !(t.split g sp).clausesDone || !(t.grp g).fenced acq rel || (acq && rel && t.anyCmd g) then t.stallAs .fence
      else t.advance)

/-- FENCE with ACQ (R162). -/
def execFenceAcq (c : BitVec 3) (s : State) : Out := s.fence true false c
/-- FENCE with REL (R162). -/
def execFenceRel (c : BitVec 3) (s : State) : Out := s.fence false true c
/-- FENCE with both (R162). -/
def execFenceAcqRel (c : BitVec 3) (s : State) : Out := s.fence true true c

/-- TRAP (R163, R274, R425). -/
def execTrap (a : BitVec 6) (s : State) : Out :=
  match s.cur with
  | .service _ => .next (s.takeTrap 0x02 0 (s.sreg a))
  | .device | .scalar _ _ | .lane _ _ | .engine _ _ | .halyard _ _ =>
    s.groupDo [a] (fun g sp t =>
      let p := t.split g sp
      if p.inHandler then t.illegal
      else
        t.raiseUser g sp { code := 2, mask := p.exec &&& low64 (t.grp g).desc.w, pc := p.spc, info := t.sreg a } false)

/-- UTRET (R163, R275). -/
def execUtret (s : State) : Out :=
  s.groupDo [] (fun g sp t =>
    let p := t.split g sp
    if !p.inHandler then t.illegal
    else if !p.handlerDone then t.stallAs .interlock
    else t.returnFrom g sp)

/-- A ready group is pending on the sector of group `g`. -/
def State.otherReady (s : State) (g : Nat) : Bool :=
  let x := s.grp g
  ((s.core x.core).sectors.get { active := [], pending := [], swaps := [] } x.sector).pending.any (fun h => (s.grp h).ready)

/-- YIELD (R60, R164): out of the active set, ready, behind the ready groups; with no other group ready it goes on. -/
def execYield (s : State) : Out :=
  s.groupDo [] (fun g _ t =>
    let u := t.advance
    if u.otherReady g then (u.leaveSector g).makePending g false else u)

/-- A scratchpad range of YIELDP: its offset and length (R164). -/
def rangeOff (v : W64) : Nat := (v.extractLsb' 0 32).toNat
def rangeLen (v : W64) : Nat := (v.extractLsb' 32 32).toNat

/-- A range that YIELDP allows: empty, or on 64-byte bounds inside the team's allocation (R164). -/
def rangeOk (base size : Nat) (v : W64) : Bool :=
  (rangeOff v % 64 == 0 && rangeLen v % 64 == 0) &&
    (rangeLen v == 0 || (decide (base ≤ rangeOff v) && decide (rangeOff v + rangeLen v ≤ base + size)))

/-- Offset and length of the team's scratchpad allocation (R30). -/
def State.allocation (s : State) (g : Nat) : Nat × Nat :=
  let x := s.grp g
  (((s.teams.find x.team).map (·.spbase)).getD 0, x.desc.spad)

/-- The operands of YIELDP are allowed (R164). -/
def State.yieldpOk (s : State) (g : Nat) (tiles r1 r2 : W64) : Bool :=
  let al := s.allocation g
  decide (tiles.toNat < 2 ^ (s.grp g).desc.accn) && decide (tiles.toNat < 256) && rangeOk al.1 al.2 r1 && rangeOk al.1 al.2 r2

/-- A split stopped at a YIELDP, with its operands. -/
def Split.atYieldp (p : Split) : Option (BitVec 8 × W64 × W64) :=
  match p.stall with
  | some (.yieldp l a b) => some (l, a, b)
  | _ => none

/-- Every live split has stopped at a YIELDP or waits at a JOIN, one at least at a YIELDP: the group drains for its save (R279). -/
def State.tryYield (s : State) (g : Nat) : State :=
  let x := s.grp g
  let ready := x.liveSplits.all (fun k => (x.split k).atYieldp.isSome || (x.split k).stall == some .join)
  if x.st == .active && ready then
    match x.liveSplits.filterMap (fun k => (x.split k).atYieldp) with
    | [] => s
    | (l, a, b) :: _ =>
      let s1 := (s.leaveSector g).modGrp g (fun y => { y with st := .yielding, forced := false, ltm := l, range1 := a, range2 := b })
      let s2 := s1.modCore x.core (fun k => { k with hal := k.hal.map (fun h =>
        (h.1, if h.2.running && h.2.owner == g then { h.2 with running := false, parked := false } else h.2)) })
      s2.discardHeld g
  else s

/-- YIELDP (R164, R278, R279). -/
def execYieldp (a b : BitVec 6) (s : State) : Out :=
  s.groupDo [a, b, b + 1] (fun g _ t =>
    if b.getLsbD 0 || !t.yieldpOk g (t.sreg a) (t.sreg b) (t.sreg (b + 1)) then t.illegal
    else if ((t.launch (t.grp g).launch).bind (·.req)).isNone then t.advance
    else (t.stallAs (.yieldp ((t.sreg a).setWidth 8) (t.sreg b) (t.sreg (b + 1)))).tryYield g)

/-- SVC (R165, R427): posts the call; the answer comes with SVC_ANSWER_RELEASE. -/
def execSvc (a b : BitVec 6) (s : State) : Out :=
  s.groupDo [a, b] (fun g sp t =>
    let x := t.grp g
    let u := t.fresh
    let code : W32 := if (t.sreg a).extractLsb' 32 32 = 0 then (t.sreg a).setWidth 32 else 0xFFFFFFFF
    let entry := leBytes 4 code.toNat ++ leBytes 1 x.core ++ leBytes 1 sp ++ leBytes 1 x.slotNo ++ leBytes 1 0 ++
      leBytes 8 (t.sreg b).toNat ++ leBytes 8 0 ++ leBytes 8 0
    let c : SvcCall := { group := g, split := sp, launch := x.launch, code := code, arg := t.sreg b, entry := none }
    (({ u.2 with calls := u.2.calls.put u.1 c } : State).report 2 (some u.1) entry).stallAs (.svc u.1 b.toNat))

/-- NOP (R165). -/
def execNop (s : State) : Out := s.scalarDo [] State.advance

end Sys2Proof.Machine
end

