-- ==== Sys2Proof/Machine/Faults.lean ====
section
/-! DEFINITION. The device fault queue and the replay of faulted accesses (R229 to R236). -/

namespace Sys2Proof.Machine

/-! Bytes through translation, for the units that act outside a group's streams. -/

/-- Reads `n` bytes at a virtual address, in ascending order. -/
def State.readVirt (s : State) (tlb : Option Nat) (need : Need) (va : W64) (n : Nat) : State × GRead (List Byte) :=
  match n with
  | 0 => (s, .ok [])
  | k + 1 =>
    match s.translate tlb va need with
    | (t, .fault c) => (t, .fault va c)
    | (t, .check pa) => (t, .check pa va)
    | (t, .ok pa) =>
      if t.hbmBadIn pa 1 then (t, .check pa va)
      else
        match t.readVirt tlb need (va + 1) k with
        | (u, .ok bs) => (u, .ok (t.hbm.read pa :: bs))
        | (u, .fault a c) => (u, .fault a c)
        | (u, .check pa a) => (u, .check pa a)

/-- A read of the I/O die's own, with no group behind it: an uncorrectable error is journalled (R19, R238). -/
def State.readNoted (s : State) (va : W64) (n : Nat) : State × GRead (List Byte) :=
  match s.readVirt none { r := true } va n with
  | (t, .check pa a) => (t.noteCheck pa a.toNat 0 0xFF 0xFF 0xFF, .check pa a)
  | r => r

/-- Writes bytes at a virtual address, in ascending order, the bytes of each 32-byte unit together (R238, log 27). -/
def writeUnits (fuel : Nat) (s : State) (tlb : Option Nat) (own : Option (Nat × Nat)) (va : W64) (bs : List Byte) : State × GRead Unit :=
  match fuel, bs with
  | 0, _ | _, [] => (s, .ok ())
  | k + 1, b :: rest =>
    match s.translate tlb va { w := true } with
    | (t, .fault c) => (t, .fault va c)
    | (t, .check pa) => (t, .check pa va)
    | (t, .ok pa) =>
      let n := 32 - va.toNat % 32
      writeUnits k (t.hbmWrite own pa ((b :: rest).take n)) tlb own (va + BitVec.ofNat 64 n) ((b :: rest).drop n)

/-- Writes bytes at a virtual address, up to the first that cannot be. -/
def State.writeVirt (s : State) (tlb : Option Nat) (own : Option (Nat × Nat)) (va : W64) (bs : List Byte) : State × GRead Unit :=
  writeUnits bs.length s tlb own va bs

/-! The queue (R231, R232). -/

/-- The entry of R232. -/
def FRec.entry (r : FRec) : List Byte :=
  leBytes 8 r.seq.toNat ++ leBytes 8 r.va.toNat ++ leBytes 8 r.lanes.toNat ++ leBytes 1 r.core ++
    leBytes 1 (r.kind + 16 * r.split + 64 * r.cause) ++ leBytes 2 (r.slot + 64 * r.tag + 8192 * r.eng) ++
    leBytes 4 (r.time.toNat / 1024 % 2 ^ 32)

/-- The queue holds the entry. -/
def FRec.inQueue (r : FRec) : Bool := r.status == .queued || r.status == .dead

/-- The entry's place in the ring of FQBASE (log 28). -/
def State.fqSlot (s : State) (seq : W64) : Nat := s.fqbase.toNat + 32 * (seq.toNat % 4096)

/-- The order of appending: the clock at which a record became ready, its core, its slot, and its place in the order of R229. -/
def FRec.before (a b : FRec) : Bool :=
  decide (a.since < b.since) || (a.since == b.since && (decide (a.core < b.core) || (a.core == b.core &&
    (decide (a.slot < b.slot) || (a.slot == b.slot && decide (a.id < b.id))))))

/-- FAULT_RECORD_APPEND: the next unnumbered record takes the next sequence number, while the ring has room (R231). A record is appended
once the clock in which it became ready has ended, so that every record of that clock is known (log 114). -/
def State.appendRecord (s : State) (id : Nat) : Out :=
  match s.frecs.find? (fun r => r.id == id && r.status == .buffered) with
  | none => .next s
  | some r =>
    if s.clock ≤ r.since || s.frecs.any (fun q => q.status == .buffered && q.before r) then .next s
    else if 4096 ≤ (s.frecs.filter FRec.inQueue).length then .next s
    else if hbmEnd < s.fqSlot s.fqNext + 32 then .fault (.noSuchAddress (s.fqSlot s.fqNext))
    else
      let q := { r with seq := s.fqNext, time := BitVec.ofNat 64 s.time, status := .queued, numbered := true }
      .next ((({ s with
        fqNext := s.fqNext + 1
        frecs := s.frecs.map (fun k => if k.id = id then q else k) } : State)).hbmWrite none (s.fqSlot s.fqNext) q.entry)

/-- FAULT_RECORD_APPEND (R231). -/
def execFaultRecordAppend (rec : Nat) (s : State) : Out := s.appendRecord rec

/-- The oldest entry of the queue. -/
def State.oldest (s : State) : Option FRec := argMin (fun r => r.seq.toNat) (s.frecs.filter FRec.inQueue)

/-- The entry has been moved out of the queue: a live record stays, a dead entry is gone. -/
def State.popEntry (s : State) (id : Nat) : State :=
  { s with frecs := s.frecs.filterMap (fun r =>
      if r.id = id then (if r.status = .dead then none else some { r with status := .popped }) else some r) }

/-- The unresolved live record with a sequence number (R166, R236). -/
def State.liveRecord (s : State) (seq : W64) : Option FRec :=
  s.frecs.find? (fun r => r.numbered && r.seq == seq && !r.resolved && (r.status == .queued || r.status == .popped))

/-! Replay (R235). -/

/-- A record faults again: it takes a new number, and the old entry is no record any more. -/
def State.refault (s : State) (r : FRec) (cause : Nat) : State :=
  let t := s.dropRecord r.id
  { t with
    nextId := t.nextId + 1
    frecs := t.frecs ++ [{ r with id := t.nextId, seq := 0, cause := cause, status := .buffered, numbered := false,
                                  resolved := false, since := t.clock }] }

/-- A group with no record and no waiting lane left, and that waits for no parked command, is Pending and ready again (R52, R233,
R235). -/
def State.unpark (s : State) (g : Nat) : State :=
  let x := s.grp g
  if x.st == .parked && !x.away && (s.recordsOf g).isEmpty && !x.faulted && !s.stuck g then s.makePending g false else s

/-- A group replays its accesses while it is resident, but not from the moment at which a save has laid out its area with their records
(R54, R81). -/
def Group.replays (x : Group) : Bool := x.st.resident && !x.laidOut && !x.away

/-- Replays one faulted lane of an access: it walks again, and is performed as at first issue (R212, R235), in its place in the program
order (R248, R269); `none` in the result: an earlier access has yet to be performed. -/
def State.replayLane (s : State) (g : Nat) (a : Access) (l : LaneAcc) : State × GRead (Option LaneAcc) :=
  let x := s.grp g
  match a.op with
  | .glean d =>
    match s.gleanPart x.core true (leBytes 64 d) l.lane (l.data.getD 0 0) (l.data.getD 1 0) with
    | (t, .error (pa, k)) => (t, .check pa k.va)
    | (t, .ok k) =>
      match k.fault with
      | some c => (t, .fault k.va c)
      | none => (t, .ok (some k))
  | _ =>
    match s.translateWalk (some x.core) ((l.va.setWidth 56).setWidth 64) a.op.need with
    | (t, .fault c) => (t, .fault l.va c)
    | (t, .check pa) => (t, .check pa l.va)
    | (t, .ok pa) =>
      let k := { l with place := some (.hbm, pa), fault := none }
      if !(t.grp g).mayPerform { a with lanes := [k] } then (t, .ok none)
      else if a.op.checks && t.hbmBadIn pa l.size then (t, .check pa l.va)
      else
        let u := t.performAt g a k (.hbm, pa)
        (u.1, .ok (some { k with result := some u.2 }))

/-- Replays the lanes that a record names, in ascending order. -/
def replayLanes (s : State) (g : Nat) (id : Nat) (r : FRec) (ls : List LaneAcc) : State :=
  match ls with
  | [] =>
    let t := s.dropRecord r.id
    match (t.grp g).acc.find? (fun a => a.id == id) with
    | some a => (recordFaults 64 t g a).unpark g
    | none => t.unpark g
  | l :: rest =>
    match (s.grp g).acc.find? (fun a => a.id == id) with
    | none => s.dropRecord r.id
    | some a =>
      match s.replayLane g a l with
      | (t, .fault _ c) => t.refault r c
      | (t, .check pa va) =>
        (t.machineCheck g a.split pa va.toNat a.addr (if a.op.isLane then 1#64 <<< l.lane else 0)
          (if a.op.isLane then l.lane else 0xFF)).dropAccess g id
      | (t, .ok none) => t
      | (t, .ok (some k)) =>
        replayLanes (t.setAccess g { a with lanes := a.lanes.map (fun j => if j.lane = k.lane then k else j) }) g id r rest

/-- A command goes on after its fault: the group that waited for it becomes pending (R233). -/
def State.resumeCmd (s : State) (c q n : Nat) : State :=
  let s1 := s.setQueue c q ((s.queue c q).map (fun m => if m.id = n then { m with parked := false } else m))
  match (s.queue c q).find? (fun m => m.id == n) with
  | some m => s1.unpark m.group
  | none => s1

/-- A replay whose access is tried again by its owner: it walks once more and fills the TLB with what it finds, whatever that held for
the page, and only then the record goes (R235). `refused` is what a fault does besides. -/
def State.replayWalk (s : State) (tlb : Option Nat) (r : FRec) (need : Need) (f : State → State)
    (refused : State → Nat → State := fun t _ => t) : State :=
  match (s.invalidate tlb r.va).translateWalk tlb r.va need with
  | (t, .ok _) => f (t.dropRecord r.id)
  | (t, .fault c) => (refused t c).refault r c
  | (t, .check _) => f (t.dropRecord r.id)

/-- A record of the same core with a lower number is still live (R235). -/
def State.heldInOrder (s : State) (r : FRec) : Bool :=
  s.frecs.any (fun q => q.holds && q.numbered && q.core == r.core && (q.kind == 7) == (r.kind == 7) && decide (q.seq.toNat < r.seq.toNat))

end Sys2Proof.Machine
end

