-- ==== Sys2Proof/Machine/Engine.lean ====
section
/-! DEFINITION. Engine commands: issue into a core's queues, the conditions of a start, guards, parking, completion, and the memory
that an engine reaches (R233, R263, R264, R267, R323 to R325, R370, R374). -/

namespace Sys2Proof.Machine

/-! The queues. -/

/-- Queue numbers, as the ENG codes of R232. -/
def qCopy : Nat := 0
def qMatrix : Nat := 1
def qGlean : Nat := 2
def qThresher : Nat := 3
def qWinnow : Nat := 4
def qSequence : Nat := 5

/-- The ENG code of a command's queue; a ring load stands in the Glean queue and reports code 6 (R232, R390). -/
def engOf (i : Instr) (q : Nat) : Nat :=
  match i with
  | .rsload _ => 6
  | _ => q

/-- The SE fields that every engine command shares are legal (R90, R323): the scope, no scope without an ordering, and the guard. -/
def seLegal (o : SeOps) (maxScope : Nat) : Bool :=
  decide (o.scope.toNat ≤ maxScope) && (o.scope == 0 || o.acq || o.rel) && (decide (o.g.toNat < 16) || o.g == 31)

/-- Puts a command at the tail of a queue (R324). -/
def State.pushCmd (s : State) (c q : Nat) (m : Cmd) : State :=
  s.modCore c (fun k => { k with
    queues := k.queues.put q (k.queues.get [] q ++ [{ m with tag := (k.tagNo.get 0 q) % 128 }])
    tagNo := k.tagNo.put q ((k.tagNo.get 0 q + 1) % 128) })

/-- A command as it enters its queue: counted on its group's counter (R73, R323). -/
def State.enterCmd (s : State) (g sp q ctr : Nat) (row : Instr) (vals : List W64) (addr : W64) (ctx : Option Nat) (pops : BitVec 8)
    (after : Option Nat) (held : List Nat) : State :=
  let u := s.fresh
  let m : Cmd := { id := u.1, tag := 0, group := g, split := sp, row := row, vals := vals, addr := addr, ctx := ctx, pops := pops,
                   after := after.getD u.1, started := false, finished := false, parked := false, progress := 0, bytes := 0,
                   held := held, recs := [], reads := [], plan := none }
  (u.2.modGrp g (fun x => x.countUp (some ctr) u.1)).pushCmd (s.grp g).core q m

/-- A value that the command carries: 0 and 1 are s[A] and s[A+1], 2 to 5 are s[B] to s[B+3] (R377). -/
def valAt (vals : List W64) (k : Nat) : W64 := vals.getD k 0

def Cmd.val (m : Cmd) (k : Nat) : W64 := valAt m.vals k

/-- What a row of an engine command fixes: its queue, its counter, the widest scope, and how many registers from A and from B on it
reads. -/
structure CmdShape where
  queue : Nat
  ctr : Nat := 4
  maxScope : Nat := 3
  na : Nat := 1
  nb : Nat := 0

/-- The registers that a command names. -/
def CmdShape.regs (k : CmdShape) (o : SeOps) : List (BitVec 6) :=
  (List.range k.na).map (fun i => o.a + BitVec.ofNat 6 i) ++ (List.range k.nb).map (fun i => o.b + BitVec.ofNat 6 i)

/-- The register values of a command, read at its issue (R323). -/
def State.cmdVals (s : State) (k : CmdShape) (o : SeOps) : List W64 :=
  let a := fun i => if i < k.na then s.sreg (o.a + BitVec.ofNat 6 i) else 0
  let b := fun i => if i < k.nb then s.sreg (o.b + BitVec.ofNat 6 i) else 0
  [a 0, a 1, b 0, b 1, b 2, b 3]

/-- A scalar engine command issues (R323, R324): its checks at issue, a full counter, a full queue, then its place in the queue.
`held` are lane registers it reads later (R266). -/
def State.issueCmd (s : State) (k : CmdShape) (o : SeOps) (row : Instr) (legal : State → Nat → List W64 → Bool)
    (held : List W64 → List Nat) : Out :=
  s.groupDo (k.regs o) (fun g sp t =>
    let v := t.cmdVals k o
    let x := t.grp g
    if !seLegal o k.maxScope || !legal t g v then t.illegal
    else if x.counterFull (some k.ctr) then t.stallAs .counterFull
    else if 16 ≤ (t.queue x.core k.queue).length then t.stallAs .engineFull
    else if (held v).any (fun r => t.regAwaited g sp r) then t.stallAs .interlock
    else (t.enterCmd g sp k.queue k.ctr row v (t.split g sp).spc none 0 none (held v)).advance)

/-! Starting. -/

/-- Everything that the group's splits (those that `mine` names) put before place `pos` of the program order has been performed: the
accesses in flight, and the clauses, which have issued (R159, R253, R263, R268). -/
def Group.doneBefore (x : Group) (mine : Nat → Bool) (pos : Nat) : Bool :=
  let before := fun (q : List QEntry) => q.any (fun e => decide (e.no < pos) && (match e.kind with
    | .clause _ _ => true
    | .vset _ _ | .mset _ | .fpctl _ => false))
  x.acc.all (fun a => !mine a.split || !decide (a.no < pos) || a.performed) &&
    x.splits.all (fun p => !mine p.1 || !(before p.2.queue || before p.2.hqueue))

/-- REL of a command (R263, R268): the accesses before it are performed, and the clauses before it have issued. -/
def State.relReady (s : State) (m : Cmd) : Bool :=
  (s.grp m.group).doneBefore (fun sp => m.ctx.isSome || sp == m.split) m.after &&
    (m.ctx.isNone || (s.core (s.grp m.group).core).queues.all (fun q => q.2.all (fun n =>
      !(n.ctx == m.ctx && n.group == m.group && decide (n.id < m.id)))))

/-- Replaces a command of a queue. -/
def State.setCmd (s : State) (c q : Nat) (m : Cmd) : State :=
  s.setQueue c q ((s.queue c q).map (fun n => if n.id = m.id then m else n))

/-- Removes a command that has completed; it lowers its counter and takes its pops (R264, R377). -/
def State.leaveQueue (s : State) (m : Cmd) : State := (s.dropCmds [m.id]).retireCmd m

/-- The command has done its work. -/
def State.finish (s : State) (c q : Nat) (m : Cmd) (bytes : Nat) : State :=
  s.setCmd c q { m with started := true, finished := true, parked := false, bytes := bytes, held := [] }

/-- A fault parks a command at an element, with a record, when the buffer has room; its group parks with it if it waits for it (R230,
R233). Without room the command is tried again. -/
def State.parkCmd (s : State) (c q : Nat) (m : Cmd) (write : Bool) (va : W64) (cause progress : Nat) : State :=
  if 64 ≤ (s.frecs.filter (fun r => r.holds && r.core == c && r.kind != 7)).length then s.setCmd c q { m with started := true, progress := progress }
  else
    let x := s.grp m.group
    ((s.setCmd c q { m with started := true, parked := true, progress := progress }).addRecord (.engine c q m.id) c
      (if write then 6 else 5) m.split cause x.slotNo m.tag (engOf m.row q) va 0 m.addr).parkStuck m.group

/-- A cause that a command raises, reported with its address and TAG (R271, R325). -/
def State.trapCmd (s : State) (m : Cmd) (cause : BitVec 8) : State :=
  s.fatal m.group cause m.addr 0 (BitVec.ofNat 64 m.tag) (16 + m.split)

/-- An uncorrectable error met by a command: the journal names the core whose memory failed (R238, R271, R320). -/
def State.checkCmd (s : State) (m : Cmd) (pa : Nat) (va : W64) (core : Nat) : State :=
  (s.noteCheck pa va.toNat m.addr.toNat core (s.grp m.group).slotNo 0xFF).trapCmd m 0x19

/-- What stops a command's work on memory; an error names the core whose SRAM, or whose access, met it. -/
inductive Stop where
  | fault (write : Bool) (va : W64) (cause : Nat)
  | check (pa : Nat) (va : W64) (core : Nat)
  deriving DecidableEq, Repr

/-- Ends a command's turn by what stopped it; the command keeps what it has read (R233). -/
def State.stopCmd (s : State) (c q : Nat) (m : Cmd) (r : Stop) (progress : Nat) : State :=
  match r with
  | .fault w va k => s.parkCmd c q { m with seen := s.read.reverse } w va k progress
  | .check pa va core => s.checkCmd m pa va core

/-- Reads `n` bytes for the command in hand on a core's TLB: first those that it had read by its last fault (R233). -/
def State.bytesAt (s : State) (c : Nat) (va : W64) (n : Nat) : State × Except Stop (List Byte) :=
  match n with
  | 0 => (s, .ok [])
  | k + 1 =>
    let one : State × GRead (List Byte) := match s.again with
      | b :: more => ({ s with again := more }, .ok [b])
      | [] => s.readVirt (some c) { r := true } va 1
    match one with
    | (t, .fault a e) => (t, .error (.fault false a e))
    | (t, .check pa a) => (t, .error (.check pa a c))
    | (t, .ok b) =>
      match ({ t with read := b ++ t.read } : State).bytesAt c (va + 1) k with
      | (u, .ok bs) => (u, .ok (b ++ bs))
      | (u, .error e) => (u, .error e)

/-- A turn of a command: what it has read by its last fault is at hand, and nothing is kept when the turn ends. -/
def State.cmdTurn (s : State) (m : Cmd) (work : State → State) : State :=
  { work { s with again := m.seen, read := [] } with again := [], read := [] }

/-- The command that a queue starts next: its head, but that a merge job which has attached does not hold the Thresher queue, unless
it acquires or the next command releases (R263, R343). -/
def nextCmd (l : List Cmd) : Option Cmd :=
  match l with
  | [] => none
  | m :: rest =>
    match m.row with
    | .thresh o =>
      if m.started && !m.parked && m.recs != [] && !o.acq then
        match nextCmd rest with
        | some k => if (match seOpsOf k.row with
            | some p => p.rel
            | none => false) then none else some k
        | none => none
      else some m
    | _ => some m

/-- The head command of the queue of the engine in hand starts, or goes on after a replay: guard, REL, then its work (R263, R370). -/
def State.engineDo (s : State) (row : Instr) (work : Nat → Nat → Cmd → State → State) : Out :=
  match s.cur with
  | .engine c q =>
    match nextCmd (s.queue c q) with
    | none => .refused .noAgent
    | some m =>
      if m.row ≠ row then .refused .noAgent
      else if (s.grp m.group).core ≠ c then .next s
      else if m.parked || (m.finished && m.got.isEmpty) then .next s
      else
        let goes := match seOpsOf row with
          | some o =>
            if o.g = 31 ∨ m.started then some true
            else
              match (s.grp m.group).guards.get .unresolved o.g.toNat with
              | .unresolved => none
              | .false => some false
              | .true => some true
          | none => some true
        match goes with
        | none => .next s
        | some false => .next ((s.dropCmds [m.id]).discardCmd m)
        | some true =>
          let rel := match seOpsOf row with
            | some o => o.rel
            | none => false
          if rel && !m.started && !s.relReady m then .next s else .next (s.cmdTurn m (work c q m))
  | .device | .scalar _ _ | .lane _ _ | .service _ | .halyard _ _ => .refused .noAgent

/-- An engine command's row: it is performed by the engine in hand, and issued by a scalar stream. -/
def State.engineRow (s : State) (k : CmdShape) (o : SeOps) (row : Instr) (legal : State → Nat → List W64 → Bool)
    (held : List W64 → List Nat) (work : Nat → Nat → Cmd → State → State) : Out :=
  match s.cur with
  | .engine _ _ => s.engineDo row work
  | .device | .scalar _ _ | .lane _ _ | .service _ | .halyard _ _ => s.issueCmd k o row legal held

/-! Memory as an engine reaches it. -/

/-- The core whose memory a place is in; core `c` met an error of HBM. -/
def Space.owner (p : Space) (c : Nat) : Nat :=
  match p with
  | .hbm => c
  | .spad k | .tile k _ => k

/-- Where an engine's byte lies: 0 global, 1 the local window of core `lc`, 2 the cluster window (R314, R333, R335). -/
def State.engPlace (s : State) (c lc : Nat) (x : Group) (space : Nat) (need : Need) (a : Nat) : State × Except Stop (Space × Nat) :=
  match space with
  | 0 =>
    let va := BitVec.ofNat 64 (a % 2 ^ 56)
    match s.translate (some c) va need with
    | (t, .ok pa) => (t, .ok (.hbm, pa))
    | (t, .fault k) => (t, .error (.fault need.w va k))
    | (t, .check pa) => (t, .error (.check pa va c))
  | 1 => (s, .ok (.spad lc, a % 2 ^ 21))
  | _ => (s, .ok ((x.spadPlace .cluster a 1).getD (.spad lc, a % 2 ^ 21)))

/-- The places of `n` bytes. -/
def State.engPlaces (s : State) (c lc : Nat) (x : Group) (space : Nat) (need : Need) (a n : Nat) : State × Except Stop (List (Space × Nat)) :=
  match n with
  | 0 => (s, .ok [])
  | k + 1 =>
    match s.engPlace c lc x space need a with
    | (t, .error e) => (t, .error e)
    | (t, .ok p) =>
      match t.engPlaces c lc x space need (a + 1) k with
      | (u, .ok ps) => (u, .ok (p :: ps))
      | (u, .error e) => (u, .error e)

/-- Reads bytes; a unit that holds an uncorrectable error stops the read (R238). -/
def State.engRead (s : State) (c lc : Nat) (x : Group) (space : Nat) (egress : Bool) (a n : Nat) : State × Except Stop (List Byte) :=
  match s.engPlaces c lc x space { r := true, egress := egress } a n with
  | (t, .error e) => (t, .error e)
  | (t, .ok ps) =>
    match ps.find? (fun p => t.badPlace p 1) with
    | some p => (t, .error (.check p.2 (BitVec.ofNat 64 (a % 2 ^ 56)) (p.1.owner c)))
    | none => (t, .ok (ps.map (fun p => (t.readPlace p 1).headD 0)))

/-- Writes bytes at places, lowest first, each by itself: none of them is a write of a whole 32-byte unit (R238; log 27). -/
def State.putPlaces (s : State) (ps : List (Space × Nat)) (bs : List Byte) : State :=
  (ps.zip bs).foldl (fun t p => t.writePlace none p.1 [p.2]) s

def State.engWrite (s : State) (c lc : Nat) (x : Group) (space a : Nat) (bs : List Byte) : State × Except Stop Unit :=
  match s.engPlaces c lc x space { w := true } a bs.length with
  | (t, .error e) => (t, .error e)
  | (t, .ok ps) => (t.putPlaces ps bs, .ok ())

/-- Reads the `w`-bit element at bit `b`. -/
def State.engBits (s : State) (c : Nat) (x : Group) (space : Nat) (egress : Bool) (b w : Nat) : State × Except Stop Nat :=
  match s.engRead c x.core x space egress (b / 8) ((b + w - 1) / 8 - b / 8 + 1) with
  | (t, .error e) => (t, .error e)
  | (t, .ok bs) => (t, .ok (leNat bs / 2 ^ (b % 8) % 2 ^ w))

/-- Writes the `w`-bit element at bit `b`; the other bits of its bytes stay. -/
def State.engPutBits (s : State) (c : Nat) (x : Group) (space b w v : Nat) : State × Except Stop Unit :=
  let n := (b + w - 1) / 8 - b / 8 + 1
  match s.engPlaces c x.core x space { w := true } (b / 8) n with
  | (t, .error e) => (t, .error e)
  | (t, .ok ps) =>
    let old := leNat (ps.map (fun p => (t.readPlace p 1).headD 0))
    let lo := old % 2 ^ (b % 8)
    let hi := old / 2 ^ (b % 8 + w)
    (t.putPlaces ps (leBytes n (lo + 2 ^ (b % 8) * (v % 2 ^ w) + 2 ^ (b % 8 + w) * hi)), .ok ())

/-- Runs `f` on the elements from `i` on, `n` of them, until one stops; the answer names the element that stopped. -/
def elemLoop (n i : Nat) (s : State) (f : State → Nat → State × Except Stop Unit) : State × Option (Nat × Stop) :=
  match n with
  | 0 => (s, none)
  | k + 1 =>
    match f s i with
    | (t, .error e) => (t, some (i, e))
    | (t, .ok ()) => elemLoop k (i + 1) t f

/-! Completion. -/

/-- Permits of a context's queue in use: its commands that have neither completed nor been discarded (R374). -/
def State.permitsUsed (s : State) (c x q : Nat) : Nat := ((s.queue c q).filter (fun m => m.ctx == some x)).length

/-- The queue of core `c` that may complete the command: its head, or any merge job of the Thresher queue. -/
def State.queueOf (s : State) (c id : Nat) : Option (Nat × Cmd) :=
  ((s.core c).queues.filterMap (fun p =>
    if p.1 = 3 then (p.2.find? (fun m => m.id == id)).map (fun m => (3, m))
    else match p.2 with
      | m :: _ => if m.id = id then some (p.1, m) else none
      | [] => none)).head?

/-- What a command leaves for its completion (R341, R390): a Glean descriptor, and a ring for its slot, which lane instructions of this clock
do not see (R391). -/
def State.landCmd (s : State) (c : Nat) (m : Cmd) : State :=
  match m.row with
  | .gldesc _ => s.modCore c (fun k => { k with gdescs := k.gdescs.put (m.val 2).toNat m.recs })
  | .rsload _ => s.modCore c (fun k => { k with landing := k.landing ++ [((m.val 2).toNat, m.recs)] })
  | _ => s

/-- ENGINE_COMMAND_COMPLETE: a finished head command completes (R264): its counter falls, its bytes reach their barrier, its pops are
taken. -/
def State.completeCmd (s : State) (c id : Nat) : State :=
  match s.queueOf c id with
  | none => s
  | some (q, m) =>
    if !m.finished || m.parked || m.reads != [] || m.got != [] then s
    else
      let t := (s.landCmd c m).leaveQueue m
      let u := match s.barrierOf m with
        | some (k, n) => if m.bytes = 0 then t else t.addBytes k n (BitVec.ofNat 32 m.bytes)
        | none => t
      u.unpark m.group

/-- ENGINE_COMMAND_COMPLETE (R264). -/
def execEngineCommandComplete (core cmd : Nat) (s : State) : Out := s.eventDo (fun t => t.completeCmd core cmd)

end Sys2Proof.Machine
end

