-- ==== Sys2Proof/Machine/Copy.lean ====
section
/-! DEFINITION. Layout records and the copy family (R317, R333 to R339). -/

namespace Sys2Proof.Machine

/-- A layout record (R333). -/
structure Layout where
  base : Nat
  dev : Nat
  ext : List Nat
  str : List Int
  fmt : Nat
  t : Bool
  l : Bool
  sc : Bool
  space : Nat
  ldim : Nat
  sblk : Nat
  lbase : Nat
  lstr : Int
  sbase : Nat
  sstr : Int
  deriving DecidableEq, Repr

/-- A signed 64-bit field. -/
def intAt (bs : List Byte) (o : Nat) : Int := (BitVec.ofNat 64 (numAt bs o 8)).toInt

def Layout.width (y : Layout) : Nat := fmtBits y.fmt
def Layout.e (y : Layout) (k : Nat) : Nat := y.ext.getD k 0

/-- A record from its 128 bytes, when it keeps R333 and R334. -/
def layoutOf (bs : List Byte) : Option Layout :=
  let flags := numAt bs 0x41 1
  let b := numAt bs 0 8
  let space := flags / 16 % 4
  let y : Layout :=
    { base := if space = 0 then b % 2 ^ 56 else b % 2 ^ 32, dev := b / 2 ^ 56,
      ext := (List.range 5).map (fun k => numAt bs (8 + 4 * k) 4), str := (List.range 4).map (fun k => intAt bs (0x20 + 8 * k)),
      fmt := numAt bs 0x40 1, t := flags.testBit 0, l := flags.testBit 1, sc := flags.testBit 2, space := space,
      ldim := numAt bs 0x42 1, sblk := numAt bs 0x43 1, lbase := numAt bs 0x48 8, lstr := intAt bs 0x50,
      sbase := numAt bs 0x58 8, sstr := intAt bs 0x60 }
  let zeros := numAt bs 0x1C 4 == 0 && numAt bs 0x44 4 == 0 && numAt bs 0x68 24 == 0 && flags / 64 == 0 && !flags.testBit 3
  let scale := if y.sc then y.sblk == 16 || y.sblk == 32 else y.sblk == 0
  let place := if space = 0 then !(decide (192 ≤ y.dev) && decide (y.dev ≤ 254)) else b / 2 ^ 32 == 0xFF000000
  let whole := (y.e 0 * y.width) % 8 == 0 && y.str.all (fun s => (s * y.width) % 8 == 0)
  if (fmtRow y.fmt).isSome && zeros && decide (space ≤ 2) && decide (y.ldim ≤ 4) && scale && place && whole then some y else none

/-- The record's memory is this device's (R339, R434). -/
def State.ownDevice (s : State) (dev : Nat) : Bool := dev == 0xFF || s.deviceId == some dev

/-- The number of elements. -/
def Layout.count (y : Layout) : Nat := y.e 0 * y.e 1 * y.e 2 * y.e 3 * y.e 4

/-- The index of element `n` in element order (R334). -/
def Layout.index (y : Layout) (n : Nat) : List Nat :=
  [n % y.e 0, n / y.e 0 % y.e 1, n / (y.e 0 * y.e 1) % y.e 2, n / (y.e 0 * y.e 1 * y.e 2) % y.e 3,
   n / (y.e 0 * y.e 1 * y.e 2 * y.e 3)]

def at' (l : List Nat) (k : Nat) : Nat := l.getD k 0

/-- The exchange of i0 and i1 (R336). -/
def swap01 (l : List Nat) : List Nat := [at' l 1, at' l 0, at' l 2, at' l 3, at' l 4]

/-- A bit or byte number of the record's space. -/
def wrapAddr (space : Nat) (unit : Nat) (v : Int) : Nat := (v % ((if space = 0 then 2 ^ 56 else 2 ^ 32) * unit : Nat)).toNat

/-- The bit at which the element of an index starts (R334). -/
def Layout.bit (y : Layout) (i : List Nat) : Nat :=
  wrapAddr y.space 8 (8 * y.base + y.width * (at' i 0 + at' i 1 * y.str.getD 0 0 + at' i 2 * y.str.getD 1 0 +
    at' i 3 * y.str.getD 2 0 + at' i 4 * y.str.getD 3 0))

/-- The scale row of an index (R334). -/
def Layout.scaleRow (y : Layout) (i : List Nat) : Nat :=
  at' i 1 + at' i 2 * y.e 1 + at' i 3 * y.e 1 * y.e 2 + at' i 4 * y.e 1 * y.e 2 * y.e 3

/-- The address of the scale byte of an index (R334). -/
def Layout.scaleAt (y : Layout) (i : List Nat) : Nat :=
  wrapAddr y.space 1 (y.sbase + y.scaleRow i * y.sstr + at' i 0 / y.sblk)

/-- The address of the label word of index `j` (R317). -/
def Layout.labelAt (y : Layout) (j : Nat) : Nat := wrapAddr y.space 1 (y.lbase + 4 * j * y.lstr)

/-- A conversion reads its source's block scale (R336). -/
def scaleOfFmt (code : Nat) : ScaleFmt := ((fmtRow code).map FmtRow.scale).getD .none

/-- The pair of formats may be copied (R336): equal, or both in 0 to 16 with the scales that a block format needs. -/
def pairOk (a b : Layout) : Bool :=
  a.fmt == b.fmt ||
    (decide (a.fmt ≤ 16) && decide (b.fmt ≤ 16) && (fmtBlock a.fmt == 0 || a.sc) && (fmtBlock b.fmt == 0 || b.sc))

/-- The records of a COPY agree (R336). -/
def copyOk (a b : Layout) : Bool :=
  !a.t && pairOk a b && (!b.t || decide (8 ≤ a.width) && decide (8 ≤ b.width)) &&
    b.ext == (if b.t then swap01 a.ext else a.ext)

/-- The exact value of a source element, times its scale (R336). -/
def State.copyValue (s : State) (c : Nat) (x : Group) (a : Layout) (i : List Nat) : State × Except Stop Num :=
  match s.engBits c x a.space false (a.bit i) a.width with
  | (t, .error e) => (t, .error e)
  | (t, .ok v) =>
    let y := (elemOf a.fmt).read v
    if fmtBlock a.fmt = 0 then (t, .ok y)
    else
      match t.engRead c x.core x a.space false (a.scaleAt i) 1 with
      | (u, .error e) => (u, .error e)
      | (u, .ok bs) => (u, .ok (scaled y ((scaleOfFmt a.fmt).read (leNat bs))))

/-- The values of some source indexes. -/
def State.copyValues (s : State) (c : Nat) (x : Group) (a : Layout) (is : List (List Nat)) : State × Except Stop (List Num) :=
  match is with
  | [] => (s, .ok [])
  | i :: rest =>
    match s.copyValue c x a i with
    | (t, .error e) => (t, .error e)
    | (t, .ok v) =>
      match t.copyValues c x a rest with
      | (u, .ok vs) => (u, .ok (v :: vs))
      | (u, .error e) => (u, .error e)

/-- The number of the block that holds an index: blocks of SBLK elements, whatever the format's own block (R334; log 31). -/
def Layout.blockNo (y : Layout) (i : List Nat) : Nat := y.scaleRow i * (y.e 0 + 1) + at' i 0 / y.sblk

/-- The scale of the destination block that holds index `j`: chosen from all of the block's source elements and written when the first of
its elements is copied, and the same for the others (R298; log 31). `sc` holds the scales chosen so far. -/
def State.copyScale (s : State) (c : Nat) (x : Group) (a b : Layout) (j : List Nat) (sc : Map Nat) : State × Except Stop Nat :=
  match sc.find (b.blockNo j) with
  | some k => (s, .ok k)
  | none =>
    let first := at' j 0 / b.sblk * b.sblk
    let js := (List.range (min b.sblk (b.e 0 - first))).map (fun k => (first + k) :: j.tail)
    match s.copyValues c x a (if b.t then js.map swap01 else js) with
    | (t, .error e) => (t, .error e)
    | (t, .ok vs) =>
      match t.engWrite c x.core x b.space (b.scaleAt j) (leBytes 1 (blockScale b.fmt vs)) with
      | (u, .ok ()) => (u, .ok (blockScale b.fmt vs))
      | (u, .error e) => (u, .error e)

/-- One element of a COPY (R336): raw bits, or the exact value written in the destination's format; the answer holds the scales chosen
so far. -/
def State.copyElem (s : State) (c : Nat) (x : Group) (a b : Layout) (n : Nat) (sc : Map Nat) : State × Map Nat × Except Stop Unit :=
  let i := a.index n
  let j := if b.t then swap01 i else i
  if a.fmt = b.fmt then
    match s.engBits c x a.space false (a.bit i) a.width with
    | (t, .error e) => (t, sc, .error e)
    | (t, .ok v) =>
      let r := t.engPutBits c x b.space (b.bit j) b.width v
      (r.1, sc, r.2)
  else
    match s.copyValue c x a i with
    | (t, .error e) => (t, sc, .error e)
    | (t, .ok v) =>
      if fmtBlock b.fmt = 0 then
        let r := t.engPutBits c x b.space (b.bit j) b.width ((elemOf b.fmt).write .rne false v 1).1
        (r.1, sc, r.2)
      else
        match t.copyScale c x a b j sc with
        | (u, .error e) => (u, sc, .error e)
        | (u, .ok k) =>
          let r := u.engPutBits c x b.space (b.bit j) b.width (writeScaled b.fmt v ((scaleOfFmt b.fmt).read k))
          (r.1, sc.put (b.blockNo j) k, r.2)

/-- Copies elements from `i` on, `n` of them, until one stops. -/
def State.copyFrom (s : State) (c : Nat) (x : Group) (a b : Layout) (n i : Nat) (sc : Map Nat) : State × Map Nat × Option (Nat × Stop) :=
  match n with
  | 0 => (s, sc, none)
  | k + 1 =>
    match s.copyElem c x a b i sc with
    | (t, m, .error e) => (t, m, some (i, e))
    | (t, m, .ok ()) => t.copyFrom c x a b k (i + 1) m

/-- One label of a COPY.LBL: the label of index `j` of the labelled dimension (R317, R337). -/
def State.copyLabel (s : State) (c : Nat) (x : Group) (a b : Layout) (j : Nat) : State × Except Stop Unit :=
  match s.engRead c x.core x a.space false (a.labelAt j) 4 with
  | (t, .error e) => (t, .error e)
  | (t, .ok bs) => t.engWrite c x.core x b.space (b.labelAt j) bs

/-- A labelled dimension after the exchange (R317). -/
def swapDim (t : Bool) (d : Nat) : Nat := if t ∧ d < 2 then 1 - d else d

/-- The two record addresses of a command, read at its start or kept from it (R325). -/
def State.cmdRecs (s : State) (c : Nat) (m : Cmd) (vas : List W64) (n : Nat) : State × Except Stop (List Byte) :=
  if m.recs != [] then (s, .ok m.recs)
  else
    vas.foldl (fun (t : State × Except Stop (List Byte)) va =>
      match t.2 with
      | .error e => (t.1, .error e)
      | .ok bs =>
        match t.1.bytesAt c va n with
        | (u, .ok more) => (u, .ok (bs ++ more))
        | (u, .error e) => (u, .error e)) (s, .ok [])

/-- Starts a command on its records and keeps them. -/
def State.withRecs (s : State) (c q : Nat) (m : Cmd) (vas : List W64) (n : Nat) (work : State → Cmd → List Byte → State) : State :=
  match s.cmdRecs c m vas n with
  | (t, .error e) => t.stopCmd c q m e m.progress
  | (t, .ok bs) =>
    let k := { m with started := true, recs := bs }
    work (t.setCmd c q k) k bs

/-- Performs the elements that a command has not performed yet, and finishes it with the bytes for its barrier. -/
def State.runElems (s : State) (c q : Nat) (m : Cmd) (total bytes : Nat) (f : State → Nat → State × Except Stop Unit) : State :=
  match elemLoop (total - m.progress) m.progress s f with
  | (t, some (i, e)) => t.stopCmd c q m e i
  | (t, none) => t.finish c q m bytes

/-- Copies the elements that a command has not copied yet, and finishes it as `done` says. -/
def State.runCopy (s : State) (c q : Nat) (m : Cmd) (a b : Layout) (done : State → Cmd → State) : State :=
  match s.copyFrom c (s.grp m.group) a b (a.count - m.progress) m.progress m.scales with
  | (t, sc, some (i, e)) => t.stopCmd c q { m with scales := sc } e i
  | (t, _, none) => done t { m with progress := max m.progress a.count }

/-- A value that a record forbids ends the launch with cause 0x10 (R325). -/
def State.badRecord (s : State) (m : Cmd) : State := s.trapCmd m 0x10

/-- The records of a copy, the first of them the source. -/
def recPair (bs : List Byte) : Option (Layout × Layout) :=
  match layoutOf bs, layoutOf (bs.drop 128) with
  | some a, some b => some (a, b)
  | _, _ => none

/-- COPY on this device (R336). -/
def copyWork (c q : Nat) (m : Cmd) (s : State) : State :=
  s.withRecs c q m [m.val 0, m.val 1] 128 (fun t k bs =>
    match recPair bs with
    | none => t.badRecord k
    | some (a, b) =>
      if !t.ownDevice a.dev || !t.ownDevice b.dev || !copyOk a b then t.badRecord k
      else t.runCopy c q k a b (fun u j => u.finish c q j (a.count * b.width / 8)))

/-- COPY.LBL (R337): the data first, then the labels. -/
def copyLblWork (c q : Nat) (m : Cmd) (s : State) : State :=
  s.withRecs c q m [m.val 0, m.val 1] 128 (fun t k bs =>
    match recPair bs with
    | none => t.badRecord k
    | some (a, b) =>
      if !t.ownDevice a.dev || !t.ownDevice b.dev || !copyOk a b || !a.l || !b.l || b.ldim != swapDim b.t a.ldim then t.badRecord k
      else
        let labels := if a.count = 0 then 0 else a.e a.ldim
        t.runCopy c q k a b (fun u j => u.runElems c q j (a.count + labels) (a.count * b.width / 8) (fun w n =>
          w.copyLabel c (w.grp k.group) a b (n - a.count))))

/-- Writes a byte of the scale store, which ends an error of it (log 97). -/
def State.putScale (s : State) (c at0 : Nat) (b : List Byte) : State :=
  s.modCore c (fun y => { y with scale := y.scale.writeN at0 b, scaleBad := y.scaleBad.filter (· != at0) })

/-- COPY.SCL into the scale store (R337). -/
def copySclWork (c q : Nat) (m : Cmd) (s : State) : State :=
  s.withRecs c q m [m.val 0] 128 (fun t k bs =>
    match layoutOf bs with
    | none => t.badRecord k
    | some a =>
      let soff := ((m.val 1).extractLsb' 0 12).toNat
      let srp := ((m.val 1).extractLsb' 16 12).toNat
      let per := (a.e 0 + a.sblk - 1) / a.sblk
      let rows := a.e 1 * a.e 2 * a.e 3 * a.e 4
      let total := rows * per
      let last := soff * 16 + (rows - 1) * srp + per
      if !t.ownDevice a.dev || !a.sc || srp % 16 != 0 || decide (srp < per) || (decide (0 < total) && decide (65536 < last)) then t.badRecord k
      else
        t.runElems c q k total total (fun u n =>
          let i := n / per
          let at0 := wrapAddr a.space 1 (a.sbase + i * a.sstr + (n % per : Nat))
          match u.engRead c (u.grp k.group).core (u.grp k.group) a.space false at0 1 with
          | (v, .error e) => (v, .error e)
          | (v, .ok b) => (v.putScale c (soff * 16 + i * srp + n % per) b, .ok ())))

/-- FILL: the source's bytes, packed, into a tag-table slot's bytes (R207, R337). -/
def fillWork (c q : Nat) (m : Cmd) (s : State) : State :=
  s.withRecs c q m [m.val 0] 128 (fun t k bs =>
    match layoutOf bs with
    | none => t.badRecord k
    | some a =>
      let slot := ((m.val 1).extractLsb' 0 10).toNat
      let bytes := a.count * a.width / 8
      if !t.ownDevice a.dev || decide (2048 < bytes) then t.badRecord k
      else
        t.runElems c q k a.count bytes (fun u n =>
          match u.engBits c (u.grp k.group) a.space false (a.bit (a.index n)) a.width with
          | (v, .error e) => (v, .error e)
          | (v, .ok w) => v.engPutBits c (u.grp k.group) 1 (slot * 2048 * 8 + n * a.width) a.width w))

/-! Between devices (R234, R339). -/

/-- A Shroud link reaches a device: this one has its id and some link is up (R339, R434). -/
def State.reaches (s : State) (_dev : Nat) : Bool := s.deviceId.isSome && s.links.any (fun p => p.2.up)

/-- No link reaches the device: a machine check in the group, journalled with the device id (R339). -/
def State.unreachable (s : State) (m : Cmd) (dev : Nat) : State :=
  s.checkCmd m dev 0 (s.grp m.group).core

/-- Sends a message. -/
def State.send (s : State) (dev id : Nat) (msg : FleetMsg) : State :=
  { s with fleetOut := s.fleetOut ++ [{ device := dev, message := id, msg := msg }] }

/-- The number of rows of a record: runs of i0. -/
def Layout.rows (y : Layout) : Nat := y.e 1 * y.e 2 * y.e 3 * y.e 4

/-- The byte address of row `r`, whose first element has i0 = 0. -/
def Layout.rowAt (y : Layout) (r : Nat) : Nat := y.bit (y.index (r * y.e 0)) / 8

/-- The elements of row `r` of the destination, gathered from the source. -/
def State.gatherRow (s : State) (c : Nat) (x : Group) (a b : Layout) (r n k : Nat) : State × Except Stop Nat :=
  match n with
  | 0 => (s, .ok 0)
  | l + 1 =>
    let j := b.index (r * b.e 0 + k)
    match s.engBits c x a.space true (a.bit (if b.t then swap01 j else j)) a.width with
    | (t, .error e) => (t, .error e)
    | (t, .ok v) =>
      match t.gatherRow c x a b r l (k + 1) with
      | (u, .ok w) => (u, .ok (v + 2 ^ a.width * w))
      | (u, .error e) => (u, .error e)

/-- Gathers the rows of a PUT from row `r` on, `n` of them; the command keeps those that it has (R233). -/
def State.gatherRows (s : State) (c : Nat) (m : Cmd) (a b : Layout) (n r : Nat) : State × Cmd × Option (Nat × Stop) :=
  match n with
  | 0 => (s, m, none)
  | l + 1 =>
    match s.gatherRow c (s.grp m.group) a b r (b.e 0) 0 with
    | (t, .error e) => (t, m, some (r, e))
    | (t, .ok v) => t.gatherRows c { m with got := m.got ++ [(r, 0, leBytes (b.e 0 * b.width / 8) v)] } a b l (r + 1)

/-- The destination's bytes by address, a later row over an earlier one. -/
def rowsImage (b : Layout) (rows : List (Nat × Nat × List Byte)) : Map Byte :=
  rows.foldl (fun m p => (List.range p.2.2.length).foldl (fun m k => m.put ((b.rowAt p.1 + k) % 2 ^ 56) (p.2.2.getD k 0)) m) []

/-- Bytes by rising address as runs of adjacent ones; no run passes a multiple of 4096. -/
def byteRuns (l : Map Byte) : List (W64 × List Byte) :=
  l.foldr (fun p rest => match rest with
    | (a, bs) :: more =>
      if a = BitVec.ofNat 64 (p.1 + 1) ∧ a.toNat % 4096 ≠ 0 then (BitVec.ofNat 64 p.1, p.2 :: bs) :: more
      else (BitVec.ofNat 64 p.1, [p.2]) :: rest
    | [] => [(BitVec.ofNat 64 p.1, [p.2])]) []

/-- The runs of each 4 KiB of addresses, which hold every byte of each of their aligned 8-byte words (R261). -/
def pagesOf (l : List (W64 × List Byte)) : List (List (W64 × List Byte)) :=
  l.foldr (fun p rest => match rest with
    | (q :: qs) :: more => if p.1.toNat / 4096 = q.1.toNat / 4096 then (p :: q :: qs) :: more else [p] :: rest
    | _ => [p] :: rest) []

/-- Sends the rows of a PUT, the bytes of each 4 KiB of the destination in one message, so that no aligned 8-byte word is torn (R261;
log 32). -/
def State.putRows (s : State) (c q : Nat) (m : Cmd) (b : Layout) : State :=
  let pages := (pagesOf (byteRuns (rowsImage b m.got))).map (fun rs => ((rs.headD (0, [])).1, rs))
  (pages.foldl (fun t p => t.send b.dev m.id (.write p.1 p.2)) s).finish c q
    { m with got := [], reads := (List.range pages.length).zip (pages.map (·.1)) } 0

/-- The records of a remote transfer agree: one on this device, the other global on its own, one format (R339). -/
def farOk (near far : Layout) (a b : Layout) : Bool := far.space == 0 && near.fmt == far.fmt && copyOk a b

/-- A PUT that met a marked page (R435). -/
def State.putRefused (s : State) (c dev : Nat) (e : Stop) : State :=
  match e with
  | .fault _ va cause => s.egressFault (some c) va cause 1 dev
  | .check _ _ _ => s

/-- PUT (R339): the copy itself on this device, else its rows to the destination's device. -/
def putWork (c q : Nat) (m : Cmd) (s : State) : State :=
  s.withRecs c q m [m.val 0, m.val 1] 128 (fun t k bs =>
    match recPair bs with
    | none => t.badRecord k
    | some (a, b) =>
      if !t.ownDevice a.dev then t.badRecord k
      else if t.ownDevice b.dev then
        if !copyOk a b then t.badRecord k
        else t.runCopy c q k a b (fun u j => u.finish c q j 0)
      else if !farOk a b a b then t.badRecord k
      else if !t.reaches b.dev then t.unreachable k b.dev
      else
        match t.gatherRows c k a b ((if a.count = 0 then 0 else b.rows) - k.progress) k.progress with
        | (u, n, some (i, e)) => (u.putRefused c b.dev e).stopCmd c q n e i
        | (u, n, none) => u.putRows c q n b)

/-- One element of a GET's row is written here (R339). -/
def State.getElem (s : State) (c : Nat) (x : Group) (a b : Layout) (r k : Nat) (bs : List Byte) : State × Except Stop Unit :=
  let i := a.index (r * a.e 0 + k)
  s.engPutBits c x b.space (b.bit (if b.t then swap01 i else i)) b.width (leNat bs / 2 ^ (k * a.width) % 2 ^ a.width)

/-- The rows of a GET that have come are written, each from its next element on; a fault parks the command there (R233, R234). -/
def State.landRows (s : State) (c q : Nat) (m : Cmd) (rows : List (Nat × Nat × List Byte)) : State :=
  match rows with
  | [] => s.setCmd c q { m with got := [] }
  | p :: rest =>
    match recPair m.recs with
    | none => s
    | some (a, b) =>
      match elemLoop (a.e 0 - p.2.1) p.2.1 s (fun u k => u.getElem c (u.grp m.group) a b p.1 k p.2.2) with
      | (t, some (k, e)) => t.stopCmd c q { m with got := (p.1, k, p.2.2) :: rest } e m.progress
      | (t, none) => t.landRows c q m rest

/-- GET (R339): the copy itself on this device, else a request for each row of the source; the rows that come are written as they come. -/
def getWork (c q : Nat) (m : Cmd) (s : State) : State :=
  if m.finished then s.landRows c q m m.got
  else s.withRecs c q m [m.val 0, m.val 1] 128 (fun t k bs =>
    match recPair bs with
    | none => t.badRecord k
    | some (a, b) =>
      if !t.ownDevice b.dev then t.badRecord k
      else if t.ownDevice a.dev then
        if !copyOk a b then t.badRecord k
        else t.runCopy c q k a b (fun u j => u.finish c q j 0)
      else if !farOk b a a b then t.badRecord k
      else if !t.reaches a.dev then t.unreachable k a.dev
      else
        let rows := (List.range (if a.count = 0 then 0 else a.rows)).map (fun r => (r, BitVec.ofNat 64 (a.rowAt r)))
        let u := rows.foldl (fun u p => u.send a.dev k.id (.read p.2 (a.e 0 * a.width / 8))) t
        u.finish c q { k with reads := rows } 0)

/-- SIGNAL: one 64-bit word (R339). -/
def signalWork (c q : Nat) (m : Cmd) (s : State) : State :=
  let dev := ((m.val 0).extractLsb' 56 8).toNat
  let va : W64 := (m.val 0).extractLsb' 0 56 |>.setWidth 64
  let bytes := leBytes 8 (m.val 2).toNat
  if s.ownDevice dev then
    match s.engWrite c c (s.grp m.group) 0 va.toNat bytes with
    | (t, .error e) => t.stopCmd c q m e 0
    | (t, .ok ()) => t.finish c q m 0
  else if 192 ≤ dev ∧ dev ≤ 254 then s.badRecord m
  else if !s.reaches dev then s.unreachable m dev
  else (s.send dev m.id (.write va [(va, bytes)])).finish c q { m with reads := [(0, va)] } 0

/-! Issue. -/

def copyShape (ctr maxScope na nb : Nat) : CmdShape := { queue := 0, ctr := ctr, maxScope := maxScope, na := na, nb := nb }

/-- A record address is 128-byte aligned (R335). -/
def recAligned (v : W64) : Bool := v.extractLsb' 0 7 == 0

/-- A barrier word (R335). -/
def barWordOk (v : W64) : Bool := v.extractLsb' 9 55 == 0

def twoRecs (o : SeOps) (v : List W64) : Bool := o.a != 63 && recAligned (valAt v 0) && recAligned (valAt v 1)

def legalCopy (o : SeOps) (_ : State) (_ : Nat) (v : List W64) : Bool := twoRecs o v && barWordOk (valAt v 2)
def legalScl (o : SeOps) (_ : State) (_ : Nat) (v : List W64) : Bool :=
  o.a != 63 && recAligned (valAt v 0) && (valAt v 1).extractLsb' 12 4 == 0 && (valAt v 1).extractLsb' 28 36 == 0 && barWordOk (valAt v 2)
def legalFill (o : SeOps) (_ : State) (_ : Nat) (v : List W64) : Bool :=
  o.a != 63 && recAligned (valAt v 0) && (valAt v 1).extractLsb' 10 54 == 0 && barWordOk (valAt v 2)
def legalPut (o : SeOps) (_ : State) (_ : Nat) (v : List W64) : Bool := twoRecs o v && valAt v 2 == 0
def legalSignal (_ : SeOps) (_ : State) (_ : Nat) (v : List W64) : Bool := (valAt v 0).extractLsb' 0 3 == 0

/-- A command that holds no lane register. -/
def noHeld (_ : List W64) : List Nat := []

/-- COPY (R336). -/
def execCopy (o : SeOps) (s : State) : Out := s.engineRow (copyShape 4 3 2 1) o (.copy o) (legalCopy o) noHeld copyWork
/-- COPY.LBL (R337). -/
def execCopyLbl (o : SeOps) (s : State) : Out := s.engineRow (copyShape 4 3 2 1) o (.copyLbl o) (legalCopy o) noHeld copyLblWork
/-- COPY.SCL (R337). -/
def execCopyScl (o : SeOps) (s : State) : Out := s.engineRow (copyShape 4 3 2 1) o (.copyScl o) (legalScl o) noHeld copySclWork
/-- FILL (R337). -/
def execFill (o : SeOps) (s : State) : Out := s.engineRow (copyShape 4 3 2 1) o (.fill o) (legalFill o) noHeld fillWork
/-- PUT (R339). -/
def execPut (o : SeOps) (s : State) : Out := s.engineRow (copyShape 5 4 2 1) o (.put o) (legalPut o) noHeld putWork
/-- GET (R339). -/
def execGet (o : SeOps) (s : State) : Out := s.engineRow (copyShape 5 4 2 1) o (.get o) (legalPut o) noHeld getWork
/-- SIGNAL (R339). -/
def execSignal (o : SeOps) (s : State) : Out := s.engineRow (copyShape 5 4 1 1) o (.signal o) (legalSignal o) noHeld signalWork

end Sys2Proof.Machine
end

