-- ==== Sys2Proof/Machine/Csr.lean ====
section
/-! DEFINITION. The CSR instruction: the special registers of a group, of a device and of a service core (R77 to R79, R157, R410,
R424, R426). -/

namespace Sys2Proof.Machine

/-- What a set, a clear or a write stores, from the old value and s[A] (R157). -/
def opnNew (k : Nat) (old a : W64) : W64 :=
  match k with
  | 1 => a
  | 2 => old ||| a
  | _ => old &&& ~~~a

/-- The CORE register: die, x and y (R77). -/
def coreCsr (c : Nat) : W64 := BitVec.ofNat 64 (c / 96 * 65536 + c % 8 * 256 + c % 96 / 8)

/-- The value that FPCTL has for the next write or read in the group's issue order (R79, R157). -/
def Group.fpctlNow (x : Group) : W64 := ((x.fpctlQ.getLast?).map (·.2)).getD x.fpctl

/-- A special register of a group, read; none for a number that R77 does not list. -/
def State.csrValue (s : State) (g sp n : Nat) : Option W64 :=
  let x := s.grp g
  let p := x.split sp
  match n with
  | 0x000 => some (BitVec.ofNat 64 x.desc.w)
  | 0x001 => some (BitVec.ofNat 64 x.gid)
  | 0x002 => some (BitVec.ofNat 64 x.grank)
  | 0x003 => some (BitVec.ofNat 64 x.crank)
  | 0x004 => some (BitVec.ofNat 64 x.cluid)
  | 0x005 => some (coreCsr x.core)
  | 0x006 => some (BitVec.ofNat 64 sp)
  | 0x007 => some (BitVec.ofNat 64 (((s.teams.find x.team).map (·.spbase)).getD 0))
  | 0x010 => some x.utvec
  | 0x011 => some p.utcause
  | 0x012 => some p.utmask
  | 0x013 => some p.utpc
  | 0x014 => some p.utinfo
  | 0x020 => some x.fpctlNow
  | 0x021 => some x.fpstat
  | 0x030 => some (BitVec.ofNat 64 x.recn)
  | 0x031 => some (BitVec.ofNat 64 x.recdepth)
  | 0x040 => some (BitVec.ofNat 64 s.time)
  | 0x041 => some (s.core x.core).cycle
  | 0x050 => some x.skips
  | _ => none

/-- FPCTL and FPSTAT keep only the bits of R78. -/
def fpctlBits : W64 := 7
def fpstatBits : W64 := 0x3F

/-- A write, set or clear of a group's register (R157): UTVEC and SKIPS at once, FPSTAT after the wait, FPCTL through the lane
queue. -/
def State.csrGroupWrite (s : State) (g sp k : Nat) (d a : BitVec 6) (n : Nat) : State :=
  let x := s.grp g
  let arg := s.sreg a
  match n with
  | 0x010 => ((s.setGrp g { x with utvec := opnNew k x.utvec arg }).setSreg d x.utvec).advance
  | 0x050 => ((s.setGrp g { x with skips := opnNew k x.skips arg }).setSreg d x.skips).advance
  | 0x021 =>
    if !(x.split sp).drained then s.stallAs .interlock
    else ((s.setGrp g { x with fpstat := opnNew k x.fpstat arg &&& fpstatBits }).setSreg d x.fpstat).advance
  | 0x020 =>
    if (x.split sp).queueFull then s.stallAs .queueFull
    else
      let old := x.fpctlNow
      let new := opnNew k old arg &&& fpctlBits
      let u := s.fresh
      let e : QEntry := { kind := .fpctl x.fpctlNo, val := new, no := u.1, pc := (x.split sp).spc }
      let y := u.2.modGrp g (fun z => { z with fpctlNo := z.fpctlNo + 1, fpctlQ := z.fpctlQ ++ [(z.fpctlNo, new)] })
      ((y.modSplit g sp (fun p => p.enqueue e)).setSreg d old).advance
  | _ => s.illegal

/-- A read of a group's register. -/
def State.csrGroupRead (s : State) (g sp : Nat) (d : BitVec 6) (n : Nat) : State :=
  match s.csrValue g sp n with
  | none => s.illegal
  | some v =>
    if n = 0x021 ∧ !((s.grp g).split sp).drained then s.stallAs .interlock
    else (s.setSreg d v).advance

/-! Service cores (R424). -/

def State.csrServiceValue (s : State) (k n : Nat) : Option W64 :=
  let c := s.svc k
  match n with
  | 0x040 => some (BitVec.ofNat 64 s.time)
  | 0x041 => some c.cycle
  | 0x800 => some (BitVec.ofNat 64 k)
  | 0x801 => some c.serr
  | 0x802 => some c.stvec
  | 0x803 => some c.scause
  | 0x804 => some c.sepc
  | 0x805 => some c.sinfo
  | 0x810 => some s.troot
  | 0x811 => some s.fqbase
  | 0x812 => some s.ringsReg
  | 0x813 => some s.pfxbase
  | 0x814 => some s.wpaddr
  | 0x815 => some 0
  | _ => none

/-- A request failed: SERR takes the code and the sticky bit (R166, R424). -/
def State.setSerr (s : State) (k : Nat) (code : W64) : State := s.setSvc k { s.svc k with serr := code ||| 0x100 }

/-- A ring descriptor of the directory, when it keeps the table of R426. -/
def ringDescOf (v : W64) : Option RingDesc :=
  let n := (v.extractLsb' 0 5).toNat
  if v.extractLsb' 48 16 = 0 ∧ v.extractLsb' 5 7 = 0 ∧ 6 ≤ n ∧ n ≤ 16 then
    some { base := (v.extractLsb' 12 36).toNat * 4096, log2n := n }
  else none

/-- The device reads the ring directory (R426): rings 6 and 7 are unused, and one whose descriptor cannot be read too (R238; log 101). -/
def State.readDirectory (s : State) : State :=
  let t := if s.hbmBadIn s.ringsReg.toNat 48 then s.noteCheck s.ringsReg.toNat 0 0 0xFF 0xFF 0xFF else s
  { t with ringDescs := (List.range 6).foldl (fun m k =>
      match (if s.hbmBadIn (s.ringsReg.toNat + 8 * k) 8 then none else ringDescOf (BitVec.ofNat 64 (s.hbmNat (s.ringsReg.toNat + 8 * k) 8))) with
      | some d => m.put k d
      | none => m.erase k) s.ringDescs }

/-- The rules of the bring-up registers (R424). -/
def bringUpOk (n : Nat) (v : W64) : Bool :=
  match n with
  | 0x810 => v.extractLsb' 0 20 == 0 && decide (v.toNat + 0x100000 ≤ 0x6000000000)
  | 0x811 => v.extractLsb' 0 12 == 0
  | 0x812 => v.extractLsb' 0 6 == 0
  | _ => v.extractLsb' 5 1 == 0 && v.extractLsb' 56 8 == 0 && decide (10 ≤ (v.extractLsb' 0 5).toNat) &&
      decide ((v.extractLsb' 0 5).toNat ≤ 20)

/-- Writes one of TROOT, FQBASE, RINGS and PFXBASE (R424, R426). -/
def State.putBringUp (s : State) (n : Nat) (v : W64) : State :=
  match n with
  | 0x810 => { s with troot := v }
  | 0x811 => { s with fqbase := v }
  | 0x812 => ({ s with ringsReg := v } : State).readDirectory
  | _ => { s with pfxbase := v }

/-- WPDATA: stores at WPADDR and advances its word field (R410, R424). -/
def State.putWpdata (s : State) (v : W64) : State :=
  let id := (s.wpaddr.extractLsb' 8 8).toNat
  let w := (s.wpaddr.extractLsb' 0 6).toNat
  { s with
    wprogs := s.wprogs.put (id * 64 + w) (v.setWidth 32)
    wpaddr := BitVec.ofNat 64 (id * 256 + (w + 1) % 64) }

/-- A write, set or clear of a service core's register (R157, R424). -/
def State.csrServiceWrite (s : State) (c k : Nat) (d a : BitVec 6) (n : Nat) : State :=
  match s.csrServiceValue c n with
  | none => s.illegal
  | some old =>
    let arg := s.sreg a
    let new := opnNew k old arg
    let done := fun (t : State) => (t.setSreg d old).advance
    match n with
    | 0x801 => done (s.setSvc c { s.svc c with serr := new &&& 0x1FF })
    | 0x802 => done (s.setSvc c { s.svc c with stvec := new })
    | 0x814 => done { s with wpaddr := new &&& 0xFF3F }
    | 0x815 => done (s.putWpdata (if k = 3 then 0 else arg))
    | 0x810 | 0x811 | 0x812 | 0x813 =>
      if s.portsOpen then done (s.setSerr c 0x40)
      else if !bringUpOk n new then done (s.setSerr c 0x41)
      else done (s.putBringUp n new)
    | _ => s.illegal

def State.csrServiceRead (s : State) (c : Nat) (d : BitVec 6) (n : Nat) : State :=
  match s.csrServiceValue c n with
  | none => s.illegal
  | some v => (s.setSreg d v).advance

/-- CSR with OPN `k` on register `n` (R157), for whoever issues it. -/
def State.csr (s : State) (k : Nat) (d a : BitVec 6) (n : Nat) : Out :=
  match s.cur with
  | .service c =>
    .next (if k = 0 then s.csrServiceRead c d n else s.csrServiceWrite c k d a n)
  | .device | .scalar _ _ | .lane _ _ | .engine _ _ | .halyard _ _ =>
    s.groupDo [d, a] (fun g sp t => if k = 0 then t.csrGroupRead g sp d n else t.csrGroupWrite g sp k d a n)

/-- A write form with the OPN of its word; OPN 0 is no write. -/
def State.csrForm (s : State) (k : BitVec 2) (d a : BitVec 6) (n : Nat) : Out :=
  if k = 0 then s.scalarDo [] State.illegal else s.csr k.toNat d a n

/-- CSRR (R157). -/
def execCsrr (d : BitVec 6) (n : BitVec 12) (s : State) : Out := s.csr 0 d 0 n.toNat
/-- CSRW (R157). -/
def execCsrw (d a : BitVec 6) (n : BitVec 12) (s : State) : Out := s.csr 1 d a n.toNat
/-- CSRS (R157). -/
def execCsrs (d a : BitVec 6) (n : BitVec 12) (s : State) : Out := s.csr 2 d a n.toNat
/-- CSRC (R157). -/
def execCsrc (d a : BitVec 6) (n : BitVec 12) (s : State) : Out := s.csr 3 d a n.toNat
/-- A write, set or clear of FPCTL (R79). -/
def execFpctlWrite (k : BitVec 2) (d a : BitVec 6) (s : State) : Out := s.csrForm k d a 0x020
/-- A read of FPSTAT (R79). -/
def execFpstatRead (d : BitVec 6) (s : State) : Out := s.csr 0 d 0 0x021
/-- A write, set or clear of FPSTAT (R157). -/
def execFpstatWrite (k : BitVec 2) (d a : BitVec 6) (s : State) : Out := s.csrForm k d a 0x021
/-- A write, set or clear of UTVEC, SKIPS, SERR, STVEC or WPADDR (R157). -/
def execRegisterWrite (k : BitVec 2) (d a : BitVec 6) (n : BitVec 12) (s : State) : Out := s.csrForm k d a n.toNat
/-- A write, set or clear of TROOT (R424). -/
def execTrootWrite (k : BitVec 2) (d a : BitVec 6) (s : State) : Out := s.csrForm k d a 0x810
/-- A write, set or clear of FQBASE (R424). -/
def execFqbaseWrite (k : BitVec 2) (d a : BitVec 6) (s : State) : Out := s.csrForm k d a 0x811
/-- A write, set or clear of RINGS: the device reads the ring directory (R426). -/
def execRingsWrite (k : BitVec 2) (d a : BitVec 6) (s : State) : Out := s.csrForm k d a 0x812
/-- A write, set or clear of PFXBASE (R424). -/
def execPfxbaseWrite (k : BitVec 2) (d a : BitVec 6) (s : State) : Out := s.csrForm k d a 0x813
/-- A write, set or clear of WPDATA (R410). -/
def execWpdataWrite (k : BitVec 2) (d a : BitVec 6) (s : State) : Out := s.csrForm k d a 0x815

end Sys2Proof.Machine
end

