-- ==== Sys2Proof/Machine/Stream.lean ====
section
/-! DEFINITION. The counter-based random stream and the uniforms and Gumbel values drawn from it (R405, R406). -/

namespace Sys2Proof.Machine

/-- Mix (R405). -/
def mixStream (z : W64) : W64 :=
  let z1 := (z ^^^ (z >>> 29)) * 0x9A3C5E712B4D86F3#64
  let z2 := (z1 ^^^ (z1 >>> 32)) * 0xD1B54A32D192ED03#64
  z2 ^^^ (z2 >>> 29)

/-- The rounds of Stream (R405). -/
def streamRounds (n : Nat) (a b : W64) : W64 × W64 :=
  match n with
  | 0 => (a, b)
  | k + 1 =>
    let a1 := mixStream (a + b)
    let b1 := mixStream (b ^^^ rotr a1 23)
    streamRounds k a1 b1

/-- Stream(K, P, N, T) as the final a and b: w0 and w1 are the halves of a, w2 and w3 those of b (R405). -/
def stream (k : W64) (p n t : W32) : W64 × W64 :=
  streamRounds 4 (k ^^^ (p ++ n)) (rotr k 17 ^^^ (t ++ 0x53485A32#32))

/-- The uniform (2r + 1) × 2^−24 of w0 (R406). -/
def uniformOf (w0 : W32) : Nat := (f32.round .rne false false (2 * (w0.toNat % 2 ^ 23) + 1) (-24) false).1

/-- The code of a binary32 operation rounded to nearest even with nothing flushed. -/
def rnMul (a b : Nat) : Nat := (f32.mul .rne false a b).1
def rnAdd (a b : Nat) : Nat := (f32.add .rne false a b).1
def rnSub (a b : Nat) : Nat := (f32.sub .rne false a b).1
def rnNeg (a : Nat) : Nat := (a + 2 ^ 31) % 2 ^ 32
def rnLog2 (a : Nat) : Nat := (flog2 false a).1
def rnExp2 (a : Nat) : Nat := (fexp2 false a).1

/-- The Gumbel value of w0 (R406). -/
def gumbelOf (w0 : W32) : Nat :=
  let t2 := rnMul (rnLog2 (uniformOf w0)) 0x3F317218
  let t4 := rnLog2 (rnNeg t2)
  rnNeg (rnMul t4 0x3F317218)

end Sys2Proof.Machine
end

