-- ==== Sys2Proof/Machine/LaneCross.lean ====
section
/-! DEFINITION. The cross-lane instructions, XPR and RNG (R183 to R190, R407). -/

namespace Sys2Proof.Machine

/-- A result computed lane by lane, of shape G. -/
def LaneEnv.gen (e : LaneEnv) (f : Nat → W32) : LaneReg := .g ((List.range e.w).map f)

/-- The source lane of shfl (R184). -/
def shflFrom (mode l b : Nat) : Option Nat :=
  match mode with
  | 0 => some b
  | 1 => if b ≤ l then some (l - b) else none
  | 2 => some (l + b)
  | _ => some (l ^^^ b)

/-- shfl (R184). -/
def doShfl (o : LaneOps) (s : State) : Out := s.laneDo 0x0C0 o (fun e =>
  effReg o (e.gen (fun l =>
    let fill := if o.mod.toNat % 2 = 1 then 0 else e.av l
    match shflFrom (o.mod.toNat / 2) l ((e.bv l).toNat % 64) with
    | some k => if k < e.w ∧ e.act.getLsbD k then e.av k else fill
    | none => fill)))

/-- shfl (R184). -/
def execShfl (o : LaneOps) (s : State) : Out := doShfl o s

/-- vote (R185). -/
def doVote (o : LaneOps) (s : State) : Out := s.laneDo 0x0C1 o (fun e =>
  let m := e.maskOf o.a.toNat &&& e.act
  match o.mod.toNat with
  | 0 => { regs := [(o.d.toNat, .u (m.setWidth 32)), (o.d.toNat + 1, .u (m.extractLsb' 32 32))] }
  | 1 => effReg o (.u (b32 (m != 0)))
  | 2 => effReg o (.u (b32 (m == e.act)))
  | _ => effReg o (.u (b32 (m == 0 || m == e.act))))

/-- vote (R185). -/
def execVote (o : LaneOps) (s : State) : Out := doVote o s

/-- The operation of RED on two values, with its flags (R187). -/
def redOp (red : Nat) (fp : W64) (x y : W32) : W32 × Nat :=
  let flt := fun (r : Flagged) => (BitVec.ofNat 32 r.1, r.2)
  let z := fpFtz fp
  match red with
  | 0 => (x + y, 0)
  | 1 => (smin x y, 0)
  | 2 => (smax x y, 0)
  | 3 => (umin x y, 0)
  | 4 => (umax x y, 0)
  | 5 => (x &&& y, 0)
  | 6 => (x ||| y, 0)
  | 7 => (x ^^^ y, 0)
  | 8 => flt (f32.add (rndMode 0 fp) z x.toNat y.toNat)
  | 9 => flt (f32.minmax z true x.toNat y.toNat)
  | _ => flt (f32.minmax z false x.toNat y.toNat)

/-- The identity of RED (R187). -/
def redIdentity (red : Nat) : W32 :=
  match red with
  | 1 => 0x7FFFFFFF
  | 2 => 0x80000000
  | 3 | 5 => 0xFFFFFFFF
  | 8 => 0x80000000
  | 9 => 0x7F800000
  | 10 => 0xFF800000
  | _ => 0

/-- The running reduction over the active lanes, ascending: each lane's value up to and including it, and the union of the
flags (R186, R187). -/
def redScan (red : Nat) (fp : W64) (v : Nat → W32) (lanes : List Nat) : List (Nat × W32) × Nat :=
  lanes.foldl (fun t l =>
    match t.1.getLast? with
    | none => ([(l, v l)], t.2)
    | some (_, x) =>
      let r := redOp red fp x (v l)
      (t.1 ++ [(l, r.1)], t.2 ||| r.2)) ([], 0)

/-- The index-carrying winner (R188): value and index, and NV for a signalling NaN. -/
def redIndexed (wantMax ftz : Bool) (v i : Nat → W32) (lanes : List Nat) : W32 × W32 × Nat :=
  let worst : Nat := if wantMax then 0xFF800000 else 0x7F800000
  let rd := fun l =>
    let x := f32.read ftz (v l).toNat
    if x.isNan then worst else (f32.write .rne false x).1
  let better := fun (a b : Nat × W32) =>
    let c := (f32.decode a.1).cmp (f32.decode b.1)
    if c = 0 then decide (a.2.toNat < b.2.toNat) else decide (0 < c) == wantMax
  let nv := lanes.foldl (fun m l => m ||| (f32.read ftz (v l).toNat).nv) 0
  match lanes with
  | [] => (0, 0, 0)
  | h :: t =>
    let w := t.foldl (fun best l => if better (rd l, i l) best then (rd l, i l) else best) (rd h, i h)
    (BitVec.ofNat 32 w.1, w.2, nv)

/-- red (R186 to R188). -/
def doRed (o : LaneOps) (s : State) : Out := s.laneDo 0x0C2 o (fun e =>
  let red := o.mod.toNat
  if red = 11 ∨ red = 12 then
    let r := redIndexed (red == 11) e.ftz e.av e.bv e.lanes
    { regs := [(o.d.toNat, .u r.1), (o.d.toNat + 1, .u r.2.1)], fp := r.2.2 }
  else
    let r := redScan red e.run.fpctl e.av e.lanes
    { regs := [(o.d.toNat, .u ((r.1.getLast?.map (·.2)).getD 0))], fp := r.2 })

/-- red (R186 to R188). -/
def execRed (o : LaneOps) (s : State) : Out := doRed o s

/-- scan: inclusive, or `.excl` with the identity first (R186, R187). -/
def doScan (o : LaneOps) (s : State) : Out := s.laneDo 0x0C3 o (fun e =>
  let red := o.mod.toNat % 16
  let excl := o.mod.toNat / 16 = 1
  let r := redScan red e.run.fpctl e.av (if excl then e.lanes.dropLast else e.lanes)
  { regs := [(o.d.toNat, e.gen (fun l =>
      let upTo := r.1.filter (fun p => if excl then p.1 < l else p.1 ≤ l)
      (upTo.getLast?.map (·.2)).getD (redIdentity red)))], fp := r.2 })

/-- scan (R186, R187). -/
def execScan (o : LaneOps) (s : State) : Out := doScan o s

/-- vtos: the lane that B of the lowest active lane names (R189). -/
def doVtos (o : LaneOps) (s : State) : Out := s.laneDo 0x0C4 o (fun e =>
  let j := (e.bv (e.lanes.headD 0)).toNat % 64
  effReg o (e.gen (fun _ => if j < e.w then e.av j else 0)))

/-- vtos (R189). -/
def execVtos (o : LaneOps) (s : State) : Out := doVtos o s

/-! XPR (R101, R190). -/

/-- One token on the stack, top first. -/
def xprStep (fp : W64) (a b c d : Nat) (tok : Nat) (st : List Nat) : List Nat × Nat :=
  let rm := rndMode 0 fp
  let z := fpFtz fp
  let push := fun (r : Flagged) (rest : List Nat) => (r.1 :: rest, r.2)
  match tok, st with
  | 1, _ => (a :: st, 0)
  | 2, _ => (b :: st, 0)
  | 3, _ => (c :: st, 0)
  | 4, _ => (d :: st, 0)
  | 5, y :: x :: t => push (f32.add rm z x y) t
  | 6, y :: x :: t => push (f32.sub rm z x y) t
  | 7, y :: x :: t => push (f32.mul rm z x y) t
  | 8, w :: y :: x :: t => push (f32.fma rm z x y w) t
  | 9, y :: x :: t => push (f32.minmax z true x y) t
  | 10, y :: x :: t => push (f32.minmax z false x y) t
  | 11, x :: t => (rnNeg x :: t, 0)
  | 12, x :: t => (x % 2 ^ 31 :: t, 0)
  | 13, x :: t => push (frcp z x) t
  | 14, x :: t => push (fexp2 z x) t
  | 15, x :: t => push (flog2 z x) t
  | _, _ => (st, 0)

/-- The token program of one lane: its result and flags (R190). -/
def xprRun (fp : W64) (a b c d : Nat) (ts : List Nat) : Flagged :=
  let r := ts.foldl (fun (t : List Nat × Nat) k =>
    let u := xprStep fp a b c d k t.1
    (u.1, t.2 ||| u.2)) ([], 0)
  (r.1.headD 0, r.2)

/-- xpr (R101, R190). -/
def doXpr (o : LaneOps) (s : State) : Out := s.laneDo 0x0C5 o (fun e =>
  floatEff e o (fun l => xprRun e.run.fpctl (e.av l).toNat (e.bv l).toNat (e.cv l).toNat (e.e.lane l).toNat (xprTokens o)))

/-- xpr (R101, R190). -/
def execXpr (o : LaneOps) (s : State) : Out := doXpr o s

/-- rng (R407). -/
def doRng (o : LaneOps) (s : State) : Out := s.laneDo 0x0C6 o (fun e =>
  let st := fun l => stream (pairLane e.a l) ((nth e.b 0).lane l) ((nth e.b 1).lane l) (e.cv l)
  { regs := [(o.d.toNat, e.gen (fun l => (st l).1.setWidth 32)), (o.d.toNat + 1, e.gen (fun l => (st l).1.extractLsb' 32 32)),
             (o.d.toNat + 2, e.gen (fun l => (st l).2.setWidth 32)),
             (o.d.toNat + 3, e.gen (fun l => (st l).2.extractLsb' 32 32))] })

/-- rng (R407). -/
def execRng (o : LaneOps) (s : State) : Out := doRng o s

end Sys2Proof.Machine
end

