-- ==== Sys2Proof/Machine/Rings.lean ====
section
/-! DEFINITION. Rings and the ringset lane instructions (R381 to R398). -/

namespace Sys2Proof.Machine

/-- Bit WL. -/
def wlIf (m : W64) : Nat := if m = BitVec.allOnes 64 then fWL else 0

/-- The cells s, s + 1, … of an arc of `n` cells, each modulo 64 (R383). -/
def arcCells (s n : Nat) : W64 := (BitVec.ofNat 64 (2 ^ n - 1)).rotateLeft s

/-- Arc (R383): the mask and NV for an illegal form. -/
def arcOf (v : Nat) : W64 × Nat :=
  let kind := v / 4096 % 16
  if kind = 0 then (arcCells (v % 64) (v / 64 % 64 + 1), 0)
  else if kind = 1 ∧ v % 4096 = 0 then (0, 0)
  else (BitVec.allOnes 64, fNV)

/-- The number of cells in a mask. -/
def cellCount (x : W64) : Nat := popNat 64 x.toNat

/-- Arcs that cover a mask, by least length and then least START (R384). -/
def compress (x : W64) : Nat :=
  if x = 0 then 0x1000
  else if x = BitVec.allOnes 64 then 0x0FC0
  else
    let covers := fun (s n : Nat) => x &&& ~~~(arcCells s n) == 0
    let lens := (List.range 64).map (fun s => (s, ((List.range 65).find? (fun n => covers s n)).getD 64))
    match argMin (fun p => p.2 * 64 + p.1) lens with
    | some (s, n) => s + (n - 1) * 64
    | none => 0x1000

/-- Neg (R381, R393). -/
def negCells (x : W64) : W64 :=
  (onesOf x 64).foldl (fun m c => m ||| (1#64 <<< ((64 - c) % 64))) 0

/-- The union of table entries, with the flags of illegal ones. -/
def unionArcs (l : List Nat) : W64 × Nat :=
  l.foldl (fun t v =>
    let a := arcOf v
    (t.1 ||| a.1, t.2 ||| a.2)) (0, 0)

/-! The shipped ring B15 (R386, R387), as exact values. -/

/-- The ends of a cell of a ring whose points are exact numbers: closed for a point, open for an interval, the infinities apart. -/
structure RingPoints where
  /-- p_17 to p_31 as exact values. -/
  pos : List Num
  deriving DecidableEq, Repr

/-- Point k from 1 to 31 (R381). -/
def RingPoints.point (r : RingPoints) (k : Nat) : Num :=
  if k = 16 then .fin false 0 0
  else if k < 16 then (r.pos.getD (15 - k) (.fin false 0 0)).neg
  else r.pos.getD (k - 17) (.fin false 0 0)

/-- The cell of a finite value (R396). -/
def RingPoints.cellOf (r : RingPoints) (x : Num) : Nat :=
  let below := (List.range 32).filter (fun k => k != 0 && (r.point k).cmp x ≤ 0)
  match below.getLast? with
  | none => 1
  | some k => if (r.point k).cmp x = 0 then 2 * k else 2 * k + 1

/-- One end of a set of reals: an exact value or an infinity, and whether the end belongs to the set. -/
structure End where
  v : Num
  closed : Bool
  deriving DecidableEq, Repr

/-- The ends of a cell other than cell 0. -/
def RingPoints.ends (r : RingPoints) (c : Nat) : End × End :=
  let k := c / 2
  if c % 2 = 0 then ({ v := r.point k, closed := true }, { v := r.point k, closed := true })
  else
    ({ v := if k = 0 then .inf true else r.point k, closed := false },
     { v := if k = 31 then .inf false else r.point (k + 1), closed := false })

/-- The first cell of a set whose lower end this is: an open end at a point begins in the interval above it. -/
def RingPoints.lowCell (r : RingPoints) (e : End) : Nat :=
  match e.v with
  | .inf _ => 1
  | v =>
    let c := r.cellOf v
    if c % 2 = 0 && !e.closed then c + 1 else c

/-- The last cell of a set whose upper end this is. -/
def RingPoints.highCell (r : RingPoints) (e : End) : Nat :=
  match e.v with
  | .inf _ => 63
  | v =>
    let c := r.cellOf v
    if c % 2 = 0 && !e.closed then c - 1 else c

/-- The arc from one cell to another, both included. -/
def arcFromTo (lo hi : Nat) : Nat := lo + (hi - lo) * 64

/-- The least and greatest of some ends; a closed end wins a tie. -/
def leastEnd (l : List End) : End :=
  l.foldl (fun a b => if b.v.cmp a.v < 0 then b else if b.v.cmp a.v = 0 then { a with closed := a.closed || b.closed } else a)
    (l.headD { v := .fin false 0 0, closed := false })
def greatestEnd (l : List End) : End :=
  l.foldl (fun a b => if b.v.cmp a.v > 0 then b else if b.v.cmp a.v = 0 then { a with closed := a.closed || b.closed } else a)
    (l.headD { v := .fin false 0 0, closed := false })

/-- The sum of two ends; an infinite end stays infinite. -/
def End.add (x y : End) : End := { v := (x.v.add .rne y.v).getD (.fin false 0 0), closed := x.closed && y.closed }

/-- The product of two ends. A zero end times an infinite one is the zero that the products near it tend to; a closed zero
belongs to the set whatever the other end is. -/
def End.mul (x y : End) : End :=
  if (x.v.isZero && x.closed) || (y.v.isZero && y.closed) then { v := .fin false 0 0, closed := true }
  else { v := (x.v.mul y.v).getD (.fin false 0 0), closed := x.closed && y.closed }

/-- The ADD entry of R386. -/
def RingPoints.addEntry (r : RingPoints) (a b : Nat) : Nat :=
  if a = 0 ∧ b = 0 then 0x0FC0
  else if a = 0 ∨ b = 0 then 0
  else
    let x := r.ends a
    let y := r.ends b
    arcFromTo (r.lowCell (x.1.add y.1)) (r.highCell (x.2.add y.2))

/-- The MUL entry of R386. -/
def RingPoints.mulEntry (r : RingPoints) (a b : Nat) : Nat :=
  if a = 0 ∨ b = 0 then (if a = 32 ∨ b = 32 then 0x0FC0 else 0)
  else
    let x := r.ends a
    let y := r.ends b
    let l := [x.1.mul y.1, x.1.mul y.2, x.2.mul y.1, x.2.mul y.2]
    arcFromTo (r.lowCell (leastEnd l)) (r.highCell (greatestEnd l))

/-- B15's points (R387). -/
def b15Points : RingPoints := { pos := (List.range 15).map (fun i => .fin false 1 ((i : Int) - 7)) }

/-- The binary32 words of a slot's points p_17 to p_31 (R385, R387). -/
def RingSlot.words (r : RingSlot) : List Nat :=
  match r with
  | .b15 => (List.range 15).map (fun i => (120 + i) * 2 ^ 23)
  | .image bs => (List.range 15).map (fun i => numAt bs (0x40 + 4 * i) 4)

def RingSlot.points (r : RingSlot) : RingPoints := { pos := r.words.map f32.decode }

def RingSlot.add (r : RingSlot) (a b : Nat) : Nat :=
  match r with
  | .b15 => b15Points.addEntry a b
  | .image bs => numAt bs (0x80 + 2 * (64 * a + b)) 2

def RingSlot.mul (r : RingSlot) (a b : Nat) : Nat :=
  match r with
  | .b15 => b15Points.mulEntry a b
  | .image bs => numAt bs (0x2080 + 2 * (64 * a + b)) 2

def RingSlot.rcp (r : RingSlot) (c : Nat) : Nat :=
  match r with
  | .b15 => (96 - c) % 64
  | .image bs => numAt bs (0x4080 + 2 * c) 2

/-- Point k as binary32, p_16 as +0 (R398). -/
def RingSlot.pointWord (r : RingSlot) (k : Nat) : Nat :=
  if k = 16 then 0
  else if k < 16 then r.words.getD (15 - k) 0 + 2 ^ 31
  else r.words.getD (k - 17) 0

/-- Cell (R396), as a connected form. -/
def RingSlot.cell (r : RingSlot) (v : W32) : Nat :=
  match f32.decode v.toNat with
  | .nan _ => 0x0FC0
  | .inf _ => 0
  | x => r.points.cellOf x

/-- Rcp of a mask (R393). -/
def RingSlot.rcpMask (r : RingSlot) (y : W64) : W64 × Nat := unionArcs ((onesOf y 64).map r.rcp)

/-- A table instruction on two masks (R393). -/
def tableUnion (t : Nat → Nat → Nat) (x y : W64) : W64 × Nat :=
  unionArcs ((onesOf x 64).flatMap (fun a => (onesOf y 64).map (fun b => t a b)))

/-- The slot that MOD names on the issuing core (R392). -/
def State.ringOf (s : State) (e : LaneEnv) (o : LaneOps) : RingSlot := (s.core e.x.core).rings.get .b15 (o.mod.toNat % 4)

/-- A ringset instruction with a mask result (R392): WL when an active lane's result is the whole line. -/
def State.ringMask (s : State) (op : Nat) (o : LaneOps) (f : RingSlot → LaneEnv → Nat → W64 × Nat) : Out :=
  s.laneDo op o (fun e =>
    let g := f (s.ringOf e o) e
    { regs := [(o.d.toNat, e.gen (fun l => (g l).1.setWidth 32)), (o.d.toNat + 1, e.gen (fun l => (g l).1.extractLsb' 32 32))],
      fp := e.lanes.foldl (fun m l => m ||| (g l).2 ||| wlIf (g l).1) 0 })

/-- A ringset instruction with one register as result: value, flags. -/
def State.ringOne (s : State) (op : Nat) (o : LaneOps) (f : RingSlot → LaneEnv → Nat → Nat × Nat) : Out :=
  s.laneDo op o (fun e =>
    let g := f (s.ringOf e o) e
    { regs := [(o.d.toNat, e.gen (fun l => BitVec.ofNat 32 (g l).1))], fp := e.lanes.foldl (fun m l => m ||| (g l).2) 0 })

def maskA (e : LaneEnv) (l : Nat) : W64 := pairLane e.a l
def maskB (e : LaneEnv) (l : Nat) : W64 := pairLane e.b l

/-- rs.add (R393). -/
def doRsAdd (o : LaneOps) (s : State) : Out := s.ringMask 0x1C0 o (fun r e l => tableUnion r.add (maskA e l) (maskB e l))
/-- rs.add (R393). -/
def execRsAdd (o : LaneOps) (s : State) : Out := doRsAdd o s

/-- rs.sub (R393). -/
def doRsSub (o : LaneOps) (s : State) : Out :=
  s.ringMask 0x1C1 o (fun r e l => tableUnion r.add (maskA e l) (negCells (maskB e l)))
/-- rs.sub (R393). -/
def execRsSub (o : LaneOps) (s : State) : Out := doRsSub o s

/-- rs.mul (R393). -/
def doRsMul (o : LaneOps) (s : State) : Out := s.ringMask 0x1C2 o (fun r e l => tableUnion r.mul (maskA e l) (maskB e l))
/-- rs.mul (R393). -/
def execRsMul (o : LaneOps) (s : State) : Out := doRsMul o s

/-- rs.div (R393). -/
def doRsDiv (o : LaneOps) (s : State) : Out := s.ringMask 0x1C3 o (fun r e l =>
  let y := r.rcpMask (maskB e l)
  let z := tableUnion r.mul (maskA e l) y.1
  (z.1, z.2 ||| y.2))
/-- rs.div (R393). -/
def execRsDiv (o : LaneOps) (s : State) : Out := doRsDiv o s

/-- rs.neg (R394). -/
def doRsNeg (o : LaneOps) (s : State) : Out := s.ringMask 0x1C4 o (fun _ e l => (negCells (maskA e l), 0))
/-- rs.neg (R394). -/
def execRsNeg (o : LaneOps) (s : State) : Out := doRsNeg o s

/-- rs.rcp (R394). -/
def doRsRcp (o : LaneOps) (s : State) : Out := s.ringMask 0x1C5 o (fun r e l => r.rcpMask (maskA e l))
/-- rs.rcp (R394). -/
def execRsRcp (o : LaneOps) (s : State) : Out := doRsRcp o s

/-- rs.uni (R394). -/
def doRsUni (o : LaneOps) (s : State) : Out := s.ringMask 0x1C6 o (fun _ e l => (maskA e l ||| maskB e l, 0))
/-- rs.uni (R394). -/
def execRsUni (o : LaneOps) (s : State) : Out := doRsUni o s

/-- rs.isc (R394). -/
def doRsIsc (o : LaneOps) (s : State) : Out := s.ringMask 0x1C7 o (fun _ e l => (maskA e l &&& maskB e l, 0))
/-- rs.isc (R394). -/
def execRsIsc (o : LaneOps) (s : State) : Out := doRsIsc o s

/-- rs.has (R395). -/
def doRsHas (o : LaneOps) (s : State) : Out := s.ringOne 0x1C8 o (fun r e l =>
  ((b32 ((arcOf (r.cell (e.bv l))).1 &&& ~~~(maskA e l) == 0)).toNat, 0))
/-- rs.has (R395). -/
def execRsHas (o : LaneOps) (s : State) : Out := doRsHas o s

/-- rs.eq (R395). -/
def doRsEq (o : LaneOps) (s : State) : Out := s.ringOne 0x1C9 o (fun _ e l => ((b32 (maskA e l == maskB e l)).toNat, 0))
/-- rs.eq (R395). -/
def execRsEq (o : LaneOps) (s : State) : Out := doRsEq o s

/-- rs.fromf (R396). -/
def doRsFromf (o : LaneOps) (s : State) : Out := s.ringOne 0x1CA o (fun r e l =>
  let c := r.cell (e.av l)
  (c, if c = 0x0FC0 then fWL else 0))
/-- rs.fromf (R396). -/
def execRsFromf (o : LaneOps) (s : State) : Out := doRsFromf o s

/-- The lower endpoint of a mask that is an arc (R398). -/
def RingSlot.low (r : RingSlot) (v : Nat) : Nat × Nat :=
  let a := arcOf v
  if a.1 = 0 then (f32.qnan, a.2)
  else if a.1.getLsbD 0 then (0xFF800000, a.2)
  else
    let s := v % 64
    (if s = 1 then 0xFF800000 else r.pointWord (s / 2), a.2)

/-- The upper endpoint (R398). -/
def RingSlot.high (r : RingSlot) (v : Nat) : Nat × Nat :=
  let a := arcOf v
  if a.1 = 0 then (f32.qnan, a.2)
  else if a.1.getLsbD 0 then (0x7F800000, a.2)
  else
    let e := (v % 64 + v / 64 % 64) % 64
    (if e = 63 then 0x7F800000 else r.pointWord ((e + 1) / 2), a.2)

/-- rs.lo (R398). -/
def doRsLo (o : LaneOps) (s : State) : Out := s.ringOne 0x1CB o (fun r e l => r.low ((e.av l).toNat % 65536))
/-- rs.lo (R398). -/
def execRsLo (o : LaneOps) (s : State) : Out := doRsLo o s

/-- rs.hi (R398). -/
def doRsHi (o : LaneOps) (s : State) : Out := s.ringOne 0x1CC o (fun r e l => r.high ((e.av l).toNat % 65536))
/-- rs.hi (R398). -/
def execRsHi (o : LaneOps) (s : State) : Out := doRsHi o s

/-- rs.wid (R397). -/
def doRsWid (o : LaneOps) (s : State) : Out := s.ringOne 0x1CD o (fun _ e l =>
  let a := arcOf ((e.av l).toNat % 65536)
  (cellCount a.1, a.2))
/-- rs.wid (R397). -/
def execRsWid (o : LaneOps) (s : State) : Out := doRsWid o s

/-- rs.pack (R397). -/
def doRsPack (o : LaneOps) (s : State) : Out := s.ringOne 0x1CE o (fun _ e l =>
  let c := compress (maskA e l)
  (c, if c = 0x0FC0 then fWL else 0))
/-- rs.pack (R397). -/
def execRsPack (o : LaneOps) (s : State) : Out := doRsPack o s

/-- rs.unp (R397). -/
def doRsUnp (o : LaneOps) (s : State) : Out := s.ringMask 0x1CF o (fun _ e l => arcOf ((e.av l).toNat % 65536))
/-- rs.unp (R397). -/
def execRsUnp (o : LaneOps) (s : State) : Out := doRsUnp o s

end Sys2Proof.Machine
end

