-- ==== Sys2Proof/Machine/Dictionary.lean ====
section
/-! DEFINITION. The lane stream's codes by number: L64 and L96 words, L32 words, the L16 NOP and dictionary codes (R95 to R100,
R106, R107). -/

namespace Sys2Proof.Machine

/-- A lane code that names no instruction is an illegal instruction (R107, R111). -/
def State.noLane (s : State) (o : LaneOps) : Out :=
  match s.laneFront 0 o with
  | .error r => r
  | .ok _ => .refused .noAgent

/-- The instruction of lane opcode `op` (R107). -/
def issueLane (op : Nat) (o : LaneOps) (s : State) : Out :=
  match op with
  | 0x001 => doLaneNop o s
  | 0x002 => doLaneMov o s
  | 0x003 => doLaneAdd o s
  | 0x004 => doLaneSub o s
  | 0x005 => doLaneMul o s
  | 0x006 => doLaneMulh o s
  | 0x007 => doLaneMulhw o s
  | 0x008 => doLaneMin o s
  | 0x009 => doLaneMax o s
  | 0x00A => doLaneMinw o s
  | 0x00B => doLaneMaxw o s
  | 0x00C => doLaneAnd o s
  | 0x00D => doLaneOr o s
  | 0x00E => doLaneXor o s
  | 0x00F => doLaneAndn o s
  | 0x010 => doLaneNot o s
  | 0x011 => doLaneShl o s
  | 0x012 => doLaneShr o s
  | 0x013 => doLaneSar o s
  | 0x014 => doLaneRot o s
  | 0x015 => doLaneClz o s
  | 0x016 => doLaneCtz o s
  | 0x017 => doLanePopc o s
  | 0x018 => doLaneAbs o s
  | 0x019 => doLaneNeg o s
  | 0x01A => doFadd o s
  | 0x01B => doFsub o s
  | 0x01C => doFmul o s
  | 0x01D => doFmin o s
  | 0x01E => doFmax o s
  | 0x01F => doFabs o s
  | 0x020 => doFneg o s
  | 0x021 => doCmpEq o s
  | 0x022 => doCmpNe o s
  | 0x023 => doCmpLt o s
  | 0x024 => doCmpLe o s
  | 0x025 => doCmpLtw o s
  | 0x026 => doCmpLew o s
  | 0x027 => doFcmpEq o s
  | 0x028 => doFcmpNe o s
  | 0x029 => doFcmpLt o s
  | 0x02A => doFcmpLe o s
  | 0x02B => doFcmpUn o s
  | 0x02C => doFcls o s
  | 0x02D => doLid o s
  | 0x02E => doVshape o s
  | 0x040 => doMad o s
  | 0x041 => doFma o s
  | 0x042 => doSel o s
  | 0x043 => doBfe o s
  | 0x044 => doBfi o s
  | 0x045 => doCvt o s
  | 0x046 => doFrnd o s
  | 0x047 => doFscale o s
  | 0x048 => doHadd2 o s
  | 0x049 => doHmul2 o s
  | 0x04A => doHfma2 o s
  | 0x04B => doDqE4 o s
  | 0x04C => doDqE5 o s
  | 0x04D => doDqE3m2 o s
  | 0x04E => doDqE2m3 o s
  | 0x04F => doDqFp4 o s
  | 0x050 => doDqI8 o s
  | 0x051 => doDqI4 o s
  | 0x052 => doDqPs8 o s
  | 0x053 => doDqPs4 o s
  | 0x080 => doFrcp o s
  | 0x081 => doFrsq o s
  | 0x082 => doFsqrt o s
  | 0x083 => doFlog2 o s
  | 0x084 => doFexp2 o s
  | 0x085 => doFtanh o s
  | 0x0C0 => doShfl o s
  | 0x0C1 => doVote o s
  | 0x0C2 => doRed o s
  | 0x0C3 => doScan o s
  | 0x0C4 => doVtos o s
  | 0x0C5 => doXpr o s
  | 0x0C6 => doRng o s
  | 0x100 => doLdG o s
  | 0x101 => doStG o s
  | 0x102 => doLdS o s
  | 0x103 => doStS o s
  | 0x104 => doLdC o s
  | 0x105 => doStC o s
  | 0x106 => doAtomG o s
  | 0x107 => doAtomS o s
  | 0x108 => doAtomC o s
  | 0x109 => doLres o s
  | 0x10A => doScond o s
  | 0x10B => doFutRd o s
  | 0x10C => doFutWr o s
  | 0x10D => doStag o s
  | 0x10E => doStagW o s
  | 0x10F => doPrf o s
  | 0x110 => doRecput o s
  | 0x180 => doAccrd o s
  | 0x181 => doAccwr o s
  | 0x182 => doAccerm o s
  | 0x183 => doGlean o s
  | 0x1C0 => doRsAdd o s
  | 0x1C1 => doRsSub o s
  | 0x1C2 => doRsMul o s
  | 0x1C3 => doRsDiv o s
  | 0x1C4 => doRsNeg o s
  | 0x1C5 => doRsRcp o s
  | 0x1C6 => doRsUni o s
  | 0x1C7 => doRsIsc o s
  | 0x1C8 => doRsHas o s
  | 0x1C9 => doRsEq o s
  | 0x1CA => doRsFromf o s
  | 0x1CB => doRsLo o s
  | 0x1CC => doRsHi o s
  | 0x1CD => doRsWid o s
  | 0x1CE => doRsPack o s
  | 0x1CF => doRsUnp o s
  | _ => s.noLane o

/-- The instruction of an L32 word (R99). -/
def issueShort (op : Nat) (o : L32Ops) (s : State) : Out := s.shortDo op o (issueLane op)

/-- Fields of a lane word that uses no operand. -/
def noOps : LaneOps := { mod := 0, fl := 0, mask := 0, c := 1021, b := 1021, a := 1021, d := 1021, lit := none }

/-- A dictionary code issues the entry that it names, rebased (R100, R106): an IDX above DCOUNT, or a rebased name of 640 or
more, is an illegal instruction. -/
def State.issueDict (s : State) (reb : BitVec 4) (idx : BitVec 10) : Out :=
  match s.cur with
  | .lane g _ =>
    match s.dictEntry g idx.toNat with
    | none => s.noLane noOps
    | some (op, o) =>
      match rebase op reb o with
      | none => s.noLane o
      | some p => issueLane op p s
  | .device | .scalar _ _ | .engine _ _ | .service _ | .halyard _ _ => .refused .noAgent

/-- DICTIONARY_CODE (R100). -/
def execDictionaryCode (reb : BitVec 4) (idx : BitVec 10) (s : State) : Out := s.issueDict reb idx

/-- The L16 NOP: IDX 0, whatever REB holds (R100). -/
def execLaneNopL16 (_reb : BitVec 4) (s : State) : Out := doLaneNop noOps s

/-- Any lane code (R95). -/
def issueRaw (r : LaneRaw) (s : State) : Out :=
  match r with
  | .nop16 => doLaneNop noOps s
  | .dict reb idx => s.issueDict reb idx
  | .short op o => issueShort op o s
  | .long op o => issueLane op o s

end Sys2Proof.Machine
end

