-- ==== Sys2Proof/Machine/Matrix.lean ====
section
/-! DEFINITION. Labels, relations, summaries and skips, operand maps, and the commands of the matrix queue (R300 to R332). -/

namespace Sys2Proof.Machine

/-! Relations (R300 to R308). -/

/-- The bits hi:lo of a number. -/
def bitsOf (v lo n : Nat) : Nat := v / 2 ^ lo % 2 ^ n

/-- A relation slot's word. -/
def relWord (r : List W32) (k : Nat) : Nat := (r.getD k 0).toNat

/-- Width of field `k` (R301). -/
def relWidth (r : List W32) (k : Nat) : Nat := bitsOf (relWord r 0) (8 * k) 6

/-- First bit of field `k` (R300). -/
def relStart (r : List W32) (k : Nat) : Nat := ((List.range k).map (relWidth r)).sum

/-- Field `k` of a label (R300). -/
def labelField (r : List W32) (l : W32) (k : Nat) : Nat := bitsOf l.toNat (relStart r k) (relWidth r k)

def relSkip (r : List W32) : Bool := (relWord r 1).testBit 2

/-- A term (R301). -/
structure Term where
  kind : Nat
  fr : Nat
  fa : Nat
  fb : Nat
  k : Int
  deriving DecidableEq, Repr

def termOf (r : List W32) (i : Nat) : Term :=
  let w := relWord r (2 + i)
  { kind := bitsOf w 0 4, fr := bitsOf w 4 2, fa := bitsOf w 6 2, fb := bitsOf w 8 2, k := signedOf 22 (bitsOf w 10 22) }

/-- The terms of the enabled conjuncts (R301). -/
def conjuncts (r : List W32) : List (List Term) :=
  (if (relWord r 1).testBit 0 then [(List.range 4).map (termOf r)] else []) ++
    (if (relWord r 1).testBit 1 then [(List.range 4).map (fun i => termOf r (4 + i))] else [])

/-- A term is true of a row label and a column label, given by their fields (R302). -/
def Term.holds (t : Term) (r c : Nat → Nat) : Bool :=
  match t.kind with
  | 0 => true
  | 1 => r t.fr == c t.fa
  | 2 => r t.fr != c t.fa
  | 3 => decide (t.k ≤ (r t.fr : Int) - c t.fa)
  | 4 => decide ((r t.fr : Int) - c t.fa < t.k)
  | 5 => decide (c t.fa ≤ r t.fr) && decide (r t.fr ≤ c t.fb)
  | 6 => decide (r t.fa ≤ c t.fr) && decide (c t.fr ≤ r t.fb)
  | 7 => r t.fr / 2 ^ t.k.toNat == c t.fa / 2 ^ t.k.toNat
  | _ => false

def voidLabel : W32 := 0xFFFFFFFF

/-- Admit (R305). -/
def allow (r : List W32) (row col : W32) : Bool :=
  row != voidLabel && col != voidLabel &&
    (conjuncts r).any (fun ts => ts.all (fun t => t.holds (labelField r row) (labelField r col)))

/-- A side's summary (R307): the count of non-void labels, and each field's least and greatest value. -/
structure Summary where
  count : Nat
  lo : List Nat
  hi : List Nat
  deriving DecidableEq, Repr

def Summary.empty : Summary := { count := 0, lo := [0, 0, 0, 0], hi := [0, 0, 0, 0] }

def summaryOf (r : List W32) (ls : List W32) : Summary :=
  let live := ls.filter (· != voidLabel)
  let f := fun (k : Nat) => live.map (fun l => labelField r l k)
  { count := live.length
    lo := (List.range 4).map (fun k => ((f k).min?).getD 0)
    hi := (List.range 4).map (fun k => ((f k).max?).getD 0) }

/-- A term is false of every pair within the summaries (R308). -/
def Term.never (t : Term) (R C : Summary) : Bool :=
  let rl := fun k => at' R.lo k
  let rh := fun k => at' R.hi k
  let cl := fun k => at' C.lo k
  let ch := fun k => at' C.hi k
  let sh := 2 ^ t.k.toNat
  match t.kind with
  | 1 => decide (rh t.fr < cl t.fa) || decide (ch t.fa < rl t.fr)
  | 2 => rl t.fr == rh t.fr && rh t.fr == cl t.fa && cl t.fa == ch t.fa
  | 3 => decide ((rh t.fr : Int) - cl t.fa < t.k)
  | 4 => decide (t.k ≤ (rl t.fr : Int) - ch t.fa)
  | 5 => decide (rh t.fr < cl t.fa) || decide (ch t.fb < rl t.fr)
  | 6 => decide (ch t.fr < rl t.fa) || decide (rh t.fb < cl t.fr)
  | 7 => decide (rh t.fr / sh < cl t.fa / sh) || decide (ch t.fa / sh < rl t.fr / sh)
  | _ => false

/-- A tile pair is skipped (R308). -/
def skipped (r : List W32) (R C : Summary) : Bool :=
  relSkip r && (R.count == 0 || C.count == 0 || (conjuncts r).all (fun ts => ts.any (fun t => t.never R C)))

/-- A field's values packed in the relation's own layout (R327). -/
def packFields (r : List W32) (vs : List Nat) : Nat := ((List.range 4).map (fun k => at' vs k * 2 ^ relStart r k)).sum

/-- The checks of RELLD (R303). -/
def relOk (r : List W32) : Bool :=
  (List.range 4).all (fun k => decide (relWidth r k ≤ 32) && bitsOf (relWord r 0) (8 * k + 6) 2 == 0) && decide (relStart r 4 ≤ 32) &&
    decide (relWord r 1 < 8) && (List.range 6).all (fun k => relWord r (10 + k) == 0) &&
    (List.range 8).all (fun i =>
      let t := termOf r i
      decide (t.kind ≤ 7) && (t.kind != 7 || (decide (0 ≤ t.k) && decide (t.k ≤ 31))))

/-! Control words and operand maps (R313, R326). -/

structure Ctl where
  acc : Nat
  fa : Nat
  fb : Nat
  rel : Nat
  tf : Nat
  ks : Nat
  lbl : Bool
  accfmt : Nat
  deriving DecidableEq, Repr

def ctlOf (w : W64) : Ctl :=
  let v := w.toNat
  { acc := bitsOf v 0 3, fa := bitsOf v 3 5, fb := bitsOf v 8 5, rel := bitsOf v 13 3, tf := bitsOf v 16 5, ks := bitsOf v 21 8,
    lbl := v.testBit 29, accfmt := bitsOf v 30 2 }

structure OMap where
  base : Nat
  rpitch : Nat
  lbase : Nat
  tpitch : Nat
  rot : Nat
  kind : Nat
  soff : Nat
  zero : Bool
  deriving DecidableEq, Repr

def omapOf (w0 w1 : W64) : OMap :=
  { base := bitsOf w0.toNat 0 32, rpitch := bitsOf w0.toNat 32 16, lbase := bitsOf w0.toNat 48 16, tpitch := bitsOf w1.toNat 0 32,
    rot := bitsOf w1.toNat 32 4, kind := bitsOf w1.toNat 36 2, soff := bitsOf w1.toNat 38 16, zero := bitsOf w1.toNat 54 10 == 0 }

def OMap.labelled (m : OMap) : Bool := m.lbase != 0xFFFF

/-- The size of the window that holds an operand's labels (R316). -/
def OMap.labelWindow (m : OMap) (x : Group) : Nat := if m.kind = 1 then x.members * 2 ^ 21 else 2 ^ 21

/-- The checks of a map that hold whatever is read through it (R218, R313, R315, R316). -/
def OMap.ok (m : OMap) (x : Group) : Bool :=
  m.zero && m.kind != 3 && (m.rot == 0 || (m.rpitch != 0 && m.rpitch % 128 == 0)) &&
    (m.kind != 2 || (x.desc.w != 16 && m.rot == 0)) && (!m.labelled || decide (m.lbase * 64 + 512 ≤ m.labelWindow x))

/-- The registers of a KIND 2 operand of `rows` rows and `ks` steps (R315). -/
def OMap.regs (m : OMap) (rows ks : Nat) : List Nat :=
  if m.kind = 2 then
    ((List.range ks).flatMap (fun t => (List.range rows).map (fun i => m.base + t * m.tpitch + i * m.rpitch))).eraseDups
  else []

/-- The bytes of one scale row (R299). -/
def scalePitch (ks kst blk : Nat) : Nat := 16 * (((ks * kst + blk - 1) / blk + 15) / 16)

/-- The checks of a map that depend on what is read: the rotation's reach, the registers, the scales (R299, R314, R315). -/
def OMap.dataOk (m : OMap) (rows ks kst fmt : Nat) : Bool :=
  (m.rot == 0 || (m.tpitch % 128 == 0 && decide (ks * m.tpitch ≤ m.rpitch))) && (m.regs rows ks).all (fun r => decide (r < 632)) &&
    (let blk := fmtBlock fmt
     blk == 0 || ks == 0 ||
      decide (m.soff * 16 + (rows - 1) * scalePitch ks kst blk + (ks * kst + blk - 1) / blk ≤ 65536))

/-- The rows of the B map that a command reads: a paired command takes 256 through KIND 1 and 2 (R319). -/
def bRows (paired : Bool) (m : OMap) : Nat := if paired && m.kind != 0 then 256 else 128

/-- The follower of a leader core, when it belongs to the cluster (R319). -/
def Group.follower (x : Group) : Option Nat :=
  if x.core % 2 = 0 ∧ (List.range x.members).any (fun r => x.coreOf r == x.core + 1) then some (x.core + 1) else none

/-- The status offset is legal (R327). -/
def statusOk (v : W64) : Bool := v.extractLsb' 0 6 == 0 && decide (v.toNat < 2 ^ 21)

/-- The checks at issue of MMA and its kin (R305, R306, R312, R328, R329). -/
def legalMma (paired : Bool) (o : SeOps) (s : State) (g : Nat) (v : List W64) : Bool :=
  let x := s.grp g
  let k := ctlOf (valAt v 0)
  let a := omapOf (valAt v 2) (valAt v 3)
  let b := omapOf (valAt v 4) (valAt v 5)
  let kst := kStep k.fa k.fb
  o.a != 63 && o.b.toNat % 4 == 0 && decide ((valAt v 0).toNat < 2 ^ 32) && statusOk (valAt v 1) && decide (k.acc < x.desc.accn) &&
    (match pairing k.fa k.fb with
     | some int => k.accfmt == (if int then 1 else 0)
     | none => false) &&
    (decide (k.rel ≤ 3) || k.rel == 7) && (decide (k.tf ≤ 15) || k.tf == 31) && a.ok x && b.ok x &&
    (k.rel == 7 || (a.labelled && b.labelled)) && (!k.lbl || a.labelled) && a.dataOk 128 k.ks kst k.fa &&
    b.dataOk (bRows paired b) k.ks kst k.fb && (!paired || x.follower.isSome)

/-- A rotated map's TPITCH (R314). -/
def OMap.rotOk (m : OMap) : Bool := m.rot == 0 || m.tpitch % 128 == 0

/-- The checks at issue of TFSUM, which does not check KS (R314, R331). -/
def legalTfsum (o : SeOps) (s : State) (g : Nat) (v : List W64) : Bool :=
  let x := s.grp g
  let k := ctlOf (valAt v 0)
  let a := omapOf (valAt v 2) (valAt v 3)
  let b := omapOf (valAt v 4) (valAt v 5)
  o.a != 63 && o.b.toNat % 4 == 0 && decide ((valAt v 0).toNat < 2 ^ 32) && statusOk (valAt v 1) &&
    (decide (k.rel ≤ 3) || k.rel == 7) && decide (k.tf ≤ 15) && a.ok x && b.ok x && a.rotOk && b.rotOk &&
    (k.rel == 7 || (a.labelled && b.labelled))

/-- Lane registers that the command holds (R266, R315). -/
def heldMma (paired : Bool) (v : List W64) : List Nat :=
  let k := ctlOf (valAt v 0)
  let b := omapOf (valAt v 4) (valAt v 5)
  (omapOf (valAt v 2) (valAt v 3)).regs 128 k.ks ++ b.regs (bRows paired b) k.ks

/-! Reading operands. -/

/-- The 128 labels of an operand from row `first` on; `lc` is the core whose local window is read (R316). -/
def State.labelsOf (s : State) (c lc : Nat) (x : Group) (m : OMap) (first : Nat) : State × Except Stop (List W32) :=
  match s.engRead c lc x (if m.kind = 1 then 2 else 1) false (m.lbase * 64 + 4 * first) 512 with
  | (t, .error e) => (t, .error e)
  | (t, .ok bs) => (t, .ok ((List.range 128).map (fun j => BitVec.ofNat 32 (numAt bs (4 * j) 4))))

/-- Byte `b` of step `t` of row `i` in its window (R314). -/
def OMap.offset (m : OMap) (i t b : Nat) : Nat :=
  let c := t * m.tpitch + b
  if m.rot = 0 then m.base + i * m.rpitch + c
  else m.base + i * m.rpitch + 128 * ((c / 128 + i * m.rot) % (m.rpitch / 128)) + c % 128

/-- The first `n` bytes of step `t` of row `i` (R314, R315). -/
def State.stepBytes (s : State) (c lc : Nat) (x : Group) (m : OMap) (i t n : Nat) : State × Except Stop (List Byte) :=
  if m.kind = 2 then
    let k := m.base + t * m.tpitch + i * m.rpitch
    let r := x.reg k
    if x.vBad.contains k then (s, .error (.check 0 0 x.core)) else
    (s, .ok ((List.range n).map (fun b => BitVec.ofNat 8 ((r.lane (b / 4)).toNat / 256 ^ (b % 4)))))
  else
    (List.range n).foldl (fun (u : State × Except Stop (List Byte)) b =>
      match u.2 with
      | .error e => (u.1, .error e)
      | .ok bs =>
        match u.1.engRead c lc x (if m.kind = 1 then 2 else 1) false (m.offset i t b) 1 with
        | (w, .ok one) => (w, .ok (bs ++ one))
        | (w, .error e) => (w, .error e)) (s, .ok [])

/-- Row `i` as elements in K order: each one's code and its value times its scale (R287, R291, R299), which stands in the scale store of
core `sk`. -/
def State.rowElems (s : State) (c lc : Nat) (x : Group) (m : OMap) (fmt kst ks i sk : Nat) :
    State × Except Stop (List (Nat × Num)) :=
  let w := fmtBits fmt
  let blk := fmtBlock fmt
  let sc := (s.core sk).scale
  let row := m.soff * 16 + i * scalePitch ks kst blk
  match (if blk = 0 then none else (List.range ((ks * kst + blk - 1) / blk)).find? (fun k => (s.core sk).scaleBad.contains (row + k))) with
  | some k => (s, .error (.check (row + k) 0 sk))
  | none =>
  (List.range ks).foldl (fun (u : State × Except Stop (List (Nat × Num))) t =>
    match u.2 with
    | .error e => (u.1, .error e)
    | .ok es =>
      match u.1.stepBytes c lc x m i t ((kst * w + 7) / 8) with
      | (v, .error e) => (v, .error e)
      | (v, .ok bs) =>
        let bits := leNat bs
        (v, .ok (es ++ (List.range kst).map (fun j =>
          let code := bits / 2 ^ (w * j) % 2 ^ w
          let y := (elemOf fmt).read code
          let k := t * kst + j
          if blk = 0 then (code, y)
          else (code, scaled y ((scaleOfFmt fmt).read (sc.read (row + k / blk)).toNat)))))) (s, .ok [])

/-- Rows `first` to `first + n − 1`. -/
def State.operand (s : State) (c lc : Nat) (x : Group) (m : OMap) (fmt kst ks first n sk : Nat) :
    State × Except Stop (List (List (Nat × Num))) :=
  match n with
  | 0 => (s, .ok [])
  | k + 1 =>
    match s.rowElems c lc x m fmt kst ks first sk with
    | (t, .error e) => (t, .error e)
    | (t, .ok r) =>
      match t.operand c lc x m fmt kst ks (first + 1) k sk with
      | (u, .ok rs) => (u, .ok (r :: rs))
      | (u, .error e) => (u, .error e)

/-! Sums (R295). -/

/-- A row cut into runs: sixteen elements each, with the last run of a step shorter where the step is (R295). -/
def runsOf {α : Type} (kst ks : Nat) (row : List α) : List (List α) :=
  (List.range ks).flatMap (fun t =>
    (List.range ((kst + 15) / 16)).map (fun u => (row.drop (t * kst + 16 * u)).take (min 16 (kst - 16 * u))))

/-- One element of the tile through every run: its new value, and whether a sum was clamped. -/
def sumElem (int : Bool) (acc : W32) (ra rb : List (List (Nat × Num))) : W32 × Bool :=
  (ra.zip rb).foldl (fun st p =>
    let sum := runSum ((p.1.zip p.2).map (fun e => e.1.2.mul e.2.2))
    if int then
      let r := accInt st.1 sum
      (r.1, st.2 || r.2)
    else (accFloat st.1 sum, st.2)) (acc, false)

/-- What a command does to its tile: the tile, MSAT and FMTE of the command (R295, R296, R311). `adm` says which pairs are admitted. -/
def accumulate (k : Ctl) (int : Bool) (kst : Nat) (t : Tile) (as bs : List (List (Nat × Num))) (adm : Nat → Nat → Bool) : Tile × Bool × Bool :=
  let ra := as.map (runsOf kst k.ks)
  let rb := bs.map (runsOf kst k.ks)
  let new := ((t.elems.dense 0 0 16384).zipIdx).map (fun p =>
    let r := p.2 / 128
    let c := p.2 % 128
    if adm r c then sumElem int p.1 (ra.getD r []) (rb.getD c []) else (p.1, false))
  let msat := new.any (·.2)
  let bad := fun (fmt : Nat) (rows : List (List (Nat × Num))) => rows.any (fun row => row.any (fun e => (elemOf fmt).bad e.1))
  let fmte := bad k.fa as || bad k.fb bs
  let rows := (List.range 128).foldl (fun (e : BitVec 128) r =>
    if (List.range 128).any (adm r) then e &&& ~~~(1#128 <<< r) else e) t.erm
  ({ t with elems := Map.ofDense 0 0 (new.map (·.1)), erm := rows, msat := t.msat || msat, fmte := t.fmte || fmte }, msat, fmte)

/-- A tile cleared by an overwrite (R310). -/
def Tile.cleared (t : Tile) : Tile := { t with elems := [], erm := BitVec.allOnes 128, msat := false, fmte := false }

/-- An element of a tile that is to be read and holds an uncorrectable error (R238). -/
def State.badElem (s : State) (c t : Nat) (which : Nat → Bool) : Option Nat :=
  ((s.core c).tileBad.find? (fun p => p.1 == t && which p.2)).map (·.2)

/-- Half a status record (R327). -/
def statusHalf (r : List W32) (rel : Nat) (skip msat fmte : Bool) (R C : Summary) : List Byte :=
  let bits := (if skip then 1 else 0) + (if msat then 2 else 0) + (if fmte then 4 else 0)
  if rel = 7 then leBytes 4 bits ++ List.replicate 28 0
  else
    leBytes 4 bits ++ leBytes 2 R.count ++ leBytes 2 C.count ++ leBytes 4 (packFields r R.lo) ++ leBytes 4 (packFields r R.hi) ++
      leBytes 4 (packFields r C.lo) ++ leBytes 4 (packFields r C.hi) ++ List.replicate 8 0

/-! The commands. -/

/-- One tile pair as a command sees it when it starts: the core and tile of the output, where B is read from, and its first row. -/
structure Half where
  core : Nat
  tile : Nat
  bcore : Nat
  brow : Nat
  deriving DecidableEq, Repr

/-- What half a command answers: its half of the status record, and whether it was skipped. -/
structure HalfEnd where
  status : List Byte
  skip : Bool
  deriving DecidableEq, Repr

/-- Labels and summaries of one pair (R307); A's labels are read where they are needed. -/
def State.pairLabels (s : State) (c : Nat) (x : Group) (k : Ctl) (a b : OMap) (h : Half) : State × Except Stop (List W32 × List W32) :=
  if k.rel = 7 ∧ !k.lbl then (s, .ok ([], []))
  else
    match s.labelsOf c x.core x a 0 with
    | (t, .error e) => (t, .error e)
    | (t, .ok la) =>
      if k.rel = 7 then (t, .ok (la, []))
      else
        match t.labelsOf c h.bcore x b h.brow with
        | (u, .error e) => (u, .error e)
        | (u, .ok lb) => (u, .ok (la, lb))

/-- One tile pair (R309, R310, R328). -/
def State.mmaHalf (s : State) (c : Nat) (m : Cmd) (rel : List W32) (zero : Bool) (h : Half) : State × Except Stop HalfEnd :=
  let x := s.grp m.group
  let k := ctlOf (m.val 0)
  let a := omapOf (m.val 2) (m.val 3)
  let b := omapOf (m.val 4) (m.val 5)
  match s.pairLabels c x k a b h with
  | (t, .error e) => (t, .error e)
  | (t, .ok (la, lb)) =>
    let R := summaryOf rel la
    let C := summaryOf rel lb
    let tile := t.tile h.core h.tile
    if k.rel ≠ 7 ∧ skipped rel R C then
      let t1 := if zero then t.putTile h.core h.tile true tile.cleared else t
      (t1.modGrp m.group (fun y => { y with skips := y.skips + 1 }), .ok { status := statusHalf rel k.rel true false false R C, skip := true })
    else
      let kst := kStep k.fa k.fb
      let int := (pairing k.fa k.fb).getD false
      match t.operand c x.core x a k.fa kst k.ks 0 128 x.core with
      | (u, .error e) => (u, .error e)
      | (u, .ok as) =>
        match u.operand c h.bcore x b k.fb kst k.ks h.brow 128 h.bcore with
        | (w, .error e) => (w, .error e)
        | (w, .ok bs) =>
          let t0 := if zero then tile.cleared else tile
          let t1 := if k.lbl then { t0 with labels := Map.ofDense voidLabel 0 la } else t0
          let adm := fun (r col : Nat) => k.rel == 7 || allow rel (la.getD r 0) (lb.getD col 0)
          let e := accumulate k int kst t1 as bs adm
          match (if zero then none else w.badElem h.core h.tile (fun n => decide (n < 16384) && adm (n / 128) (n % 128))) with
          | some n => (w, .error (.check n 0 h.core))
          | none => (w.putTile h.core h.tile zero e.1, .ok { status := statusHalf rel k.rel false e.2.1 e.2.2 R C, skip := false })

/-- The tile of the follower core that stands for tile `n`, of the cluster's team there (R319). -/
def State.followTile (s : State) (g f n : Nat) : Nat :=
  let x := s.grp g
  ((s.teams.find? (fun p => p.2.launch == x.launch && p.2.core == f && p.2.corner == x.corner && p.2.resident &&
    p.2.cluster == x.cluid)).map (fun p => p.2.tiles.getD n 0)).getD 0

/-- The pairs of a command (R319, R329); the scales of a B that the leader reads for both come from the leader's store (log 34). -/
def State.halvesOf (s : State) (m : Cmd) (paired : Bool) : List Half :=
  let x := s.grp m.group
  let k := ctlOf (m.val 0)
  let b := omapOf (m.val 4) (m.val 5)
  let lead : Half := { core := x.core, tile := s.tileNo m.group k.acc, bcore := x.core, brow := 0 }
  match paired, x.follower with
  | true, some f =>
    [lead, { core := f, tile := s.followTile m.group f k.acc, bcore := if b.kind = 0 then f else x.core,
             brow := if b.kind = 0 then 0 else 128 }]
  | _, _ => [lead]

/-- Every half in turn; the answer holds the halves' status records. -/
def mmaHalves (s : State) (c : Nat) (m : Cmd) (rel : List W32) (zero : Bool) (hs : List Half) : State × Except Stop (List Byte) :=
  match hs with
  | [] => (s, .ok [])
  | h :: rest =>
    match s.mmaHalf c m rel zero h with
    | (t, .error e) => (t, .error e)
    | (t, .ok r) =>
      match mmaHalves t c m rel zero rest with
      | (u, .ok bs) => (u, .ok (r.status ++ bs))
      | (u, .error e) => (u, .error e)

/-- MMA, MMAZ, MMA2 and MMA2Z at their start (R312, R320, R321, R328, R329). -/
def mmaWork (paired zero : Bool) (c q : Nat) (m : Cmd) (s : State) : State :=
  let x := s.grp m.group
  let k := ctlOf (m.val 0)
  let first := match x.follower with
    | some f => !paired || ((s.queue f q).head?.map (·.id)) == some m.id
    | none => true
  if !first then s
  else if (k.tf ≠ 31 ∧ !(x.tflags.get false k.tf)) ∨ k.ks = 0 then s.finish c q m 0
  else
    let hs := s.halvesOf m paired
    if hs.any (fun h => (s.tile h.core h.tile).tokenV) then s.trapCmd m 0x15
    else
      let rel := (s.core x.core).rels.get [] (k.rel % 4)
      match mmaHalves s c m rel zero hs with
      | (t, .error e) => t.stopCmd c q m e 0
      | (t, .ok st) =>
        (t.spadWrite x.core (m.val 1).toNat (st ++ List.replicate (64 - st.length) 0)).finish c q m 0

/-- A paired command takes its place in the follower's queue too, when that has room (R320). -/
def State.issuePair (s : State) (o : SeOps) (row : Instr) : Out :=
  match s.issueCmd { queue := 1, na := 2, nb := 4 } o row (legalMma true o) (heldMma true) with
  | .next t =>
    match s.cur with
    | .scalar g _ =>
      match (s.grp g).follower, (t.queue (s.grp g).core 1).getLast? with
      | some f, some m =>
        if m.row = row ∧ s.nextId ≤ m.id then
          if 16 ≤ (s.queue f 1).length then .next (s.stallAs .engineFull) else .next (t.pushCmd f 1 { m with ctx := none })
        else .next t
      | _, _ => .next t
    | .device | .lane _ _ | .engine _ _ | .service _ | .halyard _ _ => .next t
  | r => r

/-- A paired command's row. -/
def State.pairRow (s : State) (o : SeOps) (row : Instr) (zero : Bool) : Out :=
  match s.cur with
  | .engine _ _ => s.engineDo row (mmaWork true zero)
  | .device | .scalar _ _ | .lane _ _ | .service _ | .halyard _ _ => s.issuePair o row

def matrixShape (na nb : Nat) : CmdShape := { queue := 1, na := na, nb := nb }

/-- MMA (R328). -/
def execMma (o : SeOps) (s : State) : Out :=
  s.engineRow (matrixShape 2 4) o (.mma o) (legalMma false o) (heldMma false) (mmaWork false false)
/-- MMAZ (R328). -/
def execMmaz (o : SeOps) (s : State) : Out :=
  s.engineRow (matrixShape 2 4) o (.mmaz o) (legalMma false o) (heldMma false) (mmaWork false true)
/-- MMA2 (R319, R320, R329). -/
def execMma2 (o : SeOps) (s : State) : Out := s.pairRow o (.mma2 o) false
/-- MMA2Z (R319, R320, R329). -/
def execMma2z (o : SeOps) (s : State) : Out := s.pairRow o (.mma2z o) true

/-- RELLD (R303, R330): the descriptor is checked, journalled (R439, R440) and loaded. -/
def relldWork (c q : Nat) (m : Cmd) (s : State) : State :=
  match s.engRead c c (s.grp m.group) 0 false (m.val 0).toNat 64 with
  | (t, .error e) => t.stopCmd c q m e 0
  | (t, .ok bs) =>
    let r := (List.range 16).map (fun i => BitVec.ofNat 32 (numAt bs (4 * i) 4))
    if relOk r then
      ((t.note 5 (leBytes 8 (m.val 0).toNat ++ bs)).modCore c (fun k => { k with rels := k.rels.put (m.val 2).toNat r })).finish c q m 0
    else t.trapCmd m 0x16

def legalRelld (_ : SeOps) (_ : State) (_ : Nat) (v : List W64) : Bool :=
  (valAt v 0).extractLsb' 0 6 == 0 && decide ((valAt v 2).toNat ≤ 3)

/-- RELLD (R330). -/
def execRelld (o : SeOps) (s : State) : Out := s.engineRow (matrixShape 1 1) o (.relld o) (legalRelld o) (fun _ => []) relldWork

/-- An operand word of R331 names a tile below ACCN and holds no bit but 2:0 and 8. -/
def tileWordOk (s : State) (g : Nat) (w : W64) : Bool :=
  w.extractLsb' 3 5 == 0 && w.extractLsb' 9 55 == 0 && decide ((w.extractLsb' 0 3).toNat < (s.grp g).desc.accn)

def tileOfWord (w : W64) : Nat := (w.extractLsb' 0 3).toNat

def legalTok (o : SeOps) (s : State) (g : Nat) (v : List W64) : Bool := o.b == 0 && tileWordOk s g (valAt v 0)

/-- The tile that a Winnow command reaches (R411, R412). -/
def Cmd.winnowTile (m : Cmd) : Option Nat :=
  match m.row with
  | .wstrip _ | .wpart _ => some (tileOfWord (m.val 0))
  | _ => none

/-- Vector-side accesses to tile `n` that precede a command in program order and have not completed, those of clauses still to issue
included (R322). -/
def State.vectorSide (s : State) (m : Cmd) (n : Nat) : Bool :=
  let x := s.grp m.group
  let t := s.tileNo m.group n
  let mine := fun (sp : Nat) => m.ctx.isSome || sp == m.split
  let here := fun (a : AccOp) => match a with
    | .accrd k _ | .accwr k | .accerm k => k == t
    | .load _ | .store | .atom _ _ _ | .lres _ | .scond _ | .glean _ | .recput _ | .lds | .sts | .atoms _ => false
  let lane := fun (e : Nat × LaneOps) => decide (0x180 ≤ e.1) && decide (e.1 ≤ 0x182) && e.2.a.toNat == n
  x.acc.any (fun a => mine a.split && decide (a.no < m.after) && here a.op) ||
    x.splits.any (fun p => mine p.1 && (p.2.queue ++ p.2.hqueue).any (fun e => decide (e.no < m.after) && (match e.kind with
      | .clause a _ => s.clauseHas m.group a 4 lane
      | .vset _ _ | .mset _ | .fpctl _ => false))) ||
    (s.queue x.core 4).any (fun w => w.group == m.group && mine w.split && decide (w.id < m.after) && w.winnowTile == some n)

/-- TOK, either way by bit 8 of its word (R322, R331; log 6). -/
def tokWork (c q : Nat) (m : Cmd) (s : State) : State :=
  let n := tileOfWord (m.val 0)
  let t := s.tileNo m.group n
  let v := (m.val 0).getLsbD 8
  if !v && s.vectorSide m n then s else (s.setTile c t { s.tile c t with tokenV := v }).finish c q m 0

/-- TOK to M (R322). -/
def execTokToM (o : SeOps) (s : State) : Out := s.engineRow (matrixShape 1 0) o (.tokToM o) (legalTok o) (fun _ => []) tokWork
/-- TOK to V (R322). -/
def execTokToV (o : SeOps) (s : State) : Out := s.engineRow (matrixShape 1 0) o (.tokToV o) (legalTok o) (fun _ => []) tokWork

/-- ACCZ (R331). -/
def acczWork (c q : Nat) (m : Cmd) (s : State) : State :=
  let t := s.tileNo m.group (tileOfWord (m.val 0))
  let k := s.tile c t
  if k.tokenV then s.trapCmd m 0x15
  else (s.putTile c t true { k.cleared with labels := if (m.val 0).getLsbD 8 then [] else k.labels }).finish c q m 0

/-- ACCZ (R331). -/
def execAccz (o : SeOps) (s : State) : Out := s.engineRow (matrixShape 1 0) o (.accz o) (legalTok o) (fun _ => []) acczWork

/-- The 528 bytes of ACCLBL (R331). -/
def Tile.labelBytes (t : Tile) : List Byte :=
  (t.labels.dense voidLabel 0 128).flatMap (fun l => leBytes 4 l.toNat) ++ leBytes 16 t.erm.toNat

/-- Word `n` of what ACCLBL moves: a row label, or a word of the ERM (R331). -/
def Tile.labelWord (t : Tile) (n : Nat) : W32 := BitVec.ofNat 32 (numAt t.labelBytes (4 * n) 4)

def Tile.setLabelWord (t : Tile) (n : Nat) (v : W32) : Tile :=
  if n < 128 then { t with labels := if v = voidLabel then t.labels.erase n else t.labels.put n v }
  else
    let sh := 32 * (n - 128)
    { t with erm := (t.erm &&& ~~~(0xFFFFFFFF#128 <<< sh)) ||| (v.setWidth 128 <<< sh) }

/-- Word `n` of what ACCLBL moves as an element of its tile, for its errors: a word of the ERM has one, a label none (R238, R332). -/
def ermElem (n : Nat) : Nat := if n < 128 then 16388 else 16384 + (n - 128)

/-- ACCLBL, either way by bit 8 of its word: one word after another, which never cross a page (R331; log 6). An uncorrectable error of an ERM
word stops it, and a word that is written ends one (R238, log 97). -/
def acclblWork (c q : Nat) (m : Cmd) (s : State) : State :=
  let t := s.tileNo m.group (tileOfWord (m.val 0))
  let va := (m.val 2).toNat
  if !m.started && (s.tile c t).tokenV then s.trapCmd m 0x15
  else
    s.runElems c q m 132 0 (fun u n =>
      if (m.val 0).getLsbD 8 then
        match u.engRead c c (u.grp m.group) 0 false (va + 4 * n) 4 with
        | (w, .error e) => (w, .error e)
        | (w, .ok bs) =>
          ((w.setTile c t ((w.tile c t).setLabelWord n (BitVec.ofNat 32 (leNat bs)))).modCore c (fun k => { k with
            tileBad := k.tileBad.filter (· != (t, ermElem n)) }), .ok ())
      else if (u.core c).tileBad.contains (t, ermElem n) then (u, .error (.check (ermElem n) 0 c))
      else u.engWrite c c (u.grp m.group) 0 (va + 4 * n) (leBytes 4 ((u.tile c t).labelWord n).toNat))

def legalAcclbl (_ : SeOps) (s : State) (g : Nat) (v : List W64) : Bool := tileWordOk s g (valAt v 0) && (valAt v 2).extractLsb' 0 4 == 0

/-- ACCLBL storing (R318, R331). -/
def execAcclblStore (o : SeOps) (s : State) : Out :=
  s.engineRow (matrixShape 1 1) o (.acclblStore o) (legalAcclbl o) (fun _ => []) acclblWork
/-- ACCLBL loading (R318, R331). -/
def execAcclblLoad (o : SeOps) (s : State) : Out :=
  s.engineRow (matrixShape 1 1) o (.acclblLoad o) (legalAcclbl o) (fun _ => []) acclblWork

def State.setTflag (s : State) (g n : Nat) (b : Bool) : State := s.modGrp g (fun x => { x with tflags := x.tflags.put n b })

/-- TFSET (R331). -/
def tfsetWork (c q : Nat) (m : Cmd) (s : State) : State :=
  (s.setTflag m.group ((m.val 0).extractLsb' 0 4).toNat ((m.val 0).getLsbD 8)).finish c q m 0

def legalTfset (o : SeOps) (_ : State) (_ : Nat) (v : List W64) : Bool :=
  o.b == 0 && (valAt v 0).extractLsb' 4 4 == 0 && (valAt v 0).extractLsb' 9 55 == 0

/-- TFSET (R331). -/
def execTfset (o : SeOps) (s : State) : Out := s.engineRow (matrixShape 1 0) o (.tfset o) (legalTfset o) (fun _ => []) tfsetWork

/-- TFSUM (R312, R331). -/
def tfsumWork (c q : Nat) (m : Cmd) (s : State) : State :=
  let x := s.grp m.group
  let k := { ctlOf (m.val 0) with lbl := false }
  let rel := (s.core x.core).rels.get [] (k.rel % 4)
  let h : Half := { core := x.core, tile := 0, bcore := x.core, brow := 0 }
  match s.pairLabels c x k (omapOf (m.val 2) (m.val 3)) (omapOf (m.val 4) (m.val 5)) h with
  | (t, .error e) => t.stopCmd c q m e 0
  | (t, .ok (la, lb)) =>
    let R := summaryOf rel la
    let C := summaryOf rel lb
    let skip := k.rel != 7 && skipped rel R C
    ((t.setTflag m.group k.tf (!skip)).spadWrite x.core (m.val 1).toNat
      (statusHalf rel k.rel skip false false R C ++ List.replicate 32 0)).finish c q m 0

/-- TFSUM (R331). -/
def execTfsum (o : SeOps) (s : State) : Out := s.engineRow (matrixShape 2 4) o (.tfsum o) (legalTfsum o) (fun _ => []) tfsumWork

end Sys2Proof.Machine
end

