-- ==== Sys2Proof/Machine/GleanCmd.lean ====
section
/-! DEFINITION. The commands of the Glean queue, GLDESC, GLINV and RSLOAD, and the Thresher (R340, R341, R343, R344, R385, R390). -/

namespace Sys2Proof.Machine

/-- Reads bytes onto `acc` (held last first), until the end or a stop. -/
def State.readOn (s : State) (c : Nat) (va : W64) (n : Nat) (acc : List Byte) : State × List Byte × Option Stop :=
  match n with
  | 0 => (s, acc, none)
  | k + 1 =>
    match s.readVirt (some c) { r := true } va 1 with
    | (t, .ok bs) => t.readOn c (va + 1) k (bs ++ acc)
    | (t, .fault a e) => (t, acc, some (.fault false a e))
    | (t, .check pa a) => (t, acc, some (.check pa a c))

/-- Reads a command's block of `n` bytes, going on at the byte that faulted (R390). -/
def State.readBlock (s : State) (c q : Nat) (m : Cmd) (n : Nat) (work : State → Cmd → State) : State :=
  match s.readOn c (m.val 0 + BitVec.ofNat 64 m.recs.length) (n - m.recs.length) m.recs.reverse with
  | (t, acc, some e) => t.stopCmd c q { m with recs := acc.reverse } e acc.length
  | (t, acc, none) => work t { m with recs := acc.reverse }

/-- The checks of a Glean descriptor (R340). -/
def gdescOk (d : List Byte) : Bool :=
  let kind := gdKind d
  decide (kind ≤ 2) && decide (gdFmt d ≤ 27) && (kind != 1 || fmtBlock (gdFmt d) == 0) && decide (gdOut d ≤ 1) &&
    decide (numAt d 3 1 ≤ 15) && (if kind = 2 then decide (gdRpp d ≤ 15) else gdRpp d == 0) && numAt d 0x38 8 == 0

/-- GLDESC: the descriptor changes at completion (R341). -/
def gldescWork (c q : Nat) (m : Cmd) (s : State) : State :=
  s.readBlock c q m 64 (fun t k => if gdescOk k.recs then t.finish c q k 0 else t.trapCmd k 0x10)

def legalGldesc (_ : SeOps) (_ : State) (_ : Nat) (v : List W64) : Bool :=
  (valAt v 0).extractLsb' 0 6 == 0 && decide ((valAt v 2).toNat < 64)

def gleanShape (na nb : Nat) : CmdShape := { queue := 2, na := na, nb := nb }

/-- GLDESC (R341). -/
def execGldesc (o : SeOps) (s : State) : Out := s.engineRow (gleanShape 1 1) o (.gldesc o) (legalGldesc o) noHeld gldescWork

/-- GLINV (R265, R341). -/
def glinvWork (c q : Nat) (m : Cmd) (s : State) : State := (s.modCore c (fun k => { k with gcache := [], gleanBad := [] })).finish c q m 0

def legalGlinv (o : SeOps) (_ : State) (_ : Nat) (_ : List W64) : Bool := o.a == 0 && o.b == 0

/-- GLINV (R341). -/
def execGlinv (o : SeOps) (s : State) : Out := s.engineRow (gleanShape 0 0) o (.glinv o) (legalGlinv o) noHeld glinvWork

/-! RSLOAD. -/

/-- One bit step of the CRC-32 of IEEE 802.3, reflected (R385). -/
def crcBits (n : Nat) (c : W32) : W32 :=
  match n with
  | 0 => c
  | k + 1 => crcBits k (if c.getLsbD 0 then (c >>> 1) ^^^ 0xEDB88320#32 else c >>> 1)

def crcFrom (c : W32) (bs : List Byte) : W32 :=
  match bs with
  | [] => c
  | b :: t => crcFrom (crcBits 8 (c ^^^ b.setWidth 32)) t

/-- CRC-32 of some bytes (R385). -/
def crc32 (bs : List Byte) : W32 := ~~~(crcFrom (BitVec.allOnes 32) bs)

/-- All these bytes are zero. -/
def zeroAt (bs : List Byte) (o n : Nat) : Bool := ((bs.drop o).take n).all (· == 0)

/-- The points of an image are positive, finite and strictly rising (R390). -/
def pointsOk (ws : List Nat) : Bool :=
  ws.all (fun w => decide (0 < w) && decide (w < 0x7F800000)) && (ws.zip ws.tail).all (fun p => decide (p.1 < p.2))

/-- The checks of RSLOAD (R385, R390). -/
def ringImageOk (bs : List Byte) : Bool :=
  numAt bs 0 4 == 0x47525352 && numAt bs 4 2 == 1 && decide (numAt bs 8 4 ≤ 1) && zeroAt bs 0x10 48 && zeroAt bs 0x7C 4 &&
    zeroAt bs 0x4100 256 && numAt bs 0x0C 4 == (crc32 (bs.take 0x0C ++ [0, 0, 0, 0] ++ bs.drop 0x10)).toNat &&
    pointsOk ((List.range 15).map (fun i => numAt bs (0x40 + 4 * i) 4))

/-- RSLOAD: the slot takes the image at completion (R390). -/
def rsloadWork (c q : Nat) (m : Cmd) (s : State) : State :=
  s.readBlock c q m 16896 (fun t k => if ringImageOk k.recs then (t.note 4 (leBytes 8 (m.val 0).toNat ++ k.recs)).finish c q k 0 else t.trapCmd k 0x17)

/-- RSLOAD (R390). -/
def execRsload (o : SeOps) (s : State) : Out := s.engineRow (gleanShape 1 1) o (.rsload o) (legalRelld o) noHeld rsloadWork

/-! The Thresher (R343, R344). -/

def thrBar (m : Cmd) : Nat := ((m.val 2).extractLsb' 0 7).toNat
def thrScope (m : Cmd) : Nat := ((m.val 2).extractLsb' 7 1).toNat + 1
def thrOp (m : Cmd) : Nat := ((m.val 2).extractLsb' 8 4).toNat

/-- The records of a merge agree (R343). -/
def mergeOk (p d : Layout) : Bool :=
  [p, d].all (fun y => y.fmt == 0 && !y.t && !y.l && !y.sc) && p.count == d.count

/-- THRESH at its start: the job attaches to the barrier's next phase completion (R343). -/
def threshWork (c q : Nat) (m : Cmd) (s : State) : State :=
  if m.recs != [] then s else
  s.withRecs c q m [m.val 0, m.val 1] 128 (fun t k bs =>
    match recPair bs with
    | none => t.badRecord k
    | some (p, d) =>
      if !recAligned (k.val 0) || !recAligned (k.val 1) || !t.ownDevice p.dev || !t.ownDevice d.dev || !mergeOk p d then t.badRecord k
      else
        let owner := (t.grp k.group).barCore (thrScope k)
        let b := t.bar owner (thrBar k)
        t.setBar owner (thrBar k) { b with
          jobs := b.jobs ++ [{ cmd := k.id, group := k.group, core := c, priv := k.val 0, dest := k.val 1, op := thrOp k }] })

def legalThresh (o : SeOps) (_ : State) (_ : Nat) (v : List W64) : Bool :=
  o.a != 63 && (valAt v 2).extractLsb' 12 52 == 0 && decide (((valAt v 2).extractLsb' 8 4).toNat ≤ 6)

/-- THRESH (R343). -/
def execThresh (o : SeOps) (s : State) : Out :=
  s.engineRow { queue := 3, na := 2, nb := 1 } o (.thresh o) (legalThresh o) noHeld threshWork

/-- A merge operation: dest op priv (R343, R344). -/
def mergeOp (op : Nat) (d p : W32) : W32 :=
  match op with
  | 0 => BitVec.ofNat 32 (f32.add .rne false d.toNat p.toNat).1
  | 1 => d + p
  | 2 => smax d p
  | 3 => smin d p
  | 4 => d ||| p
  | 5 => BitVec.ofNat 32 (f32.minmax false false d.toNat p.toNat).1
  | _ => BitVec.ofNat 32 (f32.minmax false true d.toNat p.toNat).1

/-- One element of a merge. -/
def State.mergeElem (s : State) (c : Nat) (x : Group) (p d : Layout) (op n : Nat) : State × Except Stop Unit :=
  match s.engBits c x p.space false (p.bit (p.index n)) 32 with
  | (t, .error e) => (t, .error e)
  | (t, .ok pv) =>
    match t.engBits c x d.space false (d.bit (d.index n)) 32 with
    | (u, .error e) => (u, .error e)
    | (u, .ok dv) => u.engPutBits c x d.space (d.bit (d.index n)) 32 (mergeOp op (BitVec.ofNat 32 dv) (BitVec.ofNat 32 pv)).toNat

/-- Where element `n` of a merge's record lies: the core whose scratchpad holds it, and the offset there, or its virtual address. -/
def Layout.elemAt (y : Layout) (x : Group) (n : Nat) : Option Nat × Nat :=
  let a := y.bit (y.index n) / 8
  match y.space with
  | 0 => (none, a)
  | 1 => (some x.core, a % 2 ^ 21)
  | _ =>
    match x.spadPlace .cluster a 1 with
    | some (.spad k, o) => (some k, o)
    | _ => (some x.core, a % 2 ^ 21)

/-- Two merges of one group's queue reach a common byte, and one of them writes it. -/
def mergesMeet (x y : Group) (a b : Layout × Layout) : Bool :=
  let at1 := fun (r : Layout) => (List.range r.count).map (r.elemAt x)
  let at2 := fun (r : Layout) => (List.range r.count).map (r.elemAt y)
  let meet := fun (l k : List (Option Nat × Nat)) => l.any (fun p => k.any (fun q => p.1 == q.1 && decide (p.2 < q.2 + 4) && decide (q.2 < p.2 + 4)))
  meet (at1 a.2) (at2 b.2) || meet (at1 a.1) (at2 b.2) || meet (at1 a.2) (at2 b.1)

/-- An earlier merge of the same queue, not yet done, reaches the same bytes: accesses of a queue to one address are performed in queue
order (R264). -/
def State.jobHeld (s : State) (core : Nat) (m : Cmd) : Bool :=
  ((s.queue core 3).takeWhile (fun k => k.id != m.id)).any (fun k => !k.finished && (match recPair k.recs, recPair m.recs with
    | some a, some b => mergesMeet (s.grp k.group) (s.grp m.group) a b
    | _, _ => false))

/-- THRESHER_JOB_RUN: the first due job of a barrier runs, or goes on after its fault (R344); one that meets an uncorrectable error ends
there. -/
def State.runJob (s : State) (c n : Nat) : State :=
  let b := s.bar c n
  match b.due with
  | [] => s
  | j :: rest =>
    match (s.queue j.core 3).find? (fun m => m.id == j.cmd) with
    | none => s.setBar c n { b with due := rest }
    | some m =>
      if m.parked || s.jobHeld j.core m then s
      else
        match recPair m.recs with
        | none => s.setBar c n { b with due := rest }
        | some (p, d) =>
          match elemLoop (p.count - m.progress) m.progress s (fun u i => u.mergeElem j.core (u.grp j.group) p d j.op i) with
          | (t, some (i, .check pa va k)) => (t.setBar c n { t.bar c n with due := rest }).stopCmd j.core 3 m (.check pa va k) i
          | (t, some (i, .fault w va k)) => t.stopCmd j.core 3 m (.fault w va k) i
          | (t, none) => (t.setBar c n { t.bar c n with due := rest }).finish j.core 3 m 0

/-- THRESHER_JOB_RUN (R344). -/
def execThresherJobRun (core bar : Nat) (s : State) : Out := s.eventDo (fun t => t.runJob core bar)

end Sys2Proof.Machine
end

