-- ==== Sys2Proof/Machine/Winnow.lean ====
section
/-! DEFINITION. The Winnow unit: bindings, logit programs, the draw, the commit and speculative acceptance (R401 to R419). -/

namespace Sys2Proof.Machine

/-! Steps ovr memory that may stop. -/

/-- Goes on with what a step answered, unless it stopped. -/
def andThen {α β : Type} (r : State × Except Stop α) (f : State → α → State × Except Stop β) : State × Except Stop β :=
  match r with
  | (t, .ok v) => f t v
  | (t, .error e) => (t, .error e)

/-- Reads an `n`-byte number. -/
def State.numberAt (s : State) (c : Nat) (va : W64) (n : Nat) : State × Except Stop Nat :=
  andThen (s.bytesAt c va n) (fun t bs => (t, .ok (leNat bs)))

/-- Writes bytes on a core's TLB. -/
def State.putBytes (s : State) (c : Nat) (va : W64) (bs : List Byte) : State × Except Stop Unit :=
  match s.writeVirt (some c) none va bs with
  | (t, .ok ()) => (t, .ok ())
  | (t, .fault a k) => (t, .error (.fault true a k))
  | (t, .check pa a) => (t, .error (.check pa a c))

/-- An offset from an address. -/
def off (va : W64) (n : Nat) : W64 := va + BitVec.ofNat 64 n

/-! Tables probed by token (R404). -/

/-- The end of a probe: the entry that holds the token and its value, an empty entry, or neither. -/
inductive Probe where
  | found (e v : Nat)
  | empty (e : Nat)
  | none
  deriving DecidableEq, Repr

/-- Probes up to `fuel` entries of a table of `size` from entry `e` on; `ovr` holds entries that take the place of memory's. -/
def probeTable (fuel : Nat) (s : State) (c : Nat) (table : W64) (size : Nat) (ovr : Map (Nat × Nat)) (t e : Nat) : State × Except Stop Probe :=
  match fuel with
  | 0 => (s, .ok .none)
  | k + 1 =>
    let entry := match ovr.find e with
      | some p => (s, .ok p)
      | none => andThen (s.numberAt c (off table (8 * e)) 8) (fun u v => (u, .ok (v % 2 ^ 32, v / 2 ^ 32)))
    andThen entry (fun u p =>
      if p.2 = 0 then (u, .ok (.empty e))
      else if p.1 = t then (u, .ok (.found e p.2))
      else probeTable k u c table size ovr t ((e + 1) % size))

/-- A lookup in the table of `size` entries (R404). -/
def State.lookup (s : State) (c : Nat) (table : W64) (size : Nat) (ovr : Map (Nat × Nat)) (t : Nat) : State × Except Stop Probe :=
  probeTable size s c table size ovr t (t % size)

/-- The value that a lookup gives: the entry's word, or 0. -/
def Probe.value (p : Probe) : Nat :=
  match p with
  | .found _ v => v
  | .empty _ | .none => 0

/-! The writes of a command. -/

/-- Sets or clears P in every slot of the leaf that maps a page (R223, R422); an uncorrectable error in a slot stops it (R238). -/
def State.pinLeaf (s : State) (c : Nat) (va : W64) (up : Bool) : State × Except Stop Unit :=
  match s.walk ((va.setWidth 56).setWidth 64) with
  | .leaf slot e =>
    let n := 2 ^ (if pteSz e < 9 then pteSz e else pteSz e - 9)
    let first := slot / (8 * n) * (8 * n)
    match (List.range n).find? (fun i => s.hbmBadIn (first + 8 * i) 8) with
    | some i => (s, .error (.check (first + 8 * i) va c))
    | none =>
      ((List.range n).foldl (fun t i =>
        let old := t.hbmNat (first + 8 * i) 8
        t.hbmPut none (first + 8 * i) 8 (if up then old ||| 0x10 else old - (old &&& 0x10))) s, .ok ())
  | .fault _ => (s, .ok ())
  | .check pa => (s, .error (.check pa va c))

/-- What is left of a write that stopped: the bytes from the one that faulted on (R233). -/
def writeLeft (va : W64) (bs : List Byte) (e : Stop) : WStep :=
  match e with
  | .fault _ a _ => .write a (bs.drop (a - va).toNat)
  | .check _ _ _ => .write va bs

/-- Raises or lowers PINS of a prefix entry that holds a page, and P of the leaf that maps it at the ends (R422). -/
def State.pinEntry (s : State) (c : Nat) (entry : W64) (page n : Nat) (up : Bool) : State × Except Stop Unit :=
  andThen (s.putBytes c (off entry 0x14) (leBytes 4 (if up then min (n + 1) 0xFFFFFFFF else n - 1))) (fun t _ =>
    if (up && n == 0) || (!up && n == 1) then t.pinLeaf c (BitVec.ofNat 64 page) up else (t, .ok ()))

/-- One write; where it stops, what is left of it. -/
def State.planStep (s : State) (c : Nat) (st : WStep) : State × Option (Stop × WStep) :=
  let wrote := fun (r : State × Except Stop Unit) (left : WStep) => match r with
    | (t, .ok ()) => (t, none)
    | (t, .error e) => (t, some (e, left))
  match st with
  | .write va bs =>
    match s.putBytes c va bs with
    | (t, .ok ()) => (t, none)
    | (t, .error e) => (t, some (e, writeLeft va bs e))
  | .bind n p d f =>
    (s.modCore c (fun k => match k.binds.find n with
      | some b => { k with binds := k.binds.put n { b with position := p, draw := d, flags := f } }
      | none => k), none)
  | .count table t =>
    match s.lookup c table 4096 [] t.toNat with
    | (u, .error e) => (u, some (e, st))
    | (u, .ok (.found e v)) => wrote (u.putBytes c (off table (8 * e)) (leBytes 4 t.toNat ++ leBytes 4 (min (v + 1) 0xFFFFFFFF))) st
    | (u, .ok (.empty e)) => wrote (u.putBytes c (off table (8 * e)) (leBytes 4 t.toNat ++ leBytes 4 1)) st
    | (u, .ok .none) => (u, none)
  | .ticket va slot =>
    match s.numberAt c va 8 with
    | (u, .error e) => (u, some (e, st))
    | (u, .ok v) =>
      match u.putBytes c va (leBytes 8 (v + 1)) with
      | (w, .error e) => (w, some (e, st))
      | (w, .ok ()) => wrote (w.putBytes c slot (leBytes 8 v)) (.write slot (leBytes 8 v))
  | .pin entry up =>
    match s.bytesAt c entry 32 with
    | (u, .error e) => (u, some (e, st))
    | (u, .ok bs) => wrote (u.pinEntry c entry (numAt bs 8 8) (numAt bs 0x14 4) up) st

/-- Performs the writes in order, and then the command is done. -/
def runPlan (s : State) (c q : Nat) (m : Cmd) (l : List WStep) : State :=
  match l with
  | [] => s.finish c q m 0
  | st :: rest =>
    match s.planStep c st with
    | (t, none) => runPlan t c q m rest
    | (t, some (e, left)) => ({ t with read := [] } : State).stopCmd c q { m with plan := some (left :: rest) } e m.progress

/-- A command that first computes its writes. -/
def State.planned (s : State) (c q : Nat) (m : Cmd) (make : State → State × Except Stop (List WStep)) : State :=
  match m.plan with
  | some l => runPlan s c q m l
  | none =>
    match make s with
    | (t, .error e) => t.stopCmd c q m e m.progress
    | (t, .ok l) => runPlan t c q m l

def writeWord (va : W64) (v : Nat) : WStep := .write va (leBytes 4 v)

/-! Logit programs (R409). -/

/-- binary32 division, rounded once to nearest even, NaN canonical (R409). -/
def rnDiv (a b : Nat) : Nat :=
  match f32.decode a, f32.decode b with
  | .nan _, _ | _, .nan _ | .inf _, .inf _ => f32.qnan
  | .inf n, .fin k _ _ => f32.signBit (n != k) + f32.infCode
  | .fin n _ _, .inf k => f32.signBit (n != k)
  | .fin n m e, .fin k d x =>
    if d = 0 then (if m = 0 then f32.qnan else f32.signBit (n != k) + f32.infCode)
    else
      let q := quotient m d (e - x)
      (f32.round .rne false (n != k) q.1 q.2.1 q.2.2).1

def f32NegInf : Nat := 0xFF800000
def f32One : Nat := 0x3F800000

def isNan32 (a : Nat) : Bool := (f32.decode a).isNan

/-- a > b and a ≥ b; false with a NaN. -/
def gt32 (a b : Nat) : Bool := !isNan32 a && !isNan32 b && decide ((f32.decode a).cmp (f32.decode b) = 1)
def ge32 (a b : Nat) : Bool := !isNan32 a && !isNan32 b && decide (0 ≤ (f32.decode a).cmp (f32.decode b))
def eq32 (a b : Nat) : Bool := !isNan32 a && !isNan32 b && (f32.decode a).cmp (f32.decode b) == 0

def max32 (a b : Nat) : Nat := (f32.minmax false false a b).1
def min32 (a b : Nat) : Nat := (f32.minmax false true a b).1

/-- The fields of a Winnow-code word. -/
structure WWord where
  op : Nat
  d : Nat
  a : Nat
  b : Nat
  p : Nat
  imm : Nat
  deriving DecidableEq, Repr

def wwordOf (w : W32) : WWord :=
  { op := (w.extractLsb' 26 6).toNat, d := (w.extractLsb' 23 3).toNat, a := (w.extractLsb' 20 3).toNat,
    b := (w.extractLsb' 17 3).toNat, p := (w.extractLsb' 13 4).toNat, imm := (w.extractLsb' 0 13).toNat }

/-- The word is legal (R409). -/
def WWord.ok (x : WWord) : Bool :=
  x.imm == 0 &&
  match x.op with
  | 0x01 | 0x02 | 0x03 => x.a == 0 && x.b == 0 && x.p == 0
  | 0x04 | 0x05 | 0x06 | 0x0A | 0x0B => x.p == 0
  | 0x07 | 0x08 => x.b == 0
  | 0x09 => x.b == 0 && x.p == 0
  | 0x0C | 0x0D => x.p == 0 && decide (x.d < 4)
  | 0x0E => decide (x.p < 4)
  | 0x0F => true
  | 0x10 => x.b == 0 && decide (x.p < 4)
  | 0x11 => x.b == 0 && decide (x.p < 15)
  | 0x12 => x.d == 0 && x.a == 0 && x.b == 0 && x.p == 0
  | _ => false

/-- One column's strip registers and masks. -/
structure Column where
  w : List Nat
  k : List Bool
  deriving DecidableEq, Repr

def Column.start : Column := { w := List.replicate 8 0, k := List.replicate 4 false }
def Column.get (x : Column) (i : Nat) : Nat := x.w.getD i 0

/-- What a word that reads no table does to a column; x is the strip element (R409). -/
def WWord.run (y : WWord) (p : List W32) (x : Nat) (col : Column) : Column :=
  let a := col.get y.a
  let b := col.get y.b
  let pv := (p.getD y.p 0).toNat
  let k := col.k.getD (y.p % 4) false
  let put := fun (v : Nat) => { col with w := col.w.set y.d v }
  match y.op with
  | 0x01 => put x
  | 0x04 => put (rnAdd a b)
  | 0x05 => put (rnSub a b)
  | 0x06 => put (rnMul a b)
  | 0x07 => put (rnMul a pv)
  | 0x08 => put (rnAdd a pv)
  | 0x09 => put (rnDiv f32One a)
  | 0x0A => put (max32 a b)
  | 0x0B => put (min32 a b)
  | 0x0C => { col with k := col.k.set y.d (gt32 a b) }
  | 0x0D => { col with k := col.k.set y.d (ge32 a b) }
  | 0x0E => put (if k then a else b)
  | 0x0F => put (if gt32 b 0 then (if gt32 a 0 then rnDiv a pv else rnMul a pv) else a)
  | 0x10 => put (if k then f32NegInf else a)
  | 0x11 => put (min32 (max32 a pv) (p.getD (y.p + 1) 0).toNat)
  | _ => col

/-- A program's words are legal up to its first `end`, which it has (R325; R410 keeps any other out of the store). -/
def programRuns (ws : List W32) : Bool :=
  match ws with
  | [] => false
  | w :: rest => (wwordOf w).ok && ((wwordOf w).op == 0x12 || programRuns rest)

/-- Runs a program on a column up to its first `end`. -/
def runColumn (s : State) (c : Nat) (bd : Binding) (t x : Nat) (ws : List W32) (col : Column) : State × Except Stop Nat :=
  match ws with
  | [] => (s, .ok (col.get 0))
  | w :: rest =>
    let y := wwordOf w
    let put := fun (u : State) (v : Nat) => runColumn u c bd t x rest { col with w := col.w.set y.d v }
    match y.op with
    | 0x12 => (s, .ok (col.get 0))
    | 0x02 => andThen (s.lookup c (off bd.sheaf 0x200) 4096 [] t) (fun u p => put u (f32.round .rne false false p.value 0 false).1)
    | 0x03 => andThen (s.lookup c (off bd.sheaf 0x8200) 1024 [] t) (fun u p => put u p.value)
    | _ => runColumn s c bd t x rest (y.run bd.p x col)

/-! Bindings. -/

def winnowShape (nb : Nat) : CmdShape := { queue := 4, nb := nb }

/-- The store's copy of a program, when its word 0 is not zero (R410). -/
def State.programOf (s : State) (id : Nat) : Option (List W32) :=
  if id < 256 ∧ s.wprogs.get 0 (id * 64) ≠ 0 then some ((List.range 64).map (fun i => s.wprogs.get 0 (id * 64 + i))) else none

/-- The binding that a sheaf's header gives (R401, R403). -/
def bindingOf (sheaf : W64) (h : List Byte) (prog : List W32) : Binding :=
  { sheaf := sheaf, prog := prog, progId := numAt h 8 4, flags := BitVec.ofNat 32 (numAt h 0x0C 4),
    key := BitVec.ofNat 64 (numAt h 0x10 8), position := BitVec.ofNat 32 (numAt h 0x18 4),
    draw := BitVec.ofNat 32 (numAt h 0x1C 4), p := (List.range 16).map (fun i => BitVec.ofNat 32 (numAt h (0x20 + 4 * i) 4)) }

/-- WBIND (R414). -/
def wbindWork (c q : Nat) (m : Cmd) (s : State) : State :=
  match s.bytesAt c (m.val 0) 0x60 with
  | (t, .error e) => t.stopCmd c q m e 0
  | (t, .ok h) =>
    match t.programOf (numAt h 8 4) with
    | none => t.badRecord m
    | some prog =>
      (t.modCore c (fun k => { k with binds := k.binds.put (m.val 2).toNat (bindingOf (m.val 0) h prog) })).finish c q m 0

def legalWbind (_ : SeOps) (_ : State) (_ : Nat) (v : List W64) : Bool :=
  (valAt v 0).extractLsb' 0 9 == 0 && decide ((valAt v 2).toNat ≤ 15)

/-- WBIND (R414). -/
def execWbind (o : SeOps) (s : State) : Out := s.engineRow (winnowShape 1) o (.wbind o) (legalWbind o) noHeld wbindWork

/-! Operand words (R412). -/

def wordTile (w : W64) : Nat := (w.extractLsb' 0 3).toNat
def wordRow (w : W64) : Nat := (w.extractLsb' 8 7).toNat
def wordCols (w : W64) : Nat := (w.extractLsb' 16 7).toNat + 1
def wordBind (w : W64) : Nat := (w.extractLsb' 24 4).toNat
def wordSlot (w : W64) : Nat := (w.extractLsb' 32 8).toNat

def winnowWordOk (s : State) (g : Nat) (w : W64) : Bool :=
  w.extractLsb' 40 24 == 0 && w.extractLsb' 28 4 == 0 && !w.getLsbD 23 && !w.getLsbD 15 && w.extractLsb' 3 5 == 0 &&
    decide (wordTile w < (s.grp g).desc.accn)

/-! WSTRIP (R415). -/

/-- The greatest element that is not NaN, or −∞. -/
def greatest (xs : List Nat) : Nat := xs.foldl (fun m x => if isNan32 x then m else max32 m x) f32NegInf

/-- 2 to the power (x − m) × log2 e, as the unit rounds it; 1 where x equals m (R415, R417). -/
def weight (x m : Nat) : Nat := if eq32 x m then f32One else rnExp2 (rnMul (rnSub x m) 0x3FB8AA3B)

/-- The sum of R415. -/
def stripSum (xs : List Nat) (m : Nat) : Nat :=
  if m = f32NegInf then 0 else xs.foldl (fun a x => if isNan32 x then a else rnAdd a (weight x m)) 0

/-- The partial of a strip whose first token is `base` (R415). -/
def partialOf (bd : Binding) (base : Nat) (xs : List Nat) : Partial :=
  let m := greatest xs
  let ys := xs.zipIdx.map (fun p =>
    if isNan32 p.1 then f32NegInf
    else rnAdd p.1 (gumbelOf ((stream bd.key bd.position bd.draw (BitVec.ofNat 32 (base + p.2))).1.setWidth 32)))
  let best := greatest ys
  let j := (ys.zipIdx.find? (fun p => eq32 p.1 best)).map (·.2)
  let none' := best == f32NegInf || j.isNone
  { max := BitVec.ofNat 32 m, sum := BitVec.ofNat 32 (stripSum xs m), best := BitVec.ofNat 32 best,
    bestx := BitVec.ofNat 32 (if none' then f32NegInf else xs.getD (j.getD 0) 0),
    token := if none' then 0xFFFFFFFF else BitVec.ofNat 32 (base + j.getD 0),
    nans := BitVec.ofNat 32 (xs.filter isNan32).length }

/-- Element `n` of a tile as WSTRIP reads it (R238). -/
def State.stripElem (s : State) (c t n : Nat) : Except Stop Nat :=
  if (s.core c).tileBad.contains (t, n) then .error (.check n 0 c) else .ok ((s.tile c t).elems.get 0 n).toNat

/-- One column of WSTRIP: the element after the program, written back (R415). -/
def State.stripColumn (s : State) (c : Nat) (bd : Binding) (t n token : Nat) : State × Except Stop Unit :=
  match s.stripElem c t n with
  | .error e => (s, .error e)
  | .ok x =>
    andThen (runColumn { s with read := [] } c bd token x bd.prog Column.start) (fun u v =>
      (u.setTile c t { u.tile c t with elems := (u.tile c t).elems.put n (BitVec.ofNat 32 v) }, .ok ()))

/-- WSTRIP (R415): column after column, and at last the partial; after a fault it goes on within the column that faulted (R233). -/
def wstripWork (c q : Nat) (m : Cmd) (s : State) : State :=
  let w := m.val 0
  let t := s.tileNo m.group (wordTile w)
  let at0 := wordRow w * 128
  match (s.core c).binds.find (wordBind w) with
  | none => s.badRecord m
  | some bd =>
    if !m.started && !(s.tile c t).tokenV then s.trapCmd m 0x15
    else if !programRuns bd.prog then s.badRecord m
    else
      match elemLoop (wordCols w - m.progress) m.progress s (fun u j => u.stripColumn c bd t (at0 + j) ((m.val 2).toNat + j)) with
      | (u, some (j, e)) => u.stopCmd c q m e j
      | (u, none) =>
        let ys := (List.range (wordCols w)).map (fun j => ((u.tile c t).elems.get 0 (at0 + j)).toNat)
        (u.modCore c (fun y => { y with
          partials := y.partials.put (t * 128 + wordRow w) (partialOf bd (m.val 2).toNat ys) })).finish c q m 0

def legalWstrip (_ : SeOps) (s : State) (g : Nat) (v : List W64) : Bool :=
  winnowWordOk s g (valAt v 0) && decide ((valAt v 2).toNat + wordCols (valAt v 0) - 1 ≤ 0xFFFFFFEF)

/-- WSTRIP (R415). -/
def execWstrip (o : SeOps) (s : State) : Out := s.engineRow (winnowShape 1) o (.wstrip o) (legalWstrip o) noHeld wstripWork

/-! WPART (R416). -/

/-- Fields 0x00 to 0x17 of a slot. -/
def Partial.bytes (p : Partial) : List Byte :=
  leBytes 4 p.max.toNat ++ leBytes 4 p.sum.toNat ++ leBytes 4 p.best.toNat ++ leBytes 4 p.bestx.toNat ++ leBytes 4 p.token.toNat ++
    leBytes 4 p.nans.toNat

/-- WPART (R416). -/
def wpartWork (c q : Nat) (m : Cmd) (s : State) : State :=
  let w := m.val 0
  let t := s.tileNo m.group (wordTile w)
  if !m.started && !(s.tile c t).tokenV then s.trapCmd m 0x15
  else
    s.planned c q m (fun u =>
      let slot := off (m.val 2) (0x40 + 32 * wordSlot w)
      (u, .ok [.write slot ((u.core c).partials.get Partial.empty (t * 128 + wordRow w)).bytes, .ticket (m.val 2) (off slot 0x18)]))

def legalWpart (_ : SeOps) (s : State) (g : Nat) (v : List W64) : Bool :=
  winnowWordOk s g (valAt v 0) && (valAt v 2).extractLsb' 0 6 == 0

/-- WPART (R416). -/
def execWpart (o : SeOps) (s : State) : Out := s.engineRow (winnowShape 1) o (.wpart o) (legalWpart o) noHeld wpartWork

/-! WDRAW (R417). -/

/-- A command under a binding: unbound ends the launch (R411); one that draws with DRAW exhausted traps before it writes anything
(R408). -/
def State.underBinding (s : State) (c q : Nat) (m : Cmd) (draws : Bool) (make : Binding → State → State × Except Stop (List WStep)) : State :=
  match (s.core c).binds.find (m.val 0).toNat with
  | none => s.badRecord m
  | some bd =>
    if draws && !m.started && bd.draw == 0xFFFFFFFF then s.trapCmd m 0x18
    else s.planned c q m (make bd)

/-- A buffer's slot as WDRAW reads it. -/
def partialAt (bs : List Byte) (k : Nat) : Partial :=
  let f := fun (i : Nat) => BitVec.ofNat 32 (numAt bs (32 * k + 4 * i) 4)
  { max := f 0, sum := f 1, best := f 2, bestx := f 3, token := f 4, nans := f 5 }

/-- BEST of a slot; a NaN counts as −∞ (R417). -/
def Partial.rank (p : Partial) : Nat := if isNan32 p.best.toNat then f32NegInf else p.best.toNat

/-- The slot that wins: the greatest BEST, the least TOKEN among equals. -/
def winner (ps : List Partial) : Option Partial :=
  let best := greatest (ps.map Partial.rank)
  argMin (fun (p : Partial) => p.token.toNat) (ps.filter (fun p => eq32 p.rank best))

/-- The writes of WDRAW (R417). -/
def drawSteps (n : Nat) (bd : Binding) (buf : W64) (ps : List Partial) : List WStep :=
  let m := greatest (ps.map (·.max.toNat))
  let sum := ps.foldl (fun a p => if p.max.toNat = f32NegInf then a else rnAdd a (rnMul p.sum.toNat (weight p.max.toNat m))) 0
  let head := fun (logp token n st : Nat) =>
    [writeWord (off buf 0x18) logp, writeWord (off buf 0x14) token, writeWord (off buf 0x10) n, writeWord (off buf 0x0C) st]
  if ps.all (fun p => p.token == 0xFFFFFFFF) then head f32NegInf 0xFFFFFFFF 0 1
  else
    match winner ps with
    | none => head f32NegInf 0xFFFFFFFF 0 1
    | some w =>
      head (rnSub (rnSub w.bestx.toNat m) (rnMul (rnLog2 sum) 0x3F317218)) w.token.toNat 1 0 ++
        [writeWord (off bd.sheaf 0x1C) (bd.draw + 1).toNat, .bind n bd.position (bd.draw + 1) bd.flags]

/-- WDRAW (R417). -/
def wdrawWork (c q : Nat) (m : Cmd) (s : State) : State :=
  s.underBinding c q m true (fun bd t =>
    let buf := m.val 2
    andThen (t.numberAt c (off buf 8) 4) (fun u n =>
      if n = 0 ∨ 256 < n then (u, .ok [writeWord (off buf 0x0C) 2])
      else
        andThen (u.bytesAt c (off buf 0x40) (32 * n)) (fun w bs =>
          (w, .ok (drawSteps (m.val 0).toNat bd buf ((List.range n).map (partialAt bs)))))))

def legalWdraw (_ : SeOps) (_ : State) (_ : Nat) (v : List W64) : Bool :=
  decide ((valAt v 0).toNat ≤ 15) && (valAt v 2).extractLsb' 0 6 == 0

/-- WDRAW (R417). -/
def execWdraw (o : SeOps) (s : State) : Out := s.engineRow (winnowShape 1) o (.wdraw o) (legalWdraw o) noHeld wdrawWork

/-! WCOMMIT (R418). -/

/-- The count table can take every absent token of the list; `ovr` holds the entries that the earlier ones take. -/
def canCount (s : State) (c : Nat) (table : W64) (ts : List Nat) (ovr : Map (Nat × Nat)) : State × Except Stop Bool :=
  match ts with
  | [] => (s, .ok true)
  | t :: rest =>
    andThen (s.lookup c table 4096 ovr t) (fun u p =>
      match p with
      | .found _ _ => canCount u c table rest ovr
      | .empty e => canCount u c table rest (ovr.put e (t, 1))
      | .none => (u, .ok false))

/-- The 32-bit words of some bytes. -/
def wordsAt (bs : List Byte) (n : Nat) : List Nat := (List.range n).map (fun i => numAt bs (4 * i) 4)

/-- WCOMMIT (R418). -/
def wcommitWork (c q : Nat) (m : Cmd) (s : State) : State :=
  s.underBinding c q m false (fun bd t =>
    let list := m.val 2
    let table := off bd.sheaf 0x200
    let status := fun (v : Nat) => writeWord (list - 4) v
    if bd.flags.getLsbD 0 then (t, .ok [status 3])
    else
      andThen (t.numberAt c list 4) (fun u n =>
        if n = 0 ∨ 64 < n then (u, .ok [status 2])
        else
          andThen (u.bytesAt c (list + 4) (4 * n)) (fun w bs =>
            let ts := wordsAt bs n
            if ts.any (fun x => decide (0xFFFFFFEF < x)) then (w, .ok [status 2])
            else
              andThen (canCount w c table ts []) (fun y ok =>
                if !ok then (y, .ok [status 4])
                else
                  let pos := min (bd.position.toNat + n) 0xFFFFFFFF
                  let flags := if pos = 0xFFFFFFFF then bd.flags ||| 1 else bd.flags
                  (y, .ok (ts.map (fun x => .count table (BitVec.ofNat 32 x)) ++
                    [writeWord (off bd.sheaf 0x18) pos, writeWord (off bd.sheaf 0x1C) 0, writeWord (off bd.sheaf 0x0C) flags.toNat,
                     .bind (m.val 0).toNat (BitVec.ofNat 32 pos) 0 flags, status 0]))))))

def legalWcommit (_ : SeOps) (_ : State) (_ : Nat) (v : List W64) : Bool :=
  decide ((valAt v 0).toNat ≤ 15) && (valAt v 2).extractLsb' 0 2 == 0 && decide (4 ≤ (valAt v 2).toNat)

/-- WCOMMIT (R418). -/
def execWcommit (o : SeOps) (s : State) : Out := s.engineRow (winnowShape 1) o (.wcommit o) (legalWcommit o) noHeld wcommitWork

/-! WACCEPT (R419). -/

/-- A probability: NaN and negative read as +0. -/
def probOf (v : Nat) : Nat := if isNan32 v || decide (2 ^ 31 ≤ v) then 0 else v

def State.probAt (s : State) (c : Nat) (va : W64) : State × Except Stop Nat :=
  andThen (s.numberAt c va 4) (fun t v => (t, .ok (probOf v)))

/-- The rows of an acceptance block. -/
structure Accept where
  n : Nat
  v : Nat
  p : W64
  q : W64
  rstr : Nat
  drafts : List Nat
  deriving DecidableEq, Repr

def acceptOf (bs : List Byte) : Accept :=
  { n := numAt bs 0 4, v := numAt bs 4 4, p := BitVec.ofNat 64 (numAt bs 8 8), q := BitVec.ofNat 64 (numAt bs 0x10 8),
    rstr := numAt bs 0x18 8, drafts := wordsAt (bs.drop 0x30) 16 }

/-- The checks of BADLIST. -/
def Accept.ok (a : Accept) (bs : List Byte) : Bool :=
  decide (1 ≤ a.n) && decide (a.n ≤ 16) && decide (1 ≤ a.v) && decide (a.v ≤ 2 ^ 24) && a.rstr % 4 == 0 && decide (4 * a.v ≤ a.rstr) &&
    numAt bs 0x24 4 == 0 && zeroAt bs 0x70 16 && (a.drafts.take a.n).all (fun d => decide (d < a.v))

def Accept.pAt (a : Accept) (i j : Nat) : W64 := off a.p (i * a.rstr + 4 * j)
def Accept.qAt (a : Accept) (i j : Nat) : W64 := off a.q (i * a.rstr + 4 * j)

/-- The uniform of draft `i`, or of the resampling draw (R406). -/
def acceptUniform (bd : Binding) (i : Nat) (t : W32) : Nat :=
  uniformOf ((stream bd.key (bd.position + BitVec.ofNat 32 i) bd.draw t).1.setWidth 32)

/-- How many of the drafts from `i` on are accepted in a row. -/
def acceptLoop (left : Nat) (s : State) (c : Nat) (bd : Binding) (a : Accept) (i : Nat) : State × Except Stop Nat :=
  match left with
  | 0 => (s, .ok i)
  | k + 1 =>
    let d := a.drafts.getD i 0
    andThen (s.probAt c (a.qAt i d)) (fun t q =>
      andThen (t.probAt c (a.pAt i d)) (fun u p =>
        match (f32.decode (acceptUniform bd i 0xFFFFFFFE)).mul (f32.decode q) with
        | some x => if x.cmp (f32.decode p) ≤ 0 then acceptLoop k u c bd a (i + 1) else (u, .ok i)
        | none => (u, .ok i)))

/-- r of R419 at token `j`, before the fallback. -/
def State.residual (s : State) (c : Nat) (a : Accept) (i j : Nat) (plain : Bool) : State × Except Stop Nat :=
  andThen (s.probAt c (a.pAt i j)) (fun t p =>
    if plain || decide (a.n ≤ i) then (t, .ok p)
    else andThen (t.probAt c (a.qAt i j)) (fun u q => (u, .ok (max32 (rnSub p q) 0))))

/-- Folds over the residuals of tokens `j` on. -/
def foldResidual {α : Type} (left : Nat) (s : State) (c : Nat) (a : Accept) (i j : Nat) (plain : Bool) (x : α) (f : α → Nat → Nat → α) :
    State × Except Stop α :=
  match left with
  | 0 => (s, .ok x)
  | k + 1 => andThen (s.residual c a i j plain) (fun t r => foldResidual k t c a i (j + 1) plain (f x j r) f)

/-- The pick so far: the running sum, the token picked, the last token with a positive residual. -/
structure Pick where
  sum : Nat
  picked : Option Nat
  last : Nat
  deriving DecidableEq, Repr

def Pick.next (target : Nat) (x : Pick) (j r : Nat) : Pick :=
  let c := rnAdd x.sum r
  { sum := c, picked := x.picked.or (if gt32 c target then some j else none), last := if gt32 r 0 then j else x.last }

/-- The writes of WACCEPT once its block has passed its checks (R419). -/
def acceptSteps (s : State) (c n : Nat) (bd : Binding) (a : Accept) (blk : W64) : State × Except Stop (List WStep) :=
  andThen (acceptLoop a.n s c bd a 0) (fun t i =>
    andThen (foldResidual a.v t c a i 0 false true (fun z _ r => z && eq32 r 0)) (fun u zero =>
      let plain := zero && decide (i < a.n)
      andThen (foldResidual a.v u c a i 0 plain 0 (fun x _ r => rnAdd x r)) (fun w sum =>
        if eq32 sum 0 then (w, .ok [writeWord (off blk 0x20) i, writeWord (off blk 0x28) 1])
        else
          let target := rnMul (acceptUniform bd i 0xFFFFFFFD) sum
          andThen (foldResidual a.v w c a i 0 plain { sum := 0, picked := none, last := 0 } (Pick.next target)) (fun y x =>
            (y, .ok [writeWord (off blk 0x20) i, writeWord (off blk (0x30 + 4 * i)) (x.picked.getD x.last),
                     writeWord (off blk 0x2C) (i + 1), writeWord (off blk 0x28) 0,
                     writeWord (off bd.sheaf 0x1C) (bd.draw + 1).toNat, .bind n bd.position (bd.draw + 1) bd.flags])))))

/-- WACCEPT (R419). -/
def wacceptWork (c q : Nat) (m : Cmd) (s : State) : State :=
  s.underBinding c q m true (fun bd t =>
    let blk := m.val 2
    andThen (t.bytesAt c blk 128) (fun u bs =>
      let a := acceptOf bs
      if !a.ok bs then (u, .ok [writeWord (off blk 0x28) 2])
      else if bd.flags.getLsbD 0 || decide (0xFFFFFFFF < bd.position.toNat + a.n) then (u, .ok [writeWord (off blk 0x28) 3])
      else acceptSteps u c (m.val 0).toNat bd a blk))

def legalWaccept (_ : SeOps) (_ : State) (_ : Nat) (v : List W64) : Bool :=
  decide ((valAt v 0).toNat ≤ 15) && (valAt v 2).extractLsb' 0 7 == 0

/-- WACCEPT (R419). -/
def execWaccept (o : SeOps) (s : State) : Out := s.engineRow (winnowShape 1) o (.waccept o) (legalWaccept o) noHeld wacceptWork

end Sys2Proof.Machine
end

