-- ==== Sys2Proof/Machine/SequenceUnit.lean ====
section
/-! DEFINITION. KVSPLICE and the commands of the prefix unit (R239 to R242, R420 to R423). -/

namespace Sys2Proof.Machine

def sequenceShape : CmdShape := { queue := 5 }

/-- The checks at issue of the sequence family (R239, R422). -/
def legalSequence (o : SeOps) (_ : State) (_ : Nat) (v : List W64) : Bool := o.b == 0 && (valAt v 0).extractLsb' 0 6 == 0

/-! KVSPLICE. -/

/-- An item of a splice list: the page and its new leaf (R240). -/
structure SpliceItem where
  va : W64
  leaf : W64
  deriving DecidableEq, Repr

/-- The level of an item's leaf (R223). -/
def SpliceItem.level (i : SpliceItem) : Nat := if pteSz i.leaf < 9 then 3 else 2

/-- How many slots its page fills (R223). -/
def SpliceItem.slots (i : SpliceItem) : Nat := 2 ^ (if pteSz i.leaf < 9 then pteSz i.leaf else pteSz i.leaf - 9)

def SpliceItem.page (i : SpliceItem) : Nat := i.va.toNat % 2 ^ 56
def SpliceItem.size (i : SpliceItem) : Nat := pageBytes (pteSz i.leaf)

/-- A page aligned to its size, and pages that do not overlap (R241). -/
def SpliceItem.apart (i j : SpliceItem) : Bool := decide (i.page + i.size ≤ j.page) || decide (j.page + j.size ≤ i.page)

def itemsApart (l : List SpliceItem) : Bool :=
  match l with
  | [] => true
  | i :: rest => i.page % i.size == 0 && rest.all i.apart && itemsApart rest

/-- The first slot of a leaf at level `target`: none where the walk meets an invalid or malformed table entry, or a leaf above
(R241). -/
def State.slotFrom (s : State) (va : W64) (target left level node : Nat) : Except Nat (Option Nat) :=
  let slot := node + 8 * walkIndex level va
  match left with
  | 0 => .ok none
  | k + 1 =>
    if level = target then .ok (some slot)
    else if s.hbmBadIn slot 8 then .error slot
    else
      let e := BitVec.ofNat 64 (s.hbmNat slot 8)
      if !pteV e || pteMalformed level e || pteIsLeaf e then .ok none
      else s.slotFrom va target k (level + 1) (ptePfn e * 65536 + pteSz e * 4096)

def State.slotOf (s : State) (i : SpliceItem) : Except Nat (Option Nat) := s.slotFrom i.va i.level 4 0 s.troot.toNat

/-- The slots of all items, and what stands at each item's first one. -/
def State.slotsOf (s : State) (l : List SpliceItem) : Except Nat (Option (List (SpliceItem × Nat × W64))) :=
  match l with
  | [] => .ok (some [])
  | i :: rest =>
    match s.slotOf i, s.slotsOf rest with
    | .error pa, _ => .error pa
    | _, .error pa => .error pa
    | .ok (some slot), .ok (some more) =>
      if s.hbmBadIn slot 8 then .error slot else .ok (some ((i, slot, BitVec.ofNat 64 (s.hbmNat slot 8)) :: more))
    | .ok _, .ok _ => .ok none

/-- A valid old entry that is no leaf of the item's size, a table entry or a malformed one too (R241; log 118). -/
def oldUnlike (i : SpliceItem) (old : W64) : Bool :=
  pteV old && (pteMalformed i.level old || !pteIsLeaf old || pteSz old != pteSz i.leaf)

/-- A new leaf that may be spliced in (R241). -/
def SpliceItem.newOk (i : SpliceItem) : Bool :=
  pteV i.leaf && i.leaf.getLsbD 6 && pteIsLeaf i.leaf && !pteMalformed i.level i.leaf

/-- Writes the new leaf, with S cleared, to every slot of its page, and withdraws the page from every TLB. -/
def State.spliceItem (s : State) (i : SpliceItem) (slot : Nat) : State :=
  ((List.range i.slots).foldl (fun t k => t.hbmPut none (slot + 8 * k) 8 (i.leaf &&& ~~~0x40#64).toNat) s).invalidatePage i.page i.size

/-- Translates `n` bytes for a write, and writes nothing. -/
def State.reachBytes (s : State) (c : Nat) (va : W64) (n : Nat) : State × Except Stop Unit :=
  match n with
  | 0 => (s, .ok ())
  | k + 1 =>
    match s.translate (some c) va { w := true } with
    | (t, .ok _) => t.reachBytes c (va + 1) k
    | (t, .fault e) => (t, .error (.fault true va e))
    | (t, .check pa) => (t, .error (.check pa va c))

/-- The instant of R241: the displaced leaves, with the A and D that the translation of the pool has put into them (R242), go to the pool,
the new ones to their slots. -/
def State.spliceAll (s : State) (c : Nat) (pool : W64) (top : Nat) (l : List (SpliceItem × Nat × W64)) : State × Except Stop Unit :=
  let old := l.filter (fun e => pteV e.2.2)
  andThen (s.reachBytes c (off pool (0x10 + 8 * top)) (8 * old.length)) (fun t _ =>
    andThen (if old.isEmpty then (t, .ok ()) else t.reachBytes c pool 8) (fun u _ =>
      andThen (u.putBytes c (off pool (0x10 + 8 * top)) (old.flatMap (fun e => leBytes 8 ((BitVec.ofNat 64 (u.hbmNat e.2.1 8)) &&& ~~~1#64).toNat)))
        (fun v _ => andThen (if old.isEmpty then (v, .ok ()) else v.putBytes c pool (leBytes 8 (top + old.length))) (fun w _ =>
          (l.foldl (fun y e => y.spliceItem e.1 e.2.1) w, .ok ())))))

/-- The first failing check of a splice list beyond its header (R241), or the slots. -/
def spliceCheck (s : State) (c : Nat) (items : List SpliceItem) (top cap : Nat) : Except Stop (Except Nat (List (SpliceItem × Nat × W64))) :=
  match s.slotsOf items with
  | .error pa => .error (.check pa 0 c)
  | .ok none => .ok (.error 2)
  | .ok (some l) =>
    if l.any (fun e => oldUnlike e.1 e.2.2) then .ok (.error 2)
    else if l.any (fun e => pteV e.2.2 && e.2.2.getLsbD 4) then .ok (.error 3)
    else if !items.all SpliceItem.newOk then .ok (.error 4)
    else if cap < top + (l.filter (fun e => pteV e.2.2)).length then .ok (.error 5)
    else .ok (.ok l)

def itemsOf (bs : List Byte) (n : Nat) : List SpliceItem :=
  (List.range n).map (fun k => { va := BitVec.ofNat 64 (numAt bs (16 * k) 8), leaf := BitVec.ofNat 64 (numAt bs (16 * k + 8) 8) })

/-- KVSPLICE before its STATUS: the list read and checked, and then the instant T; the answer is the code (R241). -/
def State.splice (s : State) (c : Nat) (list : W64) : State × Except Stop Nat :=
  andThen (s.bytesAt c list 0x20) (fun t h =>
    let n := numAt h 0 8
    let pool := BitVec.ofNat 64 (numAt h 8 8)
    if n = 0 ∨ 16 < n ∨ numAt h 0x18 8 ≠ 0 then (t, .ok 1)
    else
      andThen (t.bytesAt c (off list 0x20) (16 * n)) (fun u bs =>
        let items := itemsOf bs n
        if !itemsApart items then (u, .ok 1)
        else
          andThen (u.bytesAt c pool 16) (fun w p =>
            match spliceCheck w c items (numAt p 0 8) (numAt p 8 8) with
            | .error e => (w, .error e)
            | .ok (.error k) => (w, .ok k)
            | .ok (.ok l) => andThen (w.spliceAll c pool (numAt p 0 8) l) (fun y _ => (y, .ok 0)))))

/-- KVSPLICE (R241, R242): a fault before T leaves every entry and the pool as they were, and the command then reads both again. -/
def kvspliceWork (c q : Nat) (m : Cmd) (s : State) : State :=
  match m.plan with
  | some l => runPlan s c q m l
  | none =>
    match s.splice c (m.val 0) with
    | (t, .error e) => ({ t with read := [] } : State).stopCmd c q m e 0
    | (t, .ok k) => runPlan t c q m [.write (off (m.val 0) 0x10) (leBytes 8 k)]

/-- KVSPLICE (R239). -/
def execKvsplice (o : SeOps) (s : State) : Out := s.engineRow sequenceShape o (.kvsplice o) (legalSequence o) noHeld kvspliceWork

/-! The prefix table (R420, R421). -/

/-- A block's hash from the hash of the prefix before it (R421). -/
def blockHash (h : W64) (ts : List Nat) : W64 :=
  let x := ts.foldl (fun (a : W64) t => (a ^^^ BitVec.ofNat 64 t) * 0x9A3C5E712B4D86F3#64) h
  x ^^^ (x >>> 29)

/-- The hashes of `n` blocks of 16 tokens. -/
def hashesFrom (n : Nat) (h : W64) (ts : List Nat) : List W64 :=
  match n with
  | 0 => []
  | k + 1 =>
    let g := blockHash h (ts.take 16)
    g :: hashesFrom k g (ts.drop 16)

def hashesOf (n : Nat) (ts : List Nat) : List W64 := hashesFrom n 0x53485A3100000001 ts

/-- Base and size of the table (R420, R424). -/
def State.prefixBase (s : State) : W64 := s.pfxbase &&& ~~~0x3F#64
def State.prefixSize (s : State) : Nat := 2 ^ (s.pfxbase.extractLsb' 0 5).toNat

/-- An entry of the table: HASH, PAGE, MODEL and PINS. -/
structure PfxEntry where
  hash : W64
  page : Nat
  model : Nat
  pins : Nat
  deriving DecidableEq, Repr

def pfxEntryOf (bs : List Byte) : PfxEntry :=
  { hash := BitVec.ofNat 64 (numAt bs 0 8), page := numAt bs 8 8, model := numAt bs 0x10 4, pins := numAt bs 0x14 4 }

/-- The end of a probe: the matching entry, or the first entry that a new block may take. -/
inductive PfxProbe where
  | found (e : Nat) (x : PfxEntry)
  | absent (free : Option Nat)
  deriving DecidableEq, Repr

/-- A probe of at most 64 entries (R420); `ovr` holds the blocks that the command in hand inserts. -/
def probePrefix (fuel : Nat) (s : State) (c : Nat) (ovr : Map PfxEntry) (h : W64) (model e : Nat) (free : Option Nat) : State × Except Stop PfxProbe :=
  match fuel with
  | 0 => (s, .ok (.absent free))
  | k + 1 =>
    let entry := match ovr.find e with
      | some x => (s, .ok x)
      | none => andThen (s.bytesAt c (off s.prefixBase (32 * e)) 32) (fun t bs => (t, .ok (pfxEntryOf bs)))
    andThen entry (fun t x =>
      if x.page = 0 then (t, .ok (.absent (free.or (some e))))
      else if x.page ≠ 1 ∧ x.hash = h ∧ x.model = model then (t, .ok (.found e x))
      else probePrefix k t c ovr h model ((e + 1) % s.prefixSize) (free.or (if x.page = 1 then some e else none)))

def State.findBlock (s : State) (c : Nat) (ovr : Map PfxEntry) (h : W64) (model : Nat) : State × Except Stop PfxProbe :=
  probePrefix 64 s c ovr h model (h.toNat % s.prefixSize) none

/-- A query block (R422). -/
structure Query where
  ntok : Nat
  model : Nat
  flags : Nat
  tokens : W64
  pages : W64
  nblk : Nat
  deriving DecidableEq, Repr

def queryOf (bs : List Byte) : Query :=
  { ntok := numAt bs 0 4, model := numAt bs 4 4, flags := numAt bs 8 4, tokens := BitVec.ofNat 64 (numAt bs 0x10 8),
    pages := BitVec.ofNat 64 (numAt bs 0x18 8), nblk := numAt bs 0x20 4 }

def Query.n (q : Query) : Nat := q.ntok / 16

/-- Every field is in range (R422). `pinning` adds that NBLK names blocks of the query. -/
def Query.ok (q : Query) (bs : List Byte) (pinning : Bool) : Bool :=
  decide (q.ntok ≤ 4096) && decide (q.flags ≤ 1) && q.tokens.extractLsb' 0 2 == 0 && q.pages.extractLsb' 0 3 == 0 && zeroAt bs 0x24 28 &&
    (!pinning || decide (q.nblk ≤ q.n))

/-- The blocks present from the first on, up to the first absent one. -/
def matchBlocks (s : State) (c model : Nat) (hs : List W64) : State × Except Stop (List (Nat × PfxEntry)) :=
  match hs with
  | [] => (s, .ok [])
  | h :: rest =>
    andThen (s.findBlock c [] h model) (fun t p =>
      match p with
      | .found e x => andThen (matchBlocks t c model rest) (fun u l => (u, .ok ((e, x) :: l)))
      | .absent _ => (t, .ok []))

def statusStep (blk : W64) (v : Nat) : WStep := writeWord (off blk 0x0C) v
def nblkStep (blk : W64) (v : Nat) : WStep := writeWord (off blk 0x20) v

def entryAt (s : State) (e : Nat) : W64 := off s.prefixBase (32 * e)

/-- PFXLK's lookups from block `i` on (R422, R423): with `pin` each block is pinned in the turn in which it is found. The first `done`
blocks were found, and pinned, before the last fault; the answer counts those that are now. -/
def lookBlocks (s : State) (c : Nat) (pin : Bool) (model done i : Nat) (hs : List W64) : State × Nat × Except Stop (List PfxEntry) :=
  match hs with
  | [] => (s, i, .ok [])
  | h :: rest =>
    match s.findBlock c [] h model with
    | (t, .error e) => (t, i, .error e)
    | (t, .ok (.absent _)) => (t, i, .ok [])
    | (t, .ok (.found e x)) =>
      match (if pin && decide (done ≤ i) then t.pinEntry c (entryAt t e) x.page x.pins true else (t, .ok ())) with
      | (u, .error k) => ({ u with read := s.read }, i, .error k)
      | (u, .ok ()) =>
        match lookBlocks u c pin model done (i + 1) rest with
        | (w, n, .ok l) => (w, n, .ok (x :: l))
        | (w, n, .error k) => (w, n, .error k)

/-- The writes of PFXLK (R422). -/
def lookSteps (blk : W64) (q : Query) (l : List PfxEntry) : List WStep :=
  l.zipIdx.map (fun p => .write (off q.pages (8 * p.2)) (leBytes 8 p.1.page)) ++ [nblkStep blk l.length, statusStep blk 0]

/-- The writes of PFXINS from block `i` on; `ins` counts the blocks inserted (R422). -/
def insertSteps (s : State) (c : Nat) (blk : W64) (q : Query) (ovr : Map PfxEntry) (i ins : Nat) (hs : List W64) : State × Except Stop (List WStep) :=
  match hs with
  | [] => (s, .ok [nblkStep blk ins, statusStep blk 0])
  | h :: rest =>
    andThen (s.findBlock c ovr h q.model) (fun t p =>
      match p with
      | .found _ _ => insertSteps t c blk q ovr (i + 1) ins rest
      | .absent none => (t, .ok [statusStep blk 4])
      | .absent (some e) =>
        andThen (t.numberAt c (off q.pages (8 * i)) 8) (fun u page =>
          andThen (insertSteps u c blk q (ovr.put e { hash := h, page := page, model := q.model, pins := 0 }) (i + 1) (ins + 1) rest) (fun w l =>
            (w, .ok (.write (entryAt w e) (leBytes 8 h.toNat ++ leBytes 8 page ++ leBytes 4 q.model ++ leBytes 4 0) :: l)))))

/-- The writes of PIN and UNPIN (R422). -/
def pinSteps (s : State) (c : Nat) (blk : W64) (q : Query) (hs : List W64) (up : Bool) : State × Except Stop (List WStep) :=
  let want := hs.take q.nblk
  andThen (matchBlocks s c q.model want) (fun t l =>
    if l.length < want.length then (t, .ok [statusStep blk 5])
    else if !up && l.any (fun p => p.2.pins == 0) then (t, .ok [statusStep blk 6])
    else (t, .ok (l.map (fun p => .pin (entryAt t p.1) up) ++ [statusStep blk 0])))

/-- The commands that have come to the prefix unit and are not done, in the order of their arrival: core and command (R423). -/
def State.prefixLine (s : State) : List (Nat × Nat) :=
  s.pfxLine.filter (fun p => (s.queue p.1 5).any (fun m => m.id == p.2 && !m.finished))

/-- A prefix command comes to the unit, and has its turn when it stands first (R423). -/
def State.prefixTurn (s : State) (c : Nat) (m : Cmd) (work : State → State) : State :=
  let l := s.prefixLine
  let k := if l.contains (c, m.id) then l else l ++ [(c, m.id)]
  let t : State := { s with pfxLine := k }
  if k.head? = some (c, m.id) then work t else t

/-- Reads a query block and its tokens: the query and the hashes of its blocks, or none where a field is out of range (R422). -/
def State.queryAt (s : State) (c : Nat) (blk : W64) (pinning : Bool) : State × Except Stop (Option (Query × List W64)) :=
  andThen (s.bytesAt c blk 64) (fun t bs =>
    let y := queryOf bs
    if !y.ok bs pinning then (t, .ok none)
    else andThen (t.bytesAt c y.tokens (64 * y.n)) (fun u ts => (u, .ok (some (y, hashesOf y.n (wordsAt ts (16 * y.n)))))))

/-- A prefix command: its query block, then its writes (R422, R423). -/
def prefixWork (pinning : Bool) (make : State → Nat → W64 → Query → List W64 → State × Except Stop (List WStep)) (c q : Nat) (m : Cmd) (s : State) : State :=
  s.prefixTurn c m (fun v => v.planned c q m (fun t =>
    andThen (t.queryAt c (m.val 0) pinning) (fun u r =>
      match r with
      | none => (u, .ok [statusStep (m.val 0) 2])
      | some (y, hs) => make u c (m.val 0) y hs)))

/-- PFXLK (R422, R423). -/
def pfxlkWork (c q : Nat) (m : Cmd) (s : State) : State :=
  s.prefixTurn c m (fun v =>
    match m.plan with
    | some l => runPlan v c q m l
    | none =>
      match v.queryAt c (m.val 0) false with
      | (t, .error e) => t.stopCmd c q m e m.progress
      | (t, .ok none) => runPlan t c q m [statusStep (m.val 0) 2]
      | (t, .ok (some (y, hs))) =>
        match lookBlocks t c (y.flags == 1) y.model m.progress 0 hs with
        | (u, n, .error e) => u.stopCmd c q m e (if y.flags = 1 then n else m.progress)
        | (u, n, .ok l) => runPlan u c q { m with progress := n } (lookSteps (m.val 0) y l))
/-- PFXINS (R422). -/
def pfxinsWork : Nat → Nat → Cmd → State → State := prefixWork false (fun s c blk y hs => insertSteps s c blk y [] 0 0 hs)
/-- PIN (R422). -/
def pinWork : Nat → Nat → Cmd → State → State := prefixWork true (fun s c blk y hs => pinSteps s c blk y hs true)
/-- UNPIN (R422). -/
def unpinWork : Nat → Nat → Cmd → State → State := prefixWork true (fun s c blk y hs => pinSteps s c blk y hs false)

/-- PFXLK (R422). -/
def execPfxlk (o : SeOps) (s : State) : Out := s.engineRow sequenceShape o (.pfxlk o) (legalSequence o) noHeld pfxlkWork
/-- PFXINS (R422). -/
def execPfxins (o : SeOps) (s : State) : Out := s.engineRow sequenceShape o (.pfxins o) (legalSequence o) noHeld pfxinsWork
/-- PIN (R422). -/
def execPin (o : SeOps) (s : State) : Out := s.engineRow sequenceShape o (.pin o) (legalSequence o) noHeld pinWork
/-- UNPIN (R422). -/
def execUnpin (o : SeOps) (s : State) : Out := s.engineRow sequenceShape o (.unpin o) (legalSequence o) noHeld unpinWork

end Sys2Proof.Machine
end

