-- ==== Sys2Proof/Machine/GraphOps.lean ====
section
/-! DEFINITION. Guards, the scalar side of the Halyard and the graph instructions (R368, R371, R373). -/

namespace Sys2Proof.Machine

def State.hal (s : State) (c x : Nat) : HalCtx := (s.core c).hal.get HalCtx.reset x
def State.setHal (s : State) (c x : Nat) (h : HalCtx) : State := s.modCore c (fun k => { k with hal := k.hal.put x h })

/-! Guards (R371). -/

/-- Resolves a guard slot. -/
def State.setGuard (s : State) (g k : Nat) (b : Bool) : State :=
  s.modGrp g (fun x => { x with guards := x.guards.put k (if b then .true else .false) })

/-- GSET (R371). -/
def execGset (a b : BitVec 6) (s : State) : Out :=
  s.groupDo [a, b] (fun g _ t =>
    if 15 < (t.sreg a).toNat then t.illegal
    else (t.setGuard g (t.sreg a).toNat (t.sreg b != 0)).advance)

/-- A queued command of the group names the slot. -/
def State.slotNamed (s : State) (g k : Nat) : Bool :=
  (s.core (s.grp g).core).queues.any (fun q => q.2.any (fun m => m.group == g && guardSlotOf m.row == some k))

/-- GCLR (R371). -/
def execGclr (a : BitVec 6) (s : State) : Out :=
  s.groupDo [a] (fun g _ t =>
    let k := (t.sreg a).toNat
    if 15 < k then t.illegal
    else if t.slotNamed g k then t.stallAs (.gclr k)
    else (t.modGrp g (fun x => { x with guards := x.guards.put k .unresolved })).advance)

/-! Contexts of the Halyard (R373). -/

/-- The operand word of HSTART. -/
def hstartOk (v : W64) : Bool := v.extractLsb' 3 5 == 0 && v.extractLsb' 32 32 == 0

def hctx (v : W64) : Nat := (v.extractLsb' 0 3).toNat

/-- HSTART (R373). -/
def execHstart (a b : BitVec 6) (s : State) : Out :=
  s.groupDo [a, b, b + 1, b + 2, b + 3] (fun g sp t =>
    let x := t.grp g
    let v := t.sreg a
    let k := hctx v
    let h := t.hal x.core k
    if b.extractLsb' 0 2 != 0 || !hstartOk v then t.illegal
    else if h.running && h.owner == g then t.illegal
    else if h.running then t.stallAs (.hstart k)
    else
      let start := x.desc.hcb + ((v.extractLsb' 8 24).setWidth 64 <<< 3)
      (t.setHal x.core k { h with
        running := true
        owner := g
        pc := start
        h := (List.range 4).map (fun i => (i, t.sreg (b + BitVec.ofNat 6 i)))
        guard := 31
        parked := false
        since := t.nextId
        split := sp
        pushed := 0 }).advance)

/-- HSTOP (R373): it waits while an hl.str is half done, since a context stops at a word boundary. -/
def execHstop (a : BitVec 6) (s : State) : Out :=
  s.groupDo [a] (fun g _ t =>
    let c := (t.grp g).core
    let v := t.sreg a
    let h := t.hal c (hctx v)
    if v.extractLsb' 3 61 != 0 then t.illegal
    else if h.running && h.owner != g then t.illegal
    else if h.running && h.pushed != 0 then t.stallAs .held
    else (if h.running then t.setHal c (hctx v) { h with running := false, parked := false } else t).advance)

/-- HPERMIT (R373, R374). -/
def execHpermit (a b : BitVec 6) (s : State) : Out :=
  s.groupDo [a, b] (fun g _ t =>
    let c := (t.grp g).core
    let v := t.sreg a
    let h := t.hal c (hctx v)
    if v.extractLsb' 3 5 != 0 || v.extractLsb' 10 54 != 0 || decide (64 < (t.sreg b).toNat) then t.illegal
    else if h.running && h.owner != g then t.illegal
    else (t.setHal c (hctx v) { h with grants := h.grants.put (v.extractLsb' 8 2).toNat (t.sreg b).toNat }).advance)

/-! Graph instructions (R368). -/

/-- The built-in `fence.rel.dev`: what it waits for (R162, R368). -/
def State.relFenced (s : State) (g sp : Nat) : Bool := (s.split g sp).clausesDone && (s.grp g).fenced false true

/-- GCOND (R368). -/
def execGcond (a b : BitVec 6) (s : State) : Out :=
  s.groupDo [a, b] (fun g sp t =>
    if (t.sreg a).extractLsb' 0 3 ≠ 0 then t.illegal
    else if !t.relFenced g sp then t.stallAs .fence
    else t.scalarAccess g sp .sts (t.sreg a) 0 false (t.sreg b) 0)

/-- The result of GLAUNCH (R368). -/
def launchAnswer (r : Except Nat Nat) : W64 :=
  match r with
  | .ok id => (BitVec.ofNat 32 id).setWidth 64
  | .error k => 0x8000000000000000#64 ||| BitVec.ofNat 64 k

/-- GLAUNCH (R368): the Capstan acts, and its answer comes with CAPSTAN_ANSWER. -/
def execGlaunch (a b : BitVec 6) (s : State) : Out :=
  s.groupDo [a, b] (fun g sp t =>
    let v := t.sreg a
    if v.extractLsb' 20 44 ≠ 0 then t.illegal
    else if !t.relFenced g sp then t.stallAs .fence
    else
      let r := (t.stallAs (.capstan 0 b.toNat)).beginRun (v.extractLsb' 0 8).toNat (v.extractLsb' 8 6).toNat (v.extractLsb' 16 3).toNat
        (if v.getLsbD 19 then none else some (t.sreg b))
      r.1.modSplit g sp (fun p => { p with stall := some (.capstan (launchAnswer r.2) b.toNat) }))

/-- GDEC (R368): it is sent to the Capstan, which takes it in the order of R360 with CAPSTAN_ANSWER. -/
def execGdec (a b : BitVec 6) (s : State) : Out :=
  s.groupDo [a, b] (fun g sp t =>
    if !t.relFenced g sp then t.stallAs .fence else t.stallAs (.gdec (t.sreg a).toNat b.toNat))

/-- The answer `v` reaches scalar register `d`, and the split goes on (R368). -/
def State.answerSplit (s : State) (g sp d : Nat) (v : W64) : State :=
  s.modSplit g sp (fun p => { p with
    regs := if d = 0 then p.regs else p.regs.put d v
    spc := p.spc + 4
    stall := none })

/-- CAPSTAN_ANSWER: the Capstan has answered a GLAUNCH, or lowers the counter that a GDEC names and answers it; the answer reaches s[B] and
the split goes on (R360, R368). -/
def State.capstanAnswer (s : State) (g sp : Nat) : State :=
  match (s.split g sp).stall with
  | some (.capstan v d) => s.answerSplit g sp d v
  | some (.gdec n d) =>
    (match s.runOf g with
     | none => s.answerSplit g sp d 2
     | some r =>
       let u := s.decrement r n
       u.1.answerSplit g sp d (BitVec.ofNat 64 u.2))
  | _ => s

/-- CAPSTAN_ANSWER (R368). -/
def execCapstanAnswer (g sp : Nat) (s : State) : Out := s.eventDo (fun t => t.capstanAnswer g sp)

end Sys2Proof.Machine
end

