-- ==== Sys2Proof/Machine/Halyard.lean ====
section
/-! DEFINITION. The Halyard words (R372 to R377). -/

namespace Sys2Proof.Machine

/-- Register h of a context. -/
def HalCtx.reg (h : HalCtx) (r : BitVec 4) : W64 := h.h.get 0 r.toNat
def HalCtx.setReg (h : HalCtx) (r : BitVec 4) (v : W64) : HalCtx := { h with h := h.h.put r.toNat v }
def HalCtx.next (h : HalCtx) : HalCtx := { h with pc := h.pc + 8 }
/-- The target of a branch (R375). -/
def HalCtx.target (h : HalCtx) (imm : BitVec 32) : W64 := h.pc + (imm.signExtend 64 <<< 3)

/-- A Halyard word of the context in hand: an illegal field ends the launch (R375), else `f` performs it. -/
def State.halDo (s : State) (legal : Bool) (f : Nat → Nat → HalCtx → State → State) : Out :=
  match s.cur with
  | .halyard c x =>
    let h := s.hal c x
    if !h.running then .refused .noAgent
    else if h.parked then .next s
    else if !legal then .next s.illegal
    else .next (f c x h s)
  | .device | .scalar _ _ | .lane _ _ | .engine _ _ | .service _ => .refused .noAgent

/-- A word that changes only its context. -/
def State.halReg (s : State) (legal : Bool) (f : HalCtx → HalCtx) : Out := s.halDo legal (fun c x h t => t.setHal c x (f h))

/-- hl.set (R376). -/
def execHlSet (o : HlOps) (s : State) : Out :=
  let z := o.x.getLsbD 0
  s.halReg (o.b == 0 && o.y == 0 && o.x.extractLsb' 1 7 == 0 && (!z || o.a == 0)) (fun h =>
    (h.setReg o.d ((if z then 0 else h.reg o.a) + o.imm.signExtend 64)).next)

/-- hl.loop (R376). -/
def execHlLoop (o : HlOps) (s : State) : Out :=
  s.halReg (o.b == 0 && o.x == 0 && o.y == 0) (fun h =>
    let k := h.setReg o.d 0
    if k.reg o.a = 0 then { k with pc := h.target o.imm } else k.next)

/-- hl.next (R376). -/
def execHlNext (o : HlOps) (s : State) : Out :=
  s.halReg (o.b == 0 && o.x == 0 && o.y == 0) (fun h =>
    let v := h.reg o.d + 1
    let k := h.setReg o.d v
    if v.ult (k.reg o.a) then { k with pc := h.target o.imm } else k.next)

/-- Entry `i` of an hl.str (R376). -/
def strEntry (a b : W64) (i : Nat) : LaneReg :=
  .a (a.extractLsb' 0 32 + BitVec.ofNat 32 i * b.extractLsb' 0 32) (a.extractLsb' 32 32)

/-- hl.str (R376): the entries that fit, and the word goes on with the rest when the queue has room. -/
def execHlStr (o : HlOps) (s : State) : Out :=
  s.halDo (o.d == 0 && o.x.extractLsb' 3 5 == 0 && o.y == 0) (fun c x h t =>
    let q := (o.x.extractLsb' 0 3).toNat
    let g := t.grp h.owner
    if !g.desc.qmap.getLsbD q then t.illegal
    else
      let old := g.oq.get [] q
      let n := min (16 - old.length) (o.imm.toNat - h.pushed)
      let new := (List.range n).map (fun i => strEntry (h.reg o.a) (h.reg o.b) (h.pushed + i))
      let u := t.modGrp h.owner (fun y => { y with oq := y.oq.put q (old ++ new) })
      if h.pushed + n < o.imm.toNat then u.setHal c x { h with pushed := h.pushed + n } else u.setHal c x { h with pushed := 0 }.next)

/-! Emission (R377). -/

/-- How a row is issued: its shape, its checks and the registers it holds. -/
structure Issue where
  shape : CmdShape
  legal : State → Nat → List W64 → Bool
  held : List W64 → List Nat

/-- The rows that a template may name (R377). -/
def issueOf (i : Instr) : Option Issue :=
  match i with
  | .copy o | .copyLbl o => some { shape := copyShape 4 3 2 1, legal := legalCopy o, held := noHeld }
  | .copyScl o => some { shape := copyShape 4 3 2 1, legal := legalScl o, held := noHeld }
  | .fill o => some { shape := copyShape 4 3 2 1, legal := legalFill o, held := noHeld }
  | .put o | .get o => some { shape := copyShape 5 4 2 1, legal := legalPut o, held := noHeld }
  | .signal o => some { shape := copyShape 5 4 1 1, legal := legalSignal o, held := noHeld }
  | .mma o | .mmaz o => some { shape := matrixShape 2 4, legal := legalMma false o, held := heldMma false }
  | .mma2 o | .mma2z o => some { shape := matrixShape 2 4, legal := legalMma true o, held := heldMma true }
  | .relld o => some { shape := matrixShape 1 1, legal := legalRelld o, held := noHeld }
  | .tokToM o | .tokToV o | .accz o => some { shape := matrixShape 1 0, legal := legalTok o, held := noHeld }
  | .acclblStore o | .acclblLoad o => some { shape := matrixShape 1 1, legal := legalAcclbl o, held := noHeld }
  | .tfset o => some { shape := matrixShape 1 0, legal := legalTfset o, held := noHeld }
  | .tfsum o => some { shape := matrixShape 2 4, legal := legalTfsum o, held := noHeld }
  | .rsload o => some { shape := gleanShape 1 1, legal := legalRelld o, held := noHeld }
  | .gldesc o => some { shape := gleanShape 1 1, legal := legalGldesc o, held := noHeld }
  | .glinv o => some { shape := gleanShape 0 0, legal := legalGlinv o, held := noHeld }
  | .thresh o => some { shape := { queue := 3, na := 2, nb := 1 }, legal := legalThresh o, held := noHeld }
  | _ => none

/-- The command word of a template, with the emission guard in its G field (R377). -/
def templateWord (bs : List Byte) (guard : Nat) : W32 := BitVec.ofNat 32 (numAt bs 0 4 + guard * 512)

/-- A template keeps its table: the family, and A, B, G and bytes 5 to 15 zero. -/
def templateOk (bs : List Byte) : Bool :=
  let w := BitVec.ofNat 32 (numAt bs 0 4)
  let op := (w.extractLsb' 26 6).toNat
  (op == 0x30 || op == 0x31 || op == 0x37) && w.extractLsb' 20 6 == 0 && w.extractLsb' 14 6 == 0 && w.extractLsb' 9 5 == 0 && zeroAt bs 5 11

/-- One patch: added to operand `k` (R376). -/
def patch (vals : List W64) (f : BitVec 8) (v : W64) : List W64 :=
  let k := (f.extractLsb' 0 3).toNat
  if f.getLsbD 3 then vals.set k (vals.getD k 0 + v) else vals

/-- A patch field is legal: no other bit, and no operand or register where it is off. -/
def patchOk (f : BitVec 8) (r : BitVec 4) : Bool :=
  f.extractLsb' 4 4 == 0 && (if f.getLsbD 3 then decide ((f.extractLsb' 0 3).toNat < 6) else f == 0 && r == 0)

/-- A fault of a context parks it with ENG 7; its group parks with it if it waits for a command of the context (R232, R372). Without
room for the record the context tries again. -/
def State.parkHal (s : State) (c x : Nat) (h : HalCtx) (va : W64) (cause : Nat) : State :=
  if 64 ≤ (s.frecs.filter (fun r => r.holds && r.core == c && r.kind != 7)).length then s
  else
    let g := s.grp h.owner
    ((s.setHal c x { h with parked := true }).addRecord (.halyard c x) c 5 h.split cause g.slotNo 0 7 va 0 h.pc).parkStuck h.owner

/-- An uncorrectable error met by a context (R238). -/
def State.checkHal (s : State) (c : Nat) (h : HalCtx) (pa : Nat) (va : W64) : State :=
  let g := s.grp h.owner
  (s.noteCheck pa va.toNat h.pc.toNat c g.slotNo 0xFF).fatal h.owner 0x19 h.pc 0 (BitVec.ofNat 64 pa) (16 + h.split)

/-- Commands that the context has emitted and that have not completed. -/
def State.emitted (s : State) (c x : Nat) (h : HalCtx) : List Cmd :=
  (s.core c).queues.flatMap (fun q => q.2.filter (fun m => m.ctx == some x && m.group == h.owner))

/-- The queue of the follower core that a paired command also enters (R320). -/
def State.pairQueue (s : State) (g : Nat) (i : Instr) : Option Nat :=
  match i with
  | .mma2 _ | .mma2z _ => (s.grp g).follower
  | _ => none

/-- Emits a command: it stalls without a permit, behind an ACQ of the context, or at a full queue or counter, and is checked as if the
owning group had issued it (R268, R374, R377). -/
def State.emitCmd (s : State) (c x : Nat) (h : HalCtx) (row : Instr) (o : SeOps) (u : Issue) (vals : List W64) (pops : BitVec 8) : State :=
  let g := h.owner
  let q := u.shape.queue
  if !seLegal o u.shape.maxScope || !u.legal s g vals then s.illegal
  else if (s.emitted c x h).any (fun m => acqOf m.row) then s
  else if h.grants.get 64 q ≤ s.permitsUsed c x q then s
  else if (s.grp g).counterFull (some u.shape.ctr) || decide (16 ≤ (s.queue c q).length) then s
  else if (u.held vals).any (fun r => s.regAwaited g h.split r) then s
  else
    match s.pairQueue g row with
    | some f =>
      if 16 ≤ (s.queue f 1).length then s
      else
        let t := (s.enterCmd g h.split q u.shape.ctr row vals h.pc (some x) pops (some h.since) (u.held vals)).setHal c x h.next
        match (t.queue c q).getLast? with
        | some m => t.pushCmd f 1 { m with ctx := none }
        | none => t
    | none => (s.enterCmd g h.split q u.shape.ctr row vals h.pc (some x) pops (some h.since) (u.held vals)).setHal c x h.next

/-- hl.emit (R376, R377). -/
def execHlEmit (o : HlOps) (s : State) : Out :=
  s.halDo (o.imm == 0 && patchOk o.x o.b && patchOk o.y o.d) (fun c x h t =>
    let at0 := h.reg o.a
    if at0.extractLsb' 0 6 ≠ 0 then t.illegal
    else
      match t.readVirt (some c) { r := true } at0 64 with
      | (u, .fault va k) => u.parkHal c x h va k
      | (u, .check pa va) => u.checkHal c h pa va
      | (u, .ok bs) =>
        if !templateOk bs then u.illegal
        else
          match (decodeScalar (templateWord bs h.guard)).toOption with
          | none => u.illegal
          | some row =>
            match issueOf row, seOpsOf row with
            | some i, some e =>
              let vals := (List.range 6).map (fun k => BitVec.ofNat 64 (numAt bs (0x10 + 8 * k) 8))
              u.emitCmd c x h row e i (patch (patch vals o.x (h.reg o.b)) o.y (h.reg o.d)) (BitVec.ofNat 8 (numAt bs 4 1))
            | _, _ => u.illegal)

/-! The other words. -/

/-- OP 6, by its RES bit (R376). -/
def State.halGuard (s : State) (o : HlOps) : Out :=
  let k := (o.x.extractLsb' 0 5).toNat
  let base := o.d == 0 && o.b == 0 && o.x.extractLsb' 5 3 == 0 && o.y.extractLsb' 1 7 == 0 && o.imm == 0
  if o.y.getLsbD 0 then
    s.halDo (base && decide (k < 16)) (fun c x h t => (t.setGuard h.owner k (h.reg o.a != 0)).setHal c x h.next)
  else s.halReg (base && o.a == 0 && (decide (k < 16) || k == 31)) (fun h => { h with guard := k }.next)

/-- hl.guard (R376). -/
def execHlGuard (o : HlOps) (s : State) : Out := s.halGuard o
/-- hl.guard.res (R376). -/
def execHlGuardRes (o : HlOps) (s : State) : Out := s.halGuard o

/-- What a context's release covers has been performed: the group's accesses and clauses before its HSTART, and the commands that it has
emitted (R159, R253, R268). -/
def State.halReleased (s : State) (c x : Nat) (h : HalCtx) : Bool :=
  (s.emitted c x h).isEmpty && (s.grp h.owner).doneBefore (fun _ => true) h.since

/-- OP 7, by its kind (R376). -/
def State.halBar (s : State) (o : HlOps) : Out :=
  let n := (o.x.extractLsb' 0 7).toNat
  let kind := (o.y.extractLsb' 1 2).toNat
  let legal := o.d == 0 && o.b == 0 && o.imm == 0 && !o.x.getLsbD 7 && o.y.extractLsb' 3 5 == 0 && decide (kind < 2) && (kind == 0 || o.a == 0)
  s.halDo legal (fun c x h t =>
    let owner := (t.grp h.owner).barCore ((o.y.extractLsb' 0 1).toNat + 1)
    if kind = 0 then (t.expectBytes owner n ((h.reg o.a).setWidth 32)).setHal c x h.next
    else if t.halReleased c x h then (t.arrive owner n).setHal c x h.next
    else t)

/-- hl.bar.expect (R376). -/
def execHlBarExpect (o : HlOps) (s : State) : Out := s.halBar o
/-- hl.bar.arrive (R376). -/
def execHlBarArrive (o : HlOps) (s : State) : Out := s.halBar o

/-- hl.end (R376). -/
def execHlEnd (o : HlOps) (s : State) : Out :=
  s.halReg (o.d == 0 && o.a == 0 && o.b == 0 && o.x == 0 && o.y == 0 && o.imm == 0) (fun h => { h with running := false })

end Sys2Proof.Machine
end

