-- ==== Sys2Proof/Machine/Replay.lean ====
section
/-! DEFINITION. Messages of other devices, FAULT_REPLAY and what FQ.KILL does to a record (R234 to R236, R339). -/

namespace Sys2Proof.Machine

/-- The core and queue that hold a command of this device. -/
def State.findCmd (s : State) (id : Nat) : Option (Nat × Nat × Cmd) :=
  (s.cores.flatMap (fun p => p.2.queues.flatMap (fun q => (q.2.filter (fun m => m.id == id)).map (fun m => (p.1, q.1, m))))).head?

/-- Another device answers one of this device's transfers (R234): a write is performed there, or the bytes of a GET's row come and are
written here. -/
def State.answered (s : State) (m : FleetAccess) : State :=
  match s.findCmd m.message with
  | none => s
  | some (c, q, k) =>
    match k.reads.find? (fun p => p.2 == m.va) with
    | none => s
    | some p =>
      let k1 := { k with reads := k.reads.erase p }
      match m.kind with
      | .done => s.setCmd c q k1
      | .data bs =>
        let k2 := { k1 with got := k1.got ++ [(p.1, 0, bs)] }
        if k2.parked then s.setCmd c q k2 else (s.setCmd c q k2).landRows c q k2 k2.got
      | .killed seq => s.fatal k.group 0x1A k.addr 0 seq (16 + k.split)
      | .error pa => s.checkCmd k pa m.va c
      | .write _ | .read _ => s

/-- Writes the runs of a transfer in turn. -/
def State.writeRuns (s : State) (runs : List (W64 × List Byte)) : State × GRead Unit :=
  match runs with
  | [] => (s, .ok ())
  | (va, bs) :: rest =>
    match s.writeVirt none none va bs with
    | (t, .ok ()) => t.writeRuns rest
    | (t, .fault a c) => (t, .fault a c)
    | (t, .check pa a) => (t, .check pa a)

/-- A transfer of another device, performed here (R234): a write is acknowledged, a read answered. -/
def State.serveRemote (s : State) (m : FleetAccess) : State × GRead Unit :=
  match m.kind with
  | .write runs =>
    match s.writeRuns runs with
    | (t, .ok ()) => (t.send m.source m.message (.done m.va), .ok ())
    | (t, .fault a c) => (t, .fault a c)
    | (t, .check pa a) => (t, .check pa a)
  | .read n =>
    match s.readVirt none { r := true, egress := true } m.va n with
    | (t, .ok bs) => (t.send m.source m.message (.data m.va bs), .ok ())
    | (t, .fault a c) => (t, .fault a c)
    | (t, .check pa a) => (t, .check pa a)
  | .data _ | .done | .killed _ | .error _ => (s.answered m, .ok ())

/-- What a transfer of another device needs of a leaf. -/
def fleetNeed (k : FleetKind) : Need :=
  match k with
  | .write _ => { w := true }
  | .read _ | .data _ | .done | .killed _ | .error _ => { r := true, egress := true }

/-- A read that met a marked page is a refused egress (R435). -/
def State.farRefused (s : State) (m : FleetAccess) (va : W64) (cause : Nat) : State :=
  match m.kind with
  | .read _ => s.egressFault none va cause 2 m.source
  | .write _ | .data _ | .done | .killed _ | .error _ => s

/-- FLEET_ACCESS_ARRIVAL: a fault on this device enters its queue with KIND 7, and the whole transfer is performed again at its replay
(R234; log 33). An uncorrectable error is journalled here, and ends the command of the device that issued it (R238). -/
def State.fleetArrival (s : State) (m : FleetAccess) : State :=
  match s.serveRemote m with
  | (t, .ok ()) => t
  | (t, .fault va c) => (t.farRefused m va c).addRecord (.remote m) (m.source % 256) 7 0 c 0 0 0 va 0 0
  | (t, .check pa va) => (t.noteCheck pa va.toNat 0 0xFF 0xFF 0xFF).send m.source m.message (.error m.va pa)

/-- FLEET_ACCESS_ARRIVAL (R234). -/
def execFleetAccessArrival (m : FleetAccess) (s : State) : Out := s.eventDo (fun t => t.fleetArrival m)

/-- The device that the command reads for: a PUT that has its records (R339, R435). -/
def State.farRead (s : State) (c q id : Nat) : Option Nat :=
  ((s.queue c q).find? (fun m => m.id == id)).bind (fun m => match m.row, recPair m.recs with
    | .put _, some (_, b) => if s.ownDevice b.dev then none else some b.dev
    | _, _ => none)

/-- FAULT_REPLAY of a resolved record whose turn has come (R235). -/
def State.replayRecord (s : State) (id : Nat) : State :=
  match s.frecs.find? (fun r => r.id == id && r.resolved && r.holds) with
  | none => s
  | some r =>
    if s.heldInOrder r then s
    else
      match r.owner with
      | .access g _ acc =>
        if !(s.grp g).replays then s
        else
          match (s.grp g).acc.find? (fun a => a.id == acc) with
          | none => (s.dropRecord r.id).unpark g
          | some a => replayLanes s g acc r (a.lanes.filter (fun l => l.waiting && (!a.op.isLane || r.lanes.getLsbD l.lane)))
      | .fetch g _ _ => if !(s.grp g).replays then s else s.replayWalk (some (s.grp g).core) r { x := true } (fun t => t.unpark g)
      | .probe g _ => if !(s.grp g).replays then s else s.replayWalk (some (s.grp g).core) r { r := true } (fun t => t.unpark g)
      | .engine c q n =>
        let far := s.farRead c q n
        s.replayWalk (some c) r (if r.kind = 6 then { w := true } else { r := true, egress := far.isSome }) (fun t => t.resumeCmd c q n)
          (fun t k => match far with
            | some dev => t.egressFault (some c) r.va k 1 dev
            | none => t)
      | .halyard c x =>
        let h := (s.core c).hal.get HalCtx.reset x
        s.replayWalk (some c) r (if r.va = h.pc then { x := true } else { r := true }) (fun t =>
          (t.modCore c (fun k => { k with hal := k.hal.put x { h with parked := false } })).unpark h.owner)
      | .remote m => s.replayWalk none r (fleetNeed m.kind) (fun t => t.fleetArrival m) (fun t k => t.farRefused m r.va k)
      | .save g => if !(s.grp g).st.resident then s else s.replayWalk (some r.core) r { w := true } (fun t => t)
      | .restore g =>
        if (s.grp g).away && (s.grp g).st == .parked then s.replayWalk (some r.core) r { r := true } (fun t => t) else s

/-- FAULT_REPLAY (R235). -/
def execFaultReplay (rec : Nat) (s : State) : Out := s.eventDo (fun t => t.replayRecord rec)

/-- FQ.KILL's effect: the record of R272 with the killed entry's address, lane mask and number, and the launch ends (R236). A remote
transfer ends here, and the device that issued it is told (R234). -/
def State.killRecord (s : State) (r : FRec) : State :=
  match s.ownerGroup r.owner with
  | some g => s.fatal g 0x1A r.addr r.lanes r.seq (r.split + (if r.kind = 5 ∨ r.kind = 6 then 16 else 0))
  | none =>
    match r.owner with
    | .remote m => (s.dropRecord r.id).send m.source m.message (.killed m.va r.seq)
    | .access _ _ _ | .fetch _ _ _ | .probe _ _ | .engine _ _ _ | .halyard _ _ | .save _ | .restore _ => s.dropRecord r.id

end Sys2Proof.Machine
end

