-- ==== Sys2Proof/Machine/Supervisor.lean ====
section
/-! DEFINITION. The supervisor family but for CAP.CTL: PTE.W, TLBI, the fault queue, SAIL.W and CORE.CTL (R166, R235, R236, R352). -/

namespace Sys2Proof.Machine

/-- A supervisor request that fails goes on with SERR set (R166). -/
def State.failed (s : State) (k : Nat) (code : W64) : State := (s.setSerr k code).advance

/-- PTE.W (R166, R237). -/
def execPteW (a b : BitVec 6) (s : State) : Out :=
  s.serviceDo (fun k t =>
    let pa := (t.sreg a).toNat
    if pa % 8 ≠ 0 ∨ 0x5FFFFFFFF8 < pa then t.failed k 0x01 else (t.hbmPut none pa 8 (t.sreg b).toNat).advance)

/-- TLBI (R166, R226): a core, or every core and the I/O die. -/
def execTlbi (a b : BitVec 6) (s : State) : Out :=
  s.serviceDo (fun k t =>
    let c := (t.sreg b).toNat
    if c = 0xFFFF then (t.invalidateAll (t.sreg a)).advance
    else if 191 < c then t.failed k 0x02
    else (t.invalidate (some c) (t.sreg a)).advance)

/-- A fault or an error of a service core's own access (R425). -/
def State.serviceReach {α : Type} (s : State) (r : GRead α) : State :=
  match r with
  | .ok _ => s
  | .fault va _ => s.takeTrap 0x20 0 va
  | .check pa va => (s.noteCheck pa va.toNat s.pc.toNat 0xFF 0xFF 0xFF).takeTrap 0x19 0 (BitVec.ofNat 64 pa)

/-- FQ.POP (R166): the oldest entry's bytes move to VA s[A]; it leaves the queue only once they are written. -/
def execFqPop (a b : BitVec 6) (s : State) : Out :=
  s.serviceDo (fun _ t =>
    match t.oldest with
    | none => (t.setSreg b 0).advance
    | some r =>
      if t.hbmBadIn (t.fqSlot r.seq) 32 then t.serviceReach (GRead.check (α := Unit) (t.fqSlot r.seq) 0) else
      match t.writeVirt none none (t.sreg a) (t.hbmRead (t.fqSlot r.seq) 32) with
      | (u, .ok ()) => ((u.popEntry r.id).setSreg b 1).advance
      | (u, f) => u.serviceReach f)

/-- FQ.RES (R166, R235). -/
def execFqRes (a : BitVec 6) (s : State) : Out :=
  s.serviceDo (fun k t =>
    match t.liveRecord (t.sreg a) with
    | none => t.failed k 0x03
    | some r => ({ t with frecs := t.frecs.map (fun q => if q.id = r.id then { q with resolved := true } else q) } : State).advance)

/-- FQ.KILL (R166, R236). -/
def execFqKill (a : BitVec 6) (s : State) : Out :=
  s.serviceDo (fun k t =>
    match t.liveRecord (t.sreg a) with
    | none => t.failed k 0x03
    | some r => (t.killRecord r).advance)

/-- The image of a sail-plan entry, when R352 allows it. -/
def sailOf (bs : List Byte) (now : Nat) : Option SailEntry :=
  let f := numAt bs 0x0B 1
  if numAt bs 0x0A 1 > 63 ∨ f / 16 % 4 = 3 ∨ f / 8 % 2 = 1 ∨ numAt bs 0x1C 4 ≠ 0 then none
  else
    some { offset := BitVec.ofNat 64 (numAt bs 0 8), graph := numAt bs 8 2, stream := numAt bs 0x0A 1, valid := f / 128 == 1,
           noarg := f / 64 % 2 == 1, policy := f / 16 % 4, prio := f % 8, deadline := numAt bs 0x0C 4,
           arg := BitVec.ofNat 64 (numAt bs 0x10 8), skips := 0, written := now, lastDue := none }

/-- SAIL.W (R166, R352). -/
def execSailW (a b : BitVec 6) (s : State) : Out :=
  s.serviceDo (fun k t =>
    if 4095 < (t.sreg a).toNat then t.failed k 0x05
    else
      match t.readVirt none { r := true } (t.sreg b) 32 with
      | (u, .ok bs) =>
        match sailOf bs u.time with
        | none => u.failed k 0x05
        | some e =>
          let n := (t.sreg a).toNat
          ({ u with sail := u.sail.put n { e with lastDue := (u.sail.get SailEntry.reset n).lastDue } } : State).advance
      | (u, f) => u.serviceReach f)

/-- What a reset leaves of a core: exactly what the manual gives a value at core reset (log 26). -/
def Core.afterReset (k : Core) : Core :=
  { k with bars := [], rels := [], rings := [], landing := [], gdescs := [], binds := [], tags := [], hal := [], cycle := 0 }

/-- CORE.CTL's commands on one core (R166). -/
def Core.control (cmd : Nat) (k : Core) : Core :=
  match cmd with
  | 0 => { k with halted := true }
  | 1 => { k with halted := false }
  | _ => k.afterReset

/-- CORE.CTL, by its command in s[B] (R166). -/
def State.coreCtl (s : State) (a b : BitVec 6) : Out :=
  s.serviceDo (fun k t =>
    let c := (t.sreg a).toNat
    let cmd := (t.sreg b).toNat
    if 2 < cmd then t.failed k 0x06
    else if c = 0xFFFF then ((List.range 192).foldl (fun u i => u.modCore i (Core.control cmd)) t).advance
    else if 191 < c then t.failed k 0x06
    else (t.modCore c (Core.control cmd)).advance)

/-- CORE.CTL halt (R166; log 6). -/
def execCoreCtlHalt (a b : BitVec 6) (s : State) : Out := s.coreCtl a b
/-- CORE.CTL resume (R166; log 6). -/
def execCoreCtlResume (a b : BitVec 6) (s : State) : Out := s.coreCtl a b
/-- CORE.CTL reset (R166; log 6). -/
def execCoreCtlReset (a b : BitVec 6) (s : State) : Out := s.coreCtl a b

end Sys2Proof.Machine
end

