-- ==== Sys2Proof/Machine/Images.lean ====
section
/-! DEFINITION. What the Capstan reads of a kernel and of a graph image, and its checks: descriptors, dictionaries and graphs (R106,
R120, R132, R281, R355 to R358). -/

namespace Sys2Proof.Machine

/-! The kernel descriptor (R132). -/

def inRange (lo hi v : Nat) : Bool := decide (lo ≤ v) && decide (v ≤ hi)

/-- The descriptor that 64 bytes hold, when its fields are in the ranges of R120 (R132). -/
def kdescOf (bs : List Byte) : Option KDesc :=
  let f := fun o n => numAt bs o n
  let w := f 4 1
  if f 0 4 == 0x4B444553 && (w == 16 || w == 32 || w == 64) && inRange 1 64 (f 5 1) && decide (1 ≤ f 6 1) && decide (1 ≤ f 7 1) &&
      decide (f 6 1 * f 7 1 ≤ 12) && decide (f 8 2 ≤ 640) && f 8 2 % 8 == 0 && decide (f 0x0A 1 ≤ 8) && decide (f 0x0C 2 ≤ 1023) &&
      f 0x0E 2 == 0 && f 0x38 4 % 4096 == 0 && decide (f 0x38 4 ≤ 2097152) && f 0x3C 4 == 0 then
    some { w := w, t := f 5 1, cw := f 6 1, ch := f 7 1, gcount := f 8 2, accn := f 0x0A 1, qmap := BitVec.ofNat 8 (f 0x0B 1),
           dcount := f 0x0C 2, entry := BitVec.ofNat 64 (f 0x10 8), lcb := BitVec.ofNat 64 (f 0x18 8),
           dict := BitVec.ofNat 64 (f 0x20 8), utvec := BitVec.ofNat 64 (f 0x28 8), hcb := BitVec.ofNat 64 (f 0x30 8), spad := f 0x38 4 }
  else none

/-- An address that lies in a mapped executable page (R132); a walk that meets an uncorrectable error is journalled (R238). -/
def State.executable (s : State) (va : W64) : State × Bool :=
  match (s.translate none va { x := true }).2 with
  | .ok _ => (s, true)
  | .fault _ => (s, false)
  | .check pa => (s.deviceCheck pa, false)

/-- Reads and checks a kernel descriptor (R132). -/
def State.readKdesc (s : State) (va : W64) : State × Option KDesc :=
  match s.readNoted va 64 with
  | (t, .ok bs) =>
    match kdescOf bs with
    | some d =>
      let a := t.executable d.entry
      let b := a.1.executable d.lcb
      (b.1, if a.2 && b.2 then some d else none)
    | none => (t, none)
  | (t, _) => (t, none)

/-- The size of a forced save (R281). -/
def KDesc.saveSize (d : KDesc) : Nat := 9856 + roundUp (d.gcount * d.w * 4) 64 + roundUp (d.accn * 66080) 64 + roundUp d.spad 64

/-- A team fits on an empty core, and its cluster on an empty die (R26, R29): T groups are spread evenly over four sectors. -/
def KDesc.fits (d : KDesc) : Bool :=
  decide ((d.t + 3) / 4 * (d.gcount * d.w * 4) ≤ 786432) && decide (d.cw ≤ 8) && decide (d.ch ≤ 12)

/-! The dictionary (R106). -/

/-- One record: its first 64 bits and LIT; only L64 and L96 codes may stand in it. -/
def dictRecord (bs : List Byte) : Option (W64 × W32) :=
  let c := numAt bs 0 1 % 4
  if c = 3 ∨ (c = 2 ∧ numAt bs 8 4 = 0) then some (BitVec.ofNat 64 (numAt bs 0 8), BitVec.ofNat 32 (numAt bs 8 4)) else none

/-- The records of a dictionary; none where one is bad. -/
def dictOf (n : Nat) (bs : List Byte) : Option (List (W64 × W32)) :=
  match n with
  | 0 => some []
  | k + 1 =>
    match dictRecord bs, dictOf k (bs.drop 12) with
    | some r, some l => some (r :: l)
    | _, _ => none

/-- Reads and checks the dictionary of a kernel. -/
def State.readDict (s : State) (d : KDesc) : State × Option (List (W64 × W32)) :=
  match s.readNoted d.dict (12 * d.dcount) with
  | (t, .ok bs) => (t, dictOf d.dcount bs)
  | (t, _) => (t, none)

/-! Graph images (R355 to R357). -/

/-- The fields of a node record (R356). -/
def nodeOf (bs : List Byte) : Node :=
  let f := fun o n => numAt bs o n
  { kind := f 0 1, prio := BitVec.ofNat 8 (f 1 1), npred := f 2 2, nsucc := f 4 2, maxgrp := f 6 2, succ := f 8 4,
    kdesc := BitVec.ofNat 64 (f 0x10 8), clusters := f 0x18 4, ctxBase := BitVec.ofNat 64 (f 0x20 8),
    ctxStride := BitVec.ofNat 64 (f 0x28 8), rsize := f 0x30 1, count := f 0x31 1, depth := f 0x32 1, timer := f 0x34 4,
    pool := BitVec.ofNat 64 (f 0x38 8), pages := f 0x40 4, args := (List.range 15).map (fun i => BitVec.ofNat 64 (f (0x48 + 8 * i) 8)) }

/-- The fields that a node record leaves unused are zero (R356). -/
def nodeZeros (n : Node) (bs : List Byte) : Bool :=
  let f := fun o k => numAt bs o k
  let always := f 0x0C 4 == 0 && f 0x1C 4 == 0 && f 0x33 1 == 0 && f 0x44 4 == 0 && n.prio.toNat / 16 == 0
  let runs := n.kind == 1 || n.kind == 2
  always && (n.kind == 2 || (n.maxgrp == 0 && n.rsize == 0 && n.count == 0 && n.depth == 0)) &&
    (n.kind == 1 || n.clusters == 0) && (n.kind == 2 || n.kind == 3 || (n.timer == 0 && n.pool == 0 && n.pages == 0)) &&
    (runs || (n.kdesc == 0 && n.ctxBase == 0 && n.ctxStride == 0 && n.args.all (· == 0)))

/-- The record is inside R356. -/
def nodeOk (n : Node) (bs : List Byte) (ecount : Nat) : Bool :=
  nodeZeros n bs && decide (n.kind ≤ 3) && decide (n.succ + n.nsucc ≤ ecount) &&
    (n.kind != 1 || decide (1 ≤ n.clusters)) &&
    (n.kind != 2 || (inRange 1 1024 n.maxgrp && inRange 1 16 n.rsize && decide (1 ≤ n.count) && decide (n.depth ≤ 15) &&
      n.pool.toNat % 4096 == 0 && decide (1 ≤ n.pages))) &&
    (n.kind != 3 || (n.pool.toNat % 8 == 0 && decide (1 ≤ n.pages)))

/-- First and last node of a LOOP node's body (R356). -/
def Node.bfirst (n : Node) : Nat := n.timer % 65536
def Node.blast (n : Node) : Nat := n.timer / 65536

def Graph.node (g : Graph) (k : Nat) : Option Node := g.nodes[k]?
def Graph.succs (g : Graph) (k : Nat) : List Nat := ((g.nodes[k]?).map (fun n => (g.edges.drop n.succ).take n.nsucc)).getD []

/-- The LOOP nodes whose body holds node `k`. -/
def Graph.loopsOf (g : Graph) (k : Nat) : List Nat :=
  (List.range g.nodes.length).filter (fun i => ((g.nodes[i]?).map (·.bodyHas k)).getD false)

/-- The body of LOOP node `k` keeps R357: it lies inside the graph, it does not hold the loop node, and it is nested in or disjoint from
every other body; no node in it stands in more than four bodies (log 112). -/
def Graph.bodyOk (g : Graph) (k : Nat) (n : Node) : Bool :=
  decide (n.bfirst ≤ n.blast) && decide (n.blast < g.nodes.length) && !n.bodyHas k &&
    (List.range g.nodes.length).all (fun i => match g.nodes[i]? with
      | some m => m.kind != 3 || i == k || decide (m.blast < n.bfirst) || decide (n.blast < m.bfirst) ||
          (decide (n.bfirst ≤ m.bfirst) && decide (m.blast ≤ n.blast)) || (decide (m.bfirst ≤ n.bfirst) && decide (n.blast ≤ m.blast))
      | none => true) &&
    (List.range g.nodes.length).all (fun i => !n.bodyHas i || decide ((g.loopsOf i).length ≤ 4))

/-- The nodes that some of `l` reach, `fuel` edges far. -/
def Graph.reach (g : Graph) (fuel : Nat) (l : List Nat) : List Nat :=
  match fuel with
  | 0 => l
  | f + 1 =>
    let new := (l.flatMap g.succs).foldl (fun m k => if m.contains k then m else m ++ [k]) l
    if new.length = l.length then l else g.reach f new

/-- Node `k` breaks a rule of R355 to R357: its successors exist and stand in the same bodies, no path leads from it to itself, its body is
right, and outside all bodies it reaches the END node, which has no successors. -/
def Graph.nodeFault (g : Graph) (k : Nat) (n : Node) : Bool :=
  let succs := g.succs k
  !(succs.all (fun j => decide (j < g.nodes.length) && g.loopsOf j == g.loopsOf k)) ||
    (g.reach g.nodes.length succs).contains k || (n.kind == 3 && !g.bodyOk k n) ||
    ((g.loopsOf k).isEmpty && k != g.endNode && !(g.reach g.nodes.length succs).contains g.endNode) ||
    (k == g.endNode && n.nsucc != 0)

/-- What R355 asks of the header: the count of nodes, the arrays' places, and END. -/
def headerGraphOk (bs : List Byte) : Bool :=
  let f := fun o n => numAt bs o n
  f 0 4 == 0x4B474731 && f 4 2 == 1 && inRange 1 4096 (f 6 2) && f 0x0C 4 == 0 && f 0x10 8 % 64 == 0 && f 0x18 8 % 2 == 0 &&
    decide (f 0x20 2 < f 6 2) && (bs.drop 0x22).take 30 == List.replicate 30 0

/-- A STAGE node's descriptor suits it (R358). -/
def stageSuits (n : Node) (d : KDesc) : Bool :=
  n.kind != 2 || (d.t == 1 && d.cw == 1 && d.ch == 1 && d.gcount != 0 && decide (n.count ≤ d.w))

/-- The context areas are large enough (R281, R358): the stride covers the forced save, with MAXGRP areas for a STAGE node. -/
def strideOk (n : Node) (d : KDesc) : Bool := decide (d.saveSize ≤ n.ctxStride.toNat)

/-- The kernel of a node suits it (R132, R281, R358). -/
def State.kernelOk (s : State) (n : Node) : State × Bool :=
  if n.kind = 1 ∨ n.kind = 2 then
    match s.readKdesc n.kdesc with
    | (t, some d) => (t, stageSuits n d && strideOk n d)
    | (t, none) => (t, false)
  else (s, true)

/-- The first node whose record, place in the graph or kernel LOAD refuses (R358). -/
def State.badNode (s : State) (g : Graph) (recs : List (List Byte)) (ecount k : Nat) (ns : List Node) : State × Option Nat :=
  match ns with
  | [] => (s, none)
  | n :: rest =>
    if !(nodeOk n (recs.getD k []) ecount && ((n.kind == 0) == (k == g.endNode)) && !g.nodeFault k n) then (s, some k)
    else
      match s.kernelOk n with
      | (t, true) => t.badNode g recs ecount (k + 1) rest
      | (t, false) => (t, some k)

/-- The STAGE nodes of a graph. -/
def Graph.stages (g : Graph) : Nat := (g.nodes.filter (fun n => n.kind == 2)).length

/-- The graph store has room (R358): 256 graphs, 65,536 nodes, 1,024 stage bins. -/
def State.graphRoom (s : State) (g : Graph) : Bool :=
  decide (s.graphs.length < 256) &&
    decide ((s.graphs.foldl (fun n p => n + p.2.nodes.length) 0) + g.nodes.length ≤ 65536) &&
    decide ((s.graphs.foldl (fun n p => n + p.2.stages) 0) + g.stages ≤ 1024)

/-- The end of reading a graph image. -/
inductive GraphRead where
  | ok (g : Graph) (image : List Byte)
  /-- Refused, naming a node (0 where the header is at fault). -/
  | refused (node : Nat)
  deriving DecidableEq, Repr

/-- Reads a graph image at a virtual address and checks it (R355 to R358). -/
def State.readGraph (s : State) (va : W64) : State × GraphRead :=
  match s.readNoted va 64 with
  | (t, .ok hb) =>
    if !headerGraphOk hb then (t, .refused 0)
    else
      let nc := numAt hb 6 2
      let ec := numAt hb 8 4
      let nodeVa := va + BitVec.ofNat 64 (numAt hb 0x10 8)
      let edgeVa := va + BitVec.ofNat 64 (numAt hb 0x18 8)
      match t.readNoted nodeVa (192 * nc) with
      | (u, .ok nb) =>
        match u.readNoted edgeVa (2 * ec) with
        | (v, .ok eb) =>
          let recs := (List.range nc).map (fun k => (nb.drop (192 * k)).take 192)
          let g : Graph := { nodes := recs.map nodeOf, edges := (List.range ec).map (fun i => numAt eb (2 * i) 2),
                             endNode := numAt hb 0x20 2 }
          match v.badNode g recs ec 0 g.nodes with
          | (w, some k) => (w, .refused k)
          | (w, none) => (w, .ok g (hb ++ nb ++ eb))
        | (v, _) => (v, .refused 0)
      | (u, _) => (u, .refused 0)
  | (t, _) => (t, .refused 0)

/-- Puts a graph into the store under its lowest free id (R358). -/
def State.storeGraph (s : State) (g : Graph) : State × Nat :=
  let id := ((List.range 256).find? (fun i => (s.graphs.find i).isNone)).getD 0
  ({ s with graphs := s.graphs.put id g }, id)

end Sys2Proof.Machine
end

