-- ==== Sys2Proof/Machine/Nodes.lean ====
section
/-! DEFINITION. Stage records and the completion of nodes (R345 to R347, R359 to R363, R365, R367). -/

namespace Sys2Proof.Machine

/-! RECPUT's records (R345, R365, R367). -/

/-- The slots of a pool. -/
def Node.perPage (n : Node) : Nat := 4096 / (16 * n.rsize)
def Node.poolSlots (n : Node) : Nat := n.pages * n.perPage

/-- The next slot of a pool: from the one after the last allocated, wrapping, past those still held (R345). -/
def nextSlotOf (n : Node) (m : NodeSt) : Option Nat :=
  ((List.range n.poolSlots).map (fun i => (m.nextSlot + i) % n.poolSlots)).find? (fun k => !m.held.contains k)

/-- The address of a slot (R365). -/
def Node.slotVa (n : Node) (k : Nat) : W64 := n.pool + BitVec.ofNat 64 (k / n.perPage * 4096 + k % n.perPage * 16 * n.rsize)

/-- What a RECPUT has done so far: the records to enter, by node, each lane's status, and the node whose pool could not be written. -/
structure PutRun where
  entries : List (Nat × Rec)
  status : List (Nat × Nat)
  failed : Option Nat
  deriving DecidableEq, Repr

/-- One lane of a RECPUT (R367). -/
def State.putLane (s : State) (r : Nat) (x : Run) (depth : Nat) (p : PutRun) (l : LaneAcc) : State × PutRun :=
  let k := (l.cmp.headD 0).toNat
  let say := fun (st : Nat) => { p with status := p.status ++ [(l.lane, st)] }
  match s.node x.graph k with
  | none => (s, say 3)
  | some n =>
    let m := ((s.run r).getD x).nodeSt k
    if n.kind ≠ 2 ∨ m.done then (s, say 3)
    else if n.depth < depth then (s, say 2)
    else
      match nextSlotOf n m with
      | none => (s, say 1)
      | some slot =>
        let bytes := (List.range 4).flatMap (fun i => leBytes 4 (l.data.getD i 0).toNat) ++ List.replicate (16 * n.rsize - 16) 0
        match s.writeVirt none none (n.slotVa slot) bytes with
        | (t, .ok ()) =>
          (t.modNode r k (fun y => { y with nextSlot := (slot + 1) % n.poolSlots, held := y.held ++ [slot] }),
           { (say 0) with entries := p.entries ++ [(k, { slot := slot, depth := depth, entered := t.clock })] })
        | (t, .check pa va) => (t.noteCheck pa va.toNat 0 0xFF 0xFF 0xFF, { p with failed := some k })
        | (t, .fault _ _) => (t, { p with failed := some k })

/-- Every lane of a RECPUT, ascending, until a pool write fails. -/
def putLanes (s : State) (r : Nat) (x : Run) (depth : Nat) (p : PutRun) (ls : List LaneAcc) : State × PutRun :=
  match ls with
  | [] => (s, p)
  | l :: rest =>
    match s.putLane r x depth p l with
    | (t, q) => if q.failed.isSome then (t, q) else putLanes t r x depth q rest

/-- The records enter their bins together, and the bins are to be tested (R345, R346, R360). -/
def State.enterBins (s : State) (r : Nat) (es : List (Nat × Rec)) : State :=
  let s1 := es.foldl (fun t e => t.modNode r e.1 (fun y => { y with bin := y.bin ++ [e.2] })) s
  (es.map (·.1)).foldl (fun t k => t.markBin r k) s1

/-- RECORD_BIN_ENTRY: a RECPUT whose group's earlier accesses are performed writes its records and completes; they enter together (R367). A
fault of the pool is a graph error (R362). -/
def State.binEntry (s : State) (g id : Nat) : State :=
  let x := s.grp g
  match x.acc.find? (fun a => a.id == id), (s.launch x.launch) with
  | some a, some l =>
    (match a.op, s.run l.run with
     | .recput _, some run =>
       if !x.mayPerform a || !x.st.resident then s
       else
         let depth := if l.stage then x.recdepth + 1 else 0
         match putLanes s l.run run depth { entries := [], status := [], failed := none } a.lanes with
         | (t, p) =>
           match p.failed with
           | some k => t.abortRun l.run 1 3 k
           | none =>
             let b := { a with lanes := a.lanes.map (fun j => { j with
               result := some [BitVec.ofNat 32 (((p.status.find? (fun q => q.1 == j.lane)).map (·.2)).getD 0)] }) }
             (t.modGrp g (fun y => y.retire b)).enterBins l.run p.entries
     | _, _ => s)
  | _, _ => s

/-- RECORD_BIN_ENTRY (R367). -/
def execRecordBinEntry (g acc : Nat) (s : State) : Out := s.eventDo (fun t => t.binEntry g acc)

/-- STAGE_TIMER_EXPIRY: the bin is tested, its timer included (R346, R360). -/
def execStageTimerExpiry (run node : Nat) (s : State) : Out := s.eventDo (fun t => t.testBin run node)

/-! Completion (R347, R359, R361). -/

/-- Every group of a launch has been placed and has exited, and its accesses are performed (R347). -/
def State.launchDone (s : State) (l : Nat) (x : Launch) : Bool :=
  decide (x.clusters ≤ x.placed) && s.groups.all (fun p => p.2.launch != l || (p.2.st == .exited && p.2.acc.all Access.performed))

/-- The launches of a node in a run. -/
def State.launchesOf (s : State) (r k : Nat) : List (Nat × Launch) := s.launches.filter (fun p => p.2.run == r && p.2.node == k)

/-- Every node of a loop's body has completed in this pass (R361). -/
def passDone (g : Graph) (x : Run) (k : Nat) : Bool := (g.members (some k)).all (fun b => (x.nodeSt b).done)

/-- LOOP_PASS_END: COND is read; another pass, the loop's completion, or a graph error (R361). A COND that cannot be read is tried again
(log 37). -/
def State.passEnd (s : State) (r k : Nat) (n : Node) (m : NodeSt) : State :=
  match s.readNoted n.pool 8 with
  | (t, .ok bs) =>
    let passes := m.passes + 1
    if numAt bs 0 8 = 0 then t.completeNode r k
    else if n.pages ≤ passes then t.abortRun r 1 1 k
    else
      let u := enqueueNode 5 (t.modNode r k (fun y => { y with passes := passes })) r k
      if u.2 then u.1.endRun r else u.1
  | (t, _) => t

/-- NODE_COMPLETION (R347, R359, R361). -/
def State.nodeComplete (s : State) (r k : Nat) : State :=
  match s.run r with
  | none => s
  | some x =>
    match s.graphs.find x.graph with
    | none => s
    | some g =>
      match g.nodes[k]? with
      | none => s
      | some n =>
        let m := x.nodeSt k
        if !m.enqueued || m.done || !x.st.live then s
        else
          let t :=
            match n.kind with
            | 1 => if (s.launchesOf r k) != [] && (s.launchesOf r k).all (fun p => s.launchDone p.1 p.2) then s.completeNode r k else s
            | 2 => if m.counter = 0 ∧ m.bin = [] ∧ (s.launchesOf r k).all (fun p => s.launchDone p.1 p.2) then s.completeNode r k else s
            | 3 => if passDone g x k then s.passEnd r k n m else s
            | _ => s
          t.trySuspend r

/-- NODE_COMPLETION (R347). -/
def execNodeCompletion (run node : Nat) (s : State) : Out := s.eventDo (fun t => t.nodeComplete run node)

end Sys2Proof.Machine
end

