-- ==== Sys2Proof/Machine/Ecdsa.lean ====
section
/-! DEFINITION. ECDSA over the curve P-256, which the manual names for the identity key's signatures (R438, R442); its definition is that
of FIPS 186-4 (log 20). -/

namespace Sys2Proof.Machine

/-- The field, the order of the base point, the curve's constant b, and the base point. -/
def p256 : Nat := 0xffffffff00000001000000000000000000000000ffffffffffffffffffffffff
def p256Order : Nat := 0xffffffff00000000ffffffffffffffffbce6faada7179e84f3b9cac2fc632551
def p256B : Nat := 0x5ac635d8aa3a93e7b3ebbd55769886bc651d06b0cc53b0f63bce3c3e27d2604b
def p256Base : Nat × Nat :=
  (0x6b17d1f2e12c4247f8bce6e563a440f277037d812deb33a0f4a13945d898c296, 0x4fe342e2fe1a7f9b8ee7eb4a7c0f9e162bce33576b315ececbb6406837bf51f5)

/-- x to the power e modulo m, by the `fuel` low bits of e. -/
def powMod (fuel m x e : Nat) : Nat :=
  match fuel with
  | 0 => 1
  | k + 1 =>
    let r := powMod k m (x * x % m) (e / 2)
    if e % 2 = 1 then r * x % m else r

/-- The inverse modulo a prime. -/
def invMod (m x : Nat) : Nat := powMod 256 m (x % m) (m - 2)

/-- The sum of two points; `none` is the point at infinity. -/
def pointAdd (a b : Option (Nat × Nat)) : Option (Nat × Nat) :=
  match a, b with
  | none, q => q
  | p, none => p
  | some (x, y), some (u, v) =>
    if x = u ∧ (y + v) % p256 = 0 then none
    else
      let l := if x = u then 3 * (x * x + (p256 - 1)) * invMod p256 (2 * y) % p256 else (v + p256 - y) * invMod p256 (u + p256 - x) % p256
      let r := (l * l + 2 * p256 - x - u) % p256
      some (r, (l * (x + p256 - r) + p256 - y) % p256)

/-- k times a point, by the `fuel` low bits of k. -/
def pointMul (fuel k : Nat) (a : Option (Nat × Nat)) : Option (Nat × Nat) :=
  match fuel with
  | 0 => none
  | n + 1 =>
    let r := pointMul n (k / 2) (pointAdd a a)
    if k % 2 = 1 then pointAdd a r else r

/-- A number taken into 1 to the order less one. -/
def inOrder (k : Nat) : Nat := k % (p256Order - 1) + 1

/-- The signature of a digest by the private key `d` with the random number `k`: r and s. -/
def ecdsaPair (d k : Nat) (digest : List Byte) : Nat × Nat :=
  let r := ((pointMul 256 k (some p256Base)).getD (0, 0)).1 % p256Order
  (r, invMod p256Order k * (beNat digest + r * d) % p256Order)

/-- The first signature with neither part 0, from the random numbers of `n` on. -/
def ecdsaFrom (fuel d n i : Nat) (digest : List Byte) : Nat × Nat :=
  let q := ecdsaPair d (inOrder (Config.signNonce n i)) digest
  match fuel with
  | 0 => q
  | k + 1 => if q.1 = 0 ∨ q.2 = 0 then ecdsaFrom k d n (i + 1) digest else q

/-- The identity key pair's private key, from the seed that boot derives (R442). -/
def identityPrivate (seed : List Byte) : Nat := inOrder (Config.identityScalar seed)

/-- The identity public key, X then Y, big-endian (R438). -/
def identityPublic (seed : List Byte) : List Byte :=
  let q := (pointMul 256 (identityPrivate seed) (some p256Base)).getD (0, 0)
  beBytes 32 q.1 ++ beBytes 32 q.2

/-- The signature of a message by the identity key, over its SHA-256, r then s, big-endian (R438, R442); `n` numbers the signature. -/
def identitySign (seed : List Byte) (n : Nat) (m : List Byte) : List Byte :=
  let q := ecdsaFrom 8 (identityPrivate seed) n 0 (sha256 m)
  beBytes 32 q.1 ++ beBytes 32 q.2

end Sys2Proof.Machine
end

