-- ==== Sys2Proof/Machine/Placement.lean ====
section
/-! DEFINITION. Placement: launch errors, the search for a rectangle, and how a group starts (R25 to R30, R49, R62, R68, R75, R105,
R132, R207, R364 to R366). -/

namespace Sys2Proof.Machine

/-! Launch errors (R281, R362, R440). -/

/-- The launch is refused: the journal's entry of KIND 10, and a graph error of its run. -/
def State.refuseLaunch (s : State) (r node reason : Nat) : State :=
  (s.note 10 (leBytes 4 r ++ leBytes 2 node ++ leBytes 1 reason ++ leBytes 1 0)).abortRun r 1 2 node

/-- A dictionary fault (R106): cause 0x13 is reported with zero address, mask and information (R272), and the launch refused. -/
def State.refuseDict (s : State) (l : Launch) : State :=
  (s.report 0 none (trapRecord 0 0 0 0 0x13 0 0 l.gid)).refuseLaunch l.run l.node 4

/-- A launch is checked before any of its groups starts (R29, R106, R132, R281); `none`: it has been refused. -/
def State.checkLaunch (s : State) (k : Nat) (l : Launch) : State × Option Launch :=
  if l.loaded then (s, some l)
  else
    match ((s.run l.run).bind (fun r => s.node r.graph l.node)) with
    | none => (s, none)
    | some n =>
      match s.readKdesc n.kdesc with
      | (t, none) => (t.refuseLaunch l.run l.node 2, none)
      | (t, some d) =>
        if !stageSuits n d then (t.refuseLaunch l.run l.node 2, none)
        else if !d.fits then (t.refuseLaunch l.run l.node 1, none)
        else if l.ctxStride < d.saveSize then (t.refuseLaunch l.run l.node 3, none)
        else
          match t.readDict d with
          | (u, none) => (u.refuseDict l, none)
          | (u, some e) =>
            let l1 := { l with desc := d, loaded := true, dict := e }
            ({ u with launches := u.launches.put k l1 }, some l1)

/-! Free resources of a core. -/

/-- The group holds a place, backing and its team's resources: it is resident, or placed again with its context still to be loaded. -/
def Group.holds (x : Group) : Bool := x.st.resident || (x.st == .saved && x.away)

/-- The groups that a core holds. -/
def State.heldOn (s : State) (c : Nat) : List Group := (s.groups.filter (fun p => p.2.core == c && p.2.holds)).map (·.2)

/-- The backing bytes that a group takes (R29). -/
def KDesc.backing (d : KDesc) : Nat := d.gcount * d.w * 4

/-- The sector with the fewest groups; a tie goes to the lower number (R28). -/
def fewestSector (l : List (Nat × Nat)) : Nat :=
  (argMin (fun k => ((l.filter (fun p => p.1 == k)).length)) [0, 1, 2, 3]).getD 0

/-- The lowest place of a sector that none holds (R28). -/
def lowestPlace (l : List (Nat × Nat)) (k : Nat) : Option Nat := (List.range 16).find? (fun p => !l.contains (k, p))

/-- Sectors and places for `n` groups, one after the other; `taken` are the places held, `used` the backing in use by sector. None
where one does not fit (R28, R29). -/
def placesFor (need : Nat) (n : Nat) (taken : List (Nat × Nat)) (used : Nat → Nat) : Option (List (Nat × Nat)) :=
  match n with
  | 0 => some []
  | k + 1 =>
    let q := fewestSector taken
    match lowestPlace taken q with
    | none => none
    | some p =>
      if 786432 < used q + need then none
      else
        match placesFor need k ((q, p) :: taken) (fun i => if i = q then used i + need else used i) with
        | some l => some ((q, p) :: l)
        | none => none

/-- The tiles that no team owns (R75). -/
def State.freeTiles (s : State) (c : Nat) : List Nat := (List.range 8).filter (fun t => (s.tile c t).owner.isNone)

def DictBank.empty : DictBank := { dict := 0, count := 0, users := [], entries := [] }

/-- The bank for a kernel's dictionary: the one that holds it, or the lowest free one (R105). -/
def State.bankFor (s : State) (c : Nat) (d : KDesc) : Option Nat :=
  let b := fun i => (s.core c).dicts.get DictBank.empty i
  match [0, 1, 2, 3].find? (fun i => (b i).users != [] && (b i).dict == d.dict && (b i).count == d.dcount) with
  | some i => some i
  | none => [0, 1, 2, 3].find? (fun i => (b i).users == [])

/-- What a team takes of a core. -/
structure Fit where
  places : List (Nat × Nat)
  tiles : List Nat
  bank : Option Nat
  deriving DecidableEq, Repr

/-- A team of `n` groups fits on a core (R28, R29, R75, R105). -/
def State.fitOn (s : State) (c : Nat) (d : KDesc) (n : Nat) : Option Fit :=
  if n = 0 then some { places := [], tiles := [], bank := none }
  else
    let held := s.heldOn c
    let used := fun k => (held.filter (fun x => x.sector == k)).foldl (fun a x => a + x.desc.backing) 0
    match placesFor d.backing n (held.map (fun x => (x.sector, x.place))) used with
    | none => none
    | some ps =>
      let tiles := (s.freeTiles c).take d.accn
      if tiles.length < d.accn then none
      else if d.dcount = 0 then some { places := ps, tiles := tiles, bank := none }
      else
        match s.bankFor c d with
        | some b => some { places := ps, tiles := tiles, bank := some b }
        | none => none

/-- Scratchpad bytes `base` to `base + size` of a core are in no team's allocation (R30). -/
def State.spadFree (s : State) (c base size : Nat) : Bool :=
  decide (base + size ≤ 2097152) && s.teams.all (fun t =>
    let len := ((s.launch t.2.launch).map (·.desc.spad)).getD 0
    t.2.core != c || !t.2.resident || decide (base + size ≤ t.2.spbase) || decide (t.2.spbase + len ≤ base))

/-- SPBASE: the lowest multiple of 4 KiB at which `size` bytes are free on every member (R30). -/
def State.spbaseFor (s : State) (cs : List Nat) (size : Nat) : Option Nat :=
  if size = 0 then some 0
  else ((List.range 512).map (· * 4096)).find? (fun b => cs.all (fun c => s.spadFree c b size))

/-- The member cores of the rectangle at a corner, by core rank; none where it leaves its die (R2, R26). -/
def rectangle (d : KDesc) (corner : Nat) : Option (List Nat) :=
  if corner % 8 + d.cw ≤ 8 ∧ corner / 8 % 12 + d.ch ≤ 12 ∧ corner < 192 then
    some ((List.range (d.cw * d.ch)).map (coreOfRank corner d.cw))
  else none

/-- Where a cluster goes: its corner, SPBASE and what each team takes. -/
structure Site where
  corner : Nat
  cores : List Nat
  spbase : Nat
  fits : List Fit
  deriving DecidableEq, Repr

/-- The cluster fits at a corner; `sizes` are the groups of each of its teams, `at'` the SPBASE that a saved cluster must have. -/
def State.siteAt (s : State) (d : KDesc) (sizes : List Nat) (at' : Option Nat) (corner : Nat) : Option Site :=
  match rectangle d corner with
  | none => none
  | some cs =>
    let fits := (cs.zip sizes).filterMap (fun p => s.fitOn p.1 d p.2)
    if fits.length < cs.length then none
    else
      let takers := ((cs.zip sizes).filter (fun p => p.2 != 0)).map (·.1)
      match at' with
      | some b => if takers.all (fun c => d.spad == 0 || s.spadFree c b d.spad) then some { corner := corner, cores := cs, spbase := b, fits := fits } else none
      | none =>
        match s.spbaseFor takers d.spad with
        | some b => some { corner := corner, cores := cs, spbase := b, fits := fits }
        | none => none

/-- The first of some corners at which the cluster fits. -/
def State.firstSite (s : State) (d : KDesc) (sizes : List Nat) (at' : Option Nat) (l : List Nat) : Option Site :=
  match l with
  | [] => none
  | c :: rest =>
    match s.siteAt d sizes at' c with
    | some x => some x
    | none => s.firstSite d sizes at' rest

/-- The corners in the order they are tried: ascending, and for a stage group the core with the fewest groups first (R364). -/
def State.cornersFor (s : State) (stage : Bool) : List Nat :=
  if stage then sortBy (fun c => (s.heldOn c).length) (List.range 192) else List.range 192

/-- The head of the placement queue (R364). -/
def State.headRequest (s : State) : Option PlaceReq := argMin (fun q => (7 - q.prio) * 2 ^ 64 + q.seq) s.placeQ

/-! Groups that start. -/

/-- v1 of a stage group: the byte offset of each lane's record (R68, R345, R365). -/
def recordOffsets (n : Node) (w : Nat) (recs : List Nat) : LaneReg :=
  let per := 4096 / (16 * n.rsize)
  let offs := recs.map (fun k => BitVec.ofNat 32 (k / per * 4096 + k % per * 16 * n.rsize))
  .g (offs ++ List.replicate (w - offs.length) 0)

/-- The scalar registers at group start (R62). -/
def startRegs (args : List W64) (gid grank crank cluid : Nat) : Map W64 :=
  ((List.range 15).map (fun i => (i + 1, args.getD i 0))) ++
    [(16, BitVec.ofNat 64 gid), (17, BitVec.ofNat 64 grank), (18, BitVec.ofNat 64 crank), (19, BitVec.ofNat 64 cluid)]

/-- A group as it starts (R41, R62, R68, R72 to R75, R77). -/
def startGroup (l : Launch) (lno team cluster crank grank corner core age : Nat) (at' : Nat × Nat) (v1 : Option LaneReg) : Group :=
  let d := l.desc
  let gid := if l.stage then l.gid else (cluster * (d.cw * d.ch) + crank) * d.t + grank
  let recn := l.records.length
  let exec := if l.stage then low64 recn else low64 d.w
  let sp : Split := { Split.dead with live := true, spc := d.entry, exec := exec, regs := startRegs l.args gid grank crank cluster }
  { Group.empty with
    desc := d
    launch := lno
    team := team
    gid := gid
    grank := grank
    crank := crank
    cluid := cluster
    corner := corner
    core := core
    sector := at'.1
    place := at'.2
    age := age
    ctx := l.ctx
    v := (0, .a 0 1) :: (match v1 with
      | some r => [(1, r)]
      | none => [])
    utvec := d.utvec
    recn := if l.stage then recn else 0
    recdepth := if l.stage then l.depth else 0
    slots := l.records
    splits := [(0, sp)] }

/-- A team takes its resources: tiles as allocated with empty partials (R75, R401), its dictionary bank (R105), and its allocation,
whose tag-table slots become invalid (R207). -/
def State.takeFit (s : State) (t c : Nat) (d : KDesc) (dict : List (W64 × W32)) (base : Nat) (f : Fit) : State :=
  s.modCore c (fun k =>
    let bank := fun b => k.dicts.get DictBank.empty b
    { k with
      tiles := f.tiles.foldl (fun m i => m.put i (Tile.fresh (some t))) k.tiles
      partials := k.partials.filter (fun p => !f.tiles.contains (p.1 / 128))
      tags := k.tags.map (fun p =>
        if decide (base ≤ p.1 * 2048) && decide (p.1 * 2048 < base + d.spad) then (p.1, { p.2 with valid := false, used := 0 }) else p)
      dicts := match f.bank with
        | none => k.dicts
        | some b =>
          if (bank b).users = [] then k.dicts.put b { dict := d.dict, count := d.dcount, users := [t], entries := dict }
          else k.dicts.put b { bank b with users := (bank b).users ++ [t] } })

/-- The groups of one new team, in ascending rank: each starts Pending and ready (R49, R52). -/
def State.startTeam (s : State) (l : Launch) (lno t cluster crank corner core : Nat) (v1 : Option LaneReg) (grank : Nat)
    (ps : List (Nat × Nat)) : State :=
  match ps with
  | [] => s
  | p :: rest =>
    let g := s.nextGroup
    let s1 := ({ s with nextGroup := g + 1 } : State).setGrp g (startGroup l lno t cluster crank grank corner core t p v1)
    (s1.makePending g false).startTeam l lno t cluster crank corner core v1 (grank + 1) rest

/-- Places a new cluster's teams, in ascending core rank. -/
def State.startCluster (s : State) (l : Launch) (lno cluster : Nat) (x : Site) (v1 : Option LaneReg) (crank : Nat)
    (cs : List (Nat × Fit)) : State :=
  match cs with
  | [] => s
  | (c, f) :: rest =>
    let t := s.nextTeam
    let team : Team := { launch := lno, cluster := cluster, rank := crank, core := c, corner := x.corner, spbase := x.spbase,
                         tiles := f.tiles, bank := f.bank, resident := true }
    let s1 : State := { s with nextTeam := t + 1, teams := s.teams.put t team }
    ((s1.takeFit t c l.desc l.dict x.spbase f).startTeam l lno t cluster crank x.corner c v1 0 f.places).startCluster l lno cluster x v1
      (crank + 1) rest

/-- The record offsets that a stage launch's group gets. -/
def State.stageV1 (s : State) (l : Launch) : Option LaneReg :=
  if l.stage then
    ((s.run l.run).bind (fun r => s.node r.graph l.node)).map (fun n => recordOffsets n l.desc.w l.records)
  else none

/-- Takes a request out of the queue. -/
def State.unrequest (s : State) (q : PlaceReq) : State := { s with placeQ := s.placeQ.erase q }

/-- CLUSTER_PLACEMENT: the head of the placement queue, a new cluster, is placed whole, or not at all (R360, R364); the launch's next
cluster then asks in turn. A saved cluster at the head is left to TEAM_RESTORE. -/
def State.placeHead (s : State) : State :=
  match s.headRequest with
  | none => s
  | some q =>
    match q.team, s.launch q.launch with
    | none, some l0 =>
      (match s.checkLaunch q.launch l0 with
       | (t, none) => t
       | (t, some l) =>
         match t.firstSite l.desc (List.replicate (l.desc.cw * l.desc.ch) l.desc.t) none (t.cornersFor l.stage) with
         | none => t
         | some x =>
           let u : State := { t.unrequest q with launches := t.launches.put q.launch { l with placed := l.placed + 1 } }
           let v := u.startCluster l q.launch q.cluster x (t.stageV1 l) 0 (x.cores.zip x.fits)
           if l.placed + 1 < l.clusters then v.request q.launch (l.placed + 1) none else v)
    | some _, _ => s
    | none, none => s.unrequest q

/-- CLUSTER_PLACEMENT (R364). -/
def execClusterPlacement (s : State) : Out := s.eventDo State.placeHead

end Sys2Proof.Machine
end

