-- ==== Sys2Proof/Machine/ScalarMask.lean ====
section
/-! DEFINITION. Exec, masks and single lanes, and the lane-queue entries they leave (R33, R35, R79, R150 to R152). -/

namespace Sys2Proof.Machine

/-- exec := a value; only bits below W count (R31). -/
def State.setExec (s : State) (g sp : Nat) (v : W64) : State :=
  s.modSplit g sp (fun p => { p with exec := v &&& low64 (s.grp g).desc.w })

def State.execOf (s : State) (g sp : Nat) : W64 := (s.split g sp).exec

/-- EXEC.SET (R150). -/
def execExecSet (a : BitVec 6) (s : State) : Out := s.groupDo [a] (fun g sp t => (t.setExec g sp (t.sreg a)).advance)

/-- EXEC.GET (R150). -/
def execExecGet (d : BitVec 6) (s : State) : Out := s.groupDo [d] (fun g sp t => (t.setSreg d (t.execOf g sp)).advance)

/-- An EXEC function of a mask register: a field above 15 is an illegal instruction, and the read waits as MSAV does (R38,
R150). -/
def State.execMask (s : State) (a : BitVec 6) (f : W64 → W64 → W64) : Out :=
  s.groupDo [] (fun g sp t =>
    if 16 ≤ a.toNat then t.illegal
    else if t.maskAwaited g sp a.toNat then t.stallAs .interlock
    else (t.setExec g sp (f (t.execOf g sp) ((t.grp g).mask a.toNat))).advance)

/-- EXEC.AND (R150). -/
def execExecAnd (a : BitVec 6) (s : State) : Out := s.execMask a (fun e m => e &&& m)
/-- EXEC.ANDN (R150). -/
def execExecAndn (a : BitVec 6) (s : State) : Out := s.execMask a (fun e m => e &&& ~~~m)
/-- EXEC.OR (R150). -/
def execExecOr (a : BitVec 6) (s : State) : Out := s.execMask a (fun e m => e ||| m)

/-- EXEC.NOT: s[A] AND NOT exec (R150). -/
def execExecNot (a : BitVec 6) (s : State) : Out :=
  s.groupDo [a] (fun g sp t => (t.setExec g sp (t.sreg a &&& ~~~t.execOf g sp)).advance)

/-- EXEC.ALL; illegal with more than one live split (R150). -/
def execExecAll (s : State) : Out :=
  s.groupDo [] (fun g sp t =>
    if 1 < (t.grp g).liveSplits.length then t.illegal else (t.setExec g sp (BitVec.allOnes 64)).advance)

/-- A scalar read of a mask register into s[D] (R151). -/
def State.maskTo (s : State) (d a : BitVec 6) (f : W64 → Nat → W64) : Out :=
  s.groupDo [d] (fun g sp t =>
    if 16 ≤ a.toNat then t.illegal
    else if t.maskAwaited g sp a.toNat then t.stallAs .interlock
    else (t.setSreg d (f ((t.grp g).mask a.toNat) (t.grp g).desc.w)).advance)

/-- MSAV (R151). -/
def execMsav (d a : BitVec 6) (s : State) : Out := s.maskTo d a (fun m _ => m)
/-- MCNT (R151). -/
def execMcnt (d a : BitVec 6) (s : State) : Out := s.maskTo d a (fun m w => BitVec.ofNat 64 (popNat 64 (m &&& low64 w).toNat))
/-- MFFS: the lowest set bit, or 64 (R151). -/
def execMffs (d a : BitVec 6) (s : State) : Out := s.maskTo d a (fun m w => BitVec.ofNat 64 (ctzNat 64 (m &&& low64 w).toNat))

/-- Puts a write of lane state on the lane queue (R33). -/
def State.enqueueWrite (s : State) (g sp : Nat) (k : QKind) (v : W64) : State :=
  if (s.split g sp).queueFull then s.stallAs .queueFull
  else
    let u := s.fresh
    (u.2.modSplit g sp (fun p => p.enqueue { kind := k, val := v, no := u.1, pc := p.spc })).advance

/-- MSET enters the lane queue (R151). -/
def execMset (d a : BitVec 6) (s : State) : Out :=
  s.groupDo [a] (fun g sp t =>
    if 16 ≤ d.toNat then t.illegal
    else t.enqueueWrite g sp (.mset (d.setWidth 4)) (t.sreg a &&& low64 (t.grp g).desc.w))

/-- The operand checks of SGET and VSET (R91, R152). -/
def Group.laneNameOk (x : Group) (v : BitVec 10) (l : BitVec 6) : Bool :=
  decide (v.toNat < 640) && decide (l.toNat < x.desc.w) && (x.popOf v.toNat).isNone

/-- SGET: one lane of a lane register, zero-extended, once R38 allows the read (R152). -/
def execSget (d : BitVec 6) (v : BitVec 10) (l : BitVec 6) (s : State) : Out :=
  s.groupDo [d] (fun g sp t =>
    let x := t.grp g
    if !x.laneNameOk v l then t.illegal
    else if t.regAwaited g sp v.toNat then t.stallAs .interlock
    else if x.vBad.contains v.toNat then t.machineCheck g sp 0 0 t.pc 0 0xFF
    else (t.setSreg d (((x.reg v.toNat).lane l.toNat).setWidth 64)).advance)

/-- VSET enters the lane queue with bits 31:0 of s[D] (R152). -/
def execVset (d : BitVec 6) (v : BitVec 10) (l : BitVec 6) (s : State) : Out :=
  s.groupDo [d] (fun g sp t =>
    if !(t.grp g).laneNameOk v l then t.illegal
    else t.enqueueWrite g sp (.vset v l) (((t.sreg d).setWidth 32).setWidth 64))

/-! Events of the lane stream. -/

/-- A fetch or a probe of the group waits for its fault record (R229). -/
def State.fetchWaits (s : State) (g : Nat) : Bool :=
  s.frecs.any (fun r => r.holds && (match r.owner with
    | .fetch h _ _ | .probe h _ => h == g
    | .access _ _ _ | .engine _ _ _ | .halyard _ _ | .remote _ | .save _ | .restore _ => false))

/-- A fault of the group holds its later accesses (R229). -/
def State.faultHeld (s : State) (g : Nat) : Bool := s.fetchWaits g || (s.grp g).faulted

/-- The lane stream of a split may go on: its group is active with the split current and no trap of it undelivered, or the
group drains for a save that is not forced (R51, R273, R279). -/
def State.laneMay (s : State) (g sp : Nat) : Bool :=
  let x := s.grp g
  let p := x.split sp
  p.live && p.trapsLet s.clock 1 && !s.struck (.lane g sp) && !(s.core x.core).halted &&
    ((x.st == .active && x.cur == sp) || (x.st == .yielding && !x.forced && !s.faultHeld g))

/-- The queue that the lane stream takes entries from, with its started clause. -/
def Split.lane (p : Split) : List QEntry × Option Running := if p.inHandler then (p.hqueue, p.hrun) else (p.queue, p.run)

/-- Takes the head entry off. -/
def Split.dropHead (p : Split) : Split :=
  if p.inHandler then { p with hqueue := p.hqueue.tail } else { p with queue := p.queue.tail }

/-- The head entry, when no clause has started (R35). -/
def Split.headEntry (p : Split) : Option QEntry :=
  match p.issuing, p.lane.1, p.lane.2 with
  | none, e :: _, none => some e
  | _, _, _ => none

/-- CLAUSE_START: the head clause starts when every flag of its WAIT is clear, under the FPCTL in force (R35, R79); a clause that a save
cut short goes on where it stopped, a FUT.RD with the lanes it had issued with (R82, R275; log 36),
and one of the lane queue that a handler interrupts stays frozen then until UTRET (log 120). -/
def State.clauseStart (s : State) (g sp : Nat) : State :=
  if !s.laneMay g sp then s
  else
    let x := s.grp g
    let p := x.split sp
    match p.headEntry with
    | some { kind := .clause addr resume, val := exec, no := no, .. } =>
      match s.fetchHalves (some x.core) addr 4 with
      | (s1, .ok hb) =>
        match headerOf hb with
        | none => ({ s1 with cur := .lane g sp } : State).fatal g 0x11 addr 0 0 sp
        | some h =>
          if resume ≠ 0 ∨ x.flagsClear h.wait then
            let r : Running := { addr := addr, off := max 4 resume, len := h.len * 4, fa := h.fa, fb := h.fb, exec := exec,
                                 fpctl := x.fpctl, no := no, stopped := false,
                                 retry := if resume ≠ 0 ∧ p.inHandler = false then p.retry else none }
            s1.modSplit g sp (fun q => if q.inHandler then { q with hrun := some r } else { q with run := some r, retry := none })
          else s1
      | (s1, f) => s1.fetchFailed g sp f true (clauseAt addr 0)
    | _ => s

/-- CLAUSE_START (R35). -/
def execClauseStart (g sp : Nat) (s : State) : Out := s.eventDo (fun t => t.clauseStart g sp)

/-- VSET_PERFORM: the queued VSET writes its lane and leaves G; at or above GCOUNT it is the shape trap (R67, R152). -/
def State.vsetPerform (s : State) (g sp : Nat) : State :=
  if !s.laneMay g sp then s
  else
    let x := s.grp g
    match (x.split sp).headEntry with
    | some { kind := .vset v l, val := val, pc := pc, .. } =>
      if x.regBusy v.toNat 1 || (s.heldRegs g).contains v.toNat then s
      else if x.desc.gcount ≤ v.toNat then ({ s with cur := .lane g sp } : State).fatal g 0x14 pc 0 0 sp
      else
        let r := LaneReg.g (((x.reg v.toNat).expand x.desc.w).set l.toNat (val.setWidth 32))
        (s.setGrp g (x.setReg v.toNat r)).modSplit g sp Split.dropHead
    | _ => s

/-- VSET_PERFORM (R152). -/
def execVsetPerform (g sp : Nat) (s : State) : Out := s.eventDo (fun t => t.vsetPerform g sp)

/-- MSET_PERFORM: the queued MSET writes its mask register (R151). -/
def State.msetPerform (s : State) (g sp : Nat) : State :=
  if !s.laneMay g sp then s
  else
    let x := s.grp g
    match (x.split sp).headEntry with
    | some { kind := .mset m, val := val, .. } =>
      if x.maskBusy m.toNat then s else (s.setGrp g (x.setMask m.toNat val)).modSplit g sp Split.dropHead
    | _ => s

/-- MSET_PERFORM (R151). -/
def execMsetPerform (g sp : Nat) (s : State) : Out := s.eventDo (fun t => t.msetPerform g sp)

/-- FPCTL_WRITE_PERFORM: a queued FPCTL write takes effect after every write of the group that issued before it (R79). -/
def State.fpctlPerform (s : State) (g sp : Nat) : State :=
  if !s.laneMay g sp then s
  else
    let x := s.grp g
    match (x.split sp).headEntry, x.fpctlQ with
    | some { kind := .fpctl t, val := val, .. }, (n, _) :: rest =>
      if n = t then (s.setGrp g { x with fpctl := val, fpctlQ := rest }).modSplit g sp Split.dropHead else s
    | _, _ => s

/-- FPCTL_WRITE_PERFORM (R79). -/
def execFpctlWritePerform (g sp : Nat) (s : State) : Out := s.eventDo (fun t => t.fpctlPerform g sp)

end Sys2Proof.Machine
end

