-- ==== Sys2Proof/Machine/Preempt.lean ====
section
/-! DEFINITION. Pre-emption: requests, the deadline, and the save of a group into its context area (R80 to R83, R278 to R282). -/

namespace Sys2Proof.Machine

/-! Requests (R278). -/

/-- A Saved group that was placed again, but whose restore has not begun, leaves its core (R278, R283). -/
def State.unplace (s : State) (g : Nat) : State :=
  (s.groupLeaves g .saved).modGrp g (fun x => { x with away := false, area := [], areaAt := 0 })

/-- The groups of a launch whose context is still in its area while they hold places. -/
def State.awayOf (s : State) (l : Nat) (t : GState) : List Nat := (s.groupsOf l).filter (fun g => (s.grp g).away && (s.grp g).st == t)

/-- PREEMPT_REQUEST: marks every launch of a run, the earlier deadline standing, and withdraws what is not placed (R278, R369). -/
def State.requestPreempt (s : State) (r deadline : Nat) : State :=
  let mine := (s.launches.filter (fun p => p.2.run == r && !p.2.killed)).map (·.1)
  let s1 : State := { s with
    launches := s.launches.map (fun p => (p.1, if mine.contains p.1 then
      { p.2 with req := some (min deadline (p.2.req.getD deadline)) } else p.2))
    placeQ := s.placeQ.filter (fun q => !mine.contains q.launch) }
  let s2 := (mine.flatMap (fun l => s.awayOf l .saved)).foldl State.unplace s1
  (s2.modRun r (fun x => { x with st := .saving })).trySuspend r

/-- A whole allocation, by its base and size, as a range of YIELDP (R80, R164). -/
def wholeOf (al : Nat × Nat) : W64 := if al.2 = 0 then 0 else (BitVec.ofNat 32 al.2 : W32) ++ (BitVec.ofNat 32 al.1 : W32)

/-- The group is one that the deadline forces (R282): every one that is resident, but for a save whose area is being written (log 47). -/
def Group.forceable (x : Group) : Bool :=
  match x.st with
  | .active | .pending | .parked => true
  | .yielding => !x.forced && x.area.isEmpty
  | .unplaced | .saved | .exited | .killed => false

/-- A command of the group that a fault has parked holds its save (R282). -/
def State.saveHeld (s : State) (g : Nat) : Bool := (s.core (s.grp g).core).queues.any (fun q => q.2.any (fun m => m.group == g && m.parked))

/-- The service is told, once, that a parked command blocks the save of a group (R282; log 100). -/
def State.tellHeld (s : State) (g : Nat) : State :=
  if s.saveHeld g && !s.blocked.contains g then { s with blocked := s.blocked ++ [g] } else s

/-- Forces the save of a group (R282): it drains, its contexts stop, and its guarded commands that wait are discarded. One whose restore
waits at a fault has its context in its area still, and keeps its fault record (R54). -/
def State.forceSave (s : State) (g : Nat) : State :=
  let x := s.grp g
  if !x.forceable then s
  else if x.away then (s.leaveSector g).modGrp g (fun y => { y with st := .yielding, forced := true })
  else
    let first := x.grank == 0
    let s1 := (s.leaveSector g).modGrp g (fun y => { y with
      st := .yielding
      forced := true
      ltm := if first then BitVec.ofNat 8 (2 ^ x.desc.accn - 1) else 0
      range1 := if first then wholeOf (s.allocation g) else 0
      range2 := 0 })
    let s2 := s1.modCore x.core (fun k => { k with hal := k.hal.map (fun h =>
      (h.1, if h.2.running && h.2.owner == g then { h.2 with running := false, parked := false } else h.2)) })
    (s2.discardHeld g).tellHeld g

/-- PREEMPT_DEADLINE: TIME has reached the deadline of the launch's request (R282). -/
def State.preemptDeadline (s : State) (l : Nat) : State :=
  match s.launch l with
  | none => s
  | some x =>
    match x.req with
    | some d => if d ≤ s.time then ((s.groupsOf l).foldl State.forceSave s).trySuspend x.run else s
    | none => s

/-- PREEMPT_DEADLINE (R282). -/
def execPreemptDeadline (launch : Nat) (s : State) : Out := s.eventDo (fun t => t.preemptDeadline launch)

/-! The drain (R279, R282). -/

/-- The clause in hand cannot go on (R282): a trap of its split is undelivered, its fetch waits for a fault, or issuing its next instruction
changes nothing; past a fault of its group nothing issues (R229). -/
def State.clauseStuck (s : State) (g sp : Nat) : Bool :=
  let x := s.grp g
  let p := x.split sp
  match p.issuing with
  | none => true
  | some (_, r) =>
    let va := r.addr + BitVec.ofNat 64 (2 * r.off)
    if !p.traps.isEmpty || s.faultHeld g then true
    else
      match s.peekHalves (some x.core) va 1 with
      | none => false
      | some h =>
        match s.peekHalves (some x.core) va (codeBytes (h.headD 0) / 2) with
        | none => false
        | some bs =>
          let t : State := { s with cur := .lane g sp, fetchLen := bs.length }
          (match issueRaw (laneRawOf (laneCodeOf bs)) t with
           | .next u => decide (u = t)
           | _ => true)

/-- The lane stream of a split has done what the save waits for: every clause that is not frozen has issued (R279), or at a forced save every
clause that has started (R282). -/
def State.laneDrained (s : State) (g sp : Nat) : Bool :=
  let x := s.grp g
  let p := x.split sp
  if x.forced then p.issuing.isNone || s.clauseStuck g sp
  else p.issuing.isNone && p.lane.1.isEmpty

/-- The group's accesses are drained but for those whose lanes all wait on fault records, with a record each (R81). -/
def State.accDrained (s : State) (g : Nat) : Bool :=
  (s.grp g).acc.all (fun a => a.lanes.any LaneAcc.waiting && !a.lanes.any (s.unrecorded g a))

/-- GLAUNCH or GDEC has been sent and its answer is on its way: it has issued. -/
def Split.answerDue (p : Split) : Bool :=
  match p.stall with
  | some (.capstan _ _) | some (.gdec _ _) => true
  | _ => false

/-- The drain is over: streams, accesses and commands; every fault record of the group has its number, and those that are resolved have been
replayed (R81, R279, R282). -/
def State.saveDrained (s : State) (g : Nat) : Bool :=
  let x := s.grp g
  let recs := s.recordsOf g
  x.liveSplits.all (fun k => s.laneDrained g k && !(x.split k).answerDue) && s.accDrained g && !s.anyCmd g &&
    recs.all (fun r => r.numbered && !r.resolved) && (x.forced || recs.isEmpty)

/-! The context area (R80 to R83). -/

/-- A queue entry (R82). `rank` finds the place of an FPCTL write among those queued; `off` is RESUME. -/
def entryWords (rank : Nat → Nat) (off : Nat) (e : QEntry) : W64 × W64 :=
  match e.kind with
  | .fpctl t => (BitVec.ofNat 64 (rank t * 4), e.val)
  | .clause a resume => ((BitVec.ofNat 8 (max off resume) ++ a.extractLsb' 3 53 ++ 1#3 : W64), e.val)
  | .vset v l => (BitVec.ofNat 64 (2 + v.toNat * 4 + l.toNat * 4096), e.val)
  | .mset m => (BitVec.ofNat 64 (3 + m.toNat * 4), e.val)

def word8 (v : W64) : List Byte := leBytes 8 v.toNat

/-- The 128 bytes of a queue, head first; a started head clause carries its offset. -/
def queueBytes (rank : Nat → Nat) (r : Option Running) (q : List QEntry) : List Byte :=
  (List.range 8).flatMap (fun i =>
    match q[i]? with
    | some e =>
      let w := entryWords rank (if i = 0 then (r.map (·.off)).getD 0 else 0) e
      word8 w.1 ++ word8 w.2
    | none => List.replicate 16 0)

/-- A word of the join tag stack (R82). -/
def tagWord (e : Option JoinEntry) : W64 :=
  match e with
  | some (.tag id) => BitVec.ofNat 64 (id % 2 ^ 32)
  | some (.serial part _ _ _ _ _) => 0x8000000000000000#64 ||| BitVec.ofNat 64 part
  | none => 0

/-- A serial-record block (R82). -/
def serialBytes (e : Option JoinEntry) : List Byte :=
  match e with
  | some (.serial _ union table p1 p2 p3) => word8 union ++ word8 table ++ word8 p1 ++ word8 p2 ++ word8 p3
  | some (.tag _) | none => List.replicate 40 0

/-- Where a split goes on after its save: past the YIELDP that stopped it, else at the instruction that it has not issued (R279, R282). -/
def Split.savedSpc (p : Split) : W64 := if p.atYieldp.isSome then p.spc + 4 else p.spc

/-- A split block (R82). -/
def splitBytes (rank : Nat → Nat) (p : Split) : List Byte :=
  if !p.live then List.replicate 1024 0
  else
    (List.range 64).flatMap (fun i => word8 (if i = 0 then 0 else p.regs.get 0 i)) ++ word8 p.savedSpc ++
      word8 (BitVec.ofNat 64 (p.queue.length + 16 * p.hqueue.length + 256 * p.tags.length + (if p.inHandler then 2048 else 0))) ++
      (List.range 4).flatMap (fun i => word8 (tagWord p.tags[i]?)) ++
      word8 p.utcause ++ word8 p.utmask ++ word8 p.utpc ++ word8 p.utinfo ++
      queueBytes rank p.run p.queue ++ queueBytes rank p.hrun p.hqueue ++
      (List.range 4).flatMap (fun i => serialBytes p.tags[i]?) ++ List.replicate 16 0

/-- Section 3 (R83). -/
def masksBytes (x : Group) : List Byte :=
  (List.range 16).flatMap (fun i => word8 (x.mask i)) ++
    (List.range 4).flatMap (fun k => word8 (if (x.split k).live then (x.split k).exec else 0))

/-- Section 4: the tags, four names a byte (R83). -/
def tagsBytes (x : Group) : List Byte :=
  (List.range 160).map (fun i => BitVec.ofNat 8 ((x.reg (4 * i)).tag + 4 * (x.reg (4 * i + 1)).tag + 16 * (x.reg (4 * i + 2)).tag +
    64 * (x.reg (4 * i + 3)).tag))

/-- The compact slot of a lane register; zero for G (R64, R83). -/
def LaneReg.slot (r : LaneReg) : W64 :=
  match r with
  | .u v => v.setWidth 64
  | .a b st => st ++ b
  | .g _ => 0

/-- Section 6: the rows of the G names (R83). -/
def rowsBytes (x : Group) : List Byte :=
  (List.range 640).flatMap (fun n => match x.reg n with
    | .g l => (List.range x.desc.w).flatMap (fun i => leBytes 4 (l.getD i 0).toNat)
    | .u _ | .a _ _ => [])

/-- A tile (R83, R296). -/
def Tile.bytes (t : Tile) : List Byte :=
  (Map.dense t.elems 0 0 16384).flatMap (fun v => leBytes 4 v.toNat) ++
    (Map.dense t.labels 0xFFFFFFFF#32 0 128).flatMap (fun v => leBytes 4 v.toNat) ++ leBytes 16 t.erm.toNat ++
    leBytes 1 (if t.tokenV then 1 else 0) ++ leBytes 1 ((if t.msat then 1 else 0) + (if t.fmte then 2 else 0)) ++ List.replicate 14 0

/-- The tile's number on the core of tile `i` of a group's team (R75). -/
def State.teamTile (s : State) (g i : Nat) : Nat := (((s.teams.find (s.grp g).team).map (·.tiles)).getD []).getD i 0

/-- Section 7: the tiles of LTM, ascending. -/
def State.tilesBytes (s : State) (g : Nat) : List Byte :=
  let x := s.grp g
  (List.range 8).flatMap (fun i => if x.ltm.getLsbD i then (s.tile x.core (s.teamTile g i)).bytes else [])

/-- Section 8: the named ranges. -/
def State.rangesBytes (s : State) (g : Nat) : List Byte :=
  let x := s.grp g
  s.spadRead x.core (rangeOff x.range1) (rangeLen x.range1) ++ s.spadRead x.core (rangeOff x.range2) (rangeLen x.range2)

/-- Offsets of sections 2 to 8 and the total, from the sizes of sections 6 to 8 (R83). -/
def sectionOffsets (rows tiles ranges : Nat) : List Nat × Nat :=
  let o7 := roundUp (0x2680 + rows) 64
  let o8 := roundUp (o7 + tiles) 64
  ([0x100, 0x1100, 0x11C0, 0x1280, 0x2680, o7, o8], o8 + ranges)

/-- Padded with zero to `n` bytes. -/
def padTo (n : Nat) (bs : List Byte) : List Byte := bs ++ List.replicate (n - bs.length) 0

/-- Guard slots as 2 bits each (R80). -/
def Guard.code (k : Guard) : Nat :=
  match k with
  | .unresolved => 0
  | .false => 1
  | .true => 2

def Group.guardBits (x : Group) : Nat := (List.range 16).foldl (fun a k => a + (x.guards.get .unresolved k).code * 4 ^ k) 0
def Group.tflagBits (x : Group) : Nat := (List.range 16).foldl (fun a k => a + (if x.tflags.get false k then 2 ^ k else 0)) 0

/-- The unresolved records of a group, by number (R80). -/
def State.savedSeqs (s : State) (g : Nat) : List W64 := ((s.recordsOf g).filter (fun r => !r.resolved)).map (·.seq)

/-- The header (R80). -/
def State.headerBytes (s : State) (g : Nat) (offs : List Nat) (total : Nat) : List Byte :=
  let x := s.grp g
  let seqs := s.savedSeqs g
  let live := x.liveSplits.foldl (fun a k => a + 2 ^ k) 0
  leBytes 4 0x5A435458 ++ leBytes 2 1 ++ leBytes 2 ((if x.forced then 1 else 0) + (if seqs.isEmpty then 0 else 2)) ++
    leBytes 1 x.desc.w ++ leBytes 1 live ++ leBytes 1 x.cur ++ leBytes 1 seqs.length ++
    leBytes 2 x.desc.gcount ++ leBytes 1 x.desc.accn ++ leBytes 1 x.ltm.toNat ++ leBytes 8 x.gid ++ leBytes 8 total ++
    offs.flatMap (leBytes 4) ++ leBytes 4 0 ++ leBytes 4 x.guardBits ++ leBytes 2 x.tflagBits ++
    leBytes 1 x.fpctl.toNat ++ leBytes 1 x.fpstat.toNat ++ (List.range 8).flatMap (fun k => leBytes 1 (x.oq.get [] k).length) ++
    word8 x.utvec ++ word8 x.skips ++ leBytes 2 x.recn ++ leBytes 1 x.recdepth ++ leBytes 5 0 ++
    word8 x.range1 ++ word8 x.range2 ++ leBytes 8 0 ++
    (List.range 16).flatMap (fun i => word8 (seqs.getD i 0))

/-- The whole area (R80 to R83). -/
def State.areaBytes (s : State) (g : Nat) : List Byte :=
  let x := s.grp g
  let rank := fun t => ((x.fpctlQ.map (·.1)).idxOf t)
  let rows := rowsBytes x
  let tiles := s.tilesBytes g
  let ranges := s.rangesBytes g
  let offs := sectionOffsets rows.length tiles.length ranges.length
  let o := fun i => offs.1.getD i 0
  let a := s.headerBytes g offs.1 offs.2 ++ (List.range 4).flatMap (fun k => splitBytes rank (x.split k))
  let b := padTo (o 2) (a ++ masksBytes x)
  let c := padTo (o 3) (b ++ tagsBytes x) ++ (List.range 640).flatMap (fun n => word8 (x.reg n).slot)
  let d := padTo (o 5) (c ++ rows)
  padTo (o 6) (d ++ tiles) ++ ranges

/-- The area's address (R281, R366). -/
def State.areaVa (s : State) (g : Nat) : W64 :=
  let x := s.grp g
  match s.launch x.launch with
  | some l => l.ctxBase + BitVec.ofNat 64 ((if l.stage then x.ctx else x.gid) * l.ctxStride)
  | none => 0

/-! The save (R279). -/

/-- An SVC whose answer has been written completes, and one that has none is taken up again at resume (R282). -/
def State.settleCall (s : State) (g sp : Nat) : State :=
  match (s.split g sp).stall with
  | some (.svc n d) =>
    match s.calls.find n with
    | none => s
    | some c =>
      let t : State := { s with calls := s.calls.erase n }
      let got : Option W64 := match c.answer, c.entry with
        | some v, _ => some v
        | none, some pa => if (s.hbmNat (pa + 0x18) 8).testBit 63 then some (BitVec.ofNat 64 (s.hbmNat (pa + 0x10) 8)) else none
        | none, none => none
      match got with
      | some v =>
        t.modSplit g sp (fun p => { p with
          regs := if d = 0 then p.regs else p.regs.put d v
          spc := p.spc + 4
          stall := none })
      | none => t
  | _ => s

/-- The drained group's state is fixed for its save: reservations end, its area is laid out, and its queues and waits end (R81, R279). A
user-level trap that has not been delivered is dropped: the TRAP or FUT.RD that raised it stands at SPC or at the resume offset, and raises it
again (log 119). -/
def State.layOut (s : State) (g : Nat) : State :=
  let s1 := (List.range 4).foldl (fun t k => t.settleCall g k) s
  s1.modGrp g (fun x => { x with
    area := s1.areaBytes g
    areaAt := 0
    oq := []
    flags := []
    counters := []
    inflight := []
    splits := x.splits.map (fun p => (p.1, { p.2 with resv := [], spc := p.2.savedSpc, stall := none, traps := [] })) })

/-- The save's writes in their order (R279): MAGIC as 0, the area behind it, and MAGIC. -/
def saveWrites (bs : List Byte) : List (Nat × Byte) :=
  (List.range 4).map (fun i => (i, (0 : Byte))) ++ ((List.range bs.length).zip bs).drop 4 ++ ((List.range 4).zip (bs.take 4))

/-- The entry of a call for which a split of the group waits meets an uncorrectable error (R238, R428). -/
def State.callBad (s : State) (g : Nat) : Option Nat :=
  ((s.grp g).liveSplits.filterMap (fun k => match (s.split g k).stall with
    | some (.svc n _) => (s.calls.find n).bind (fun c => if c.answer.isSome then none else
        c.entry.bind (fun pa => if s.hbmBadIn (pa + 0x10) 16 then some (pa + 0x10) else none))
    | _ => none)).head?

/-- What a save would read and cannot, for an uncorrectable error: a lane register, a tile or a range that the area holds, or the answer of
a call (R238). -/
def State.saveBad (s : State) (g : Nat) : Option Nat :=
  let x := s.grp g
  let k := s.core x.core
  if x.vBad != [] then some 0
  else if (s.callBad g).isSome then s.callBad g
  else
    match k.tileBad.find? (fun p => (List.range 8).any (fun i => x.ltm.getLsbD i && s.teamTile g i == p.1)) with
    | some p => some p.2
    | none =>
      ([x.range1, x.range2].find? (fun r => s.spadBadIn x.core (rangeOff r) (rangeLen r))).map rangeOff

/-- Writes what is left of a save; a fault parks it with a record of KIND 1 and lane mask 0 (R279). -/
def State.writeArea (s : State) (g : Nat) (ws : List (Nat × Byte)) : State × Bool :=
  match ws with
  | [] => (s, true)
  | (o, b) :: rest =>
    let x := s.grp g
    let va := s.areaVa g + BitVec.ofNat 64 o
    match s.translate (some x.core) va { w := true } with
    | (t, .fault c) =>
      if t.recordRoom g x.core then (t.addRecord (.save g) x.core 1 0 c x.slotNo 0 0 va 0 0, false) else (t, false)
    | (t, .check pa) => (t.machineCheck g 0 pa va.toNat 0 0 0xFF, false)
    | (t, .ok pa) => ((t.hbmWrite none pa [b]).modGrp g (fun y => { y with areaAt := y.areaAt + 1 })).writeArea g rest

/-- The group is Saved: it leaves its core, and the device keeps its fault records for its restore (R54, R279). -/
def State.saved (s : State) (g : Nat) : State :=
  let s1 : State := { s with frecs := s.frecs.map (fun r => if s.ownerGroup r.owner = some g then { r with core := 256 } else r) }
  let s2 := ({ s1 with blocked := s1.blocked.erase g } : State).groupLeaves g .saved |>.modGrp g (fun x => { x with
    area := [], areaAt := 0, away := false })
  match s2.runOf g with
  | some r => s2.trySuspend r
  | none => s2

/-- GROUP_SAVE_COMPLETE: the drained group's area is written and the group is Saved (R279); nothing is written of a group whose context its
area still holds (R54). -/
def State.saveGroup (s : State) (g : Nat) : State :=
  let x := s.grp g
  if x.st != .yielding then s.tryYield g
  else if x.away then s.saved g
  else if s.frecs.any (fun r => r.holds && r.owner == .save g) then s
  else if x.area = [] && !s.saveDrained g then s.tellHeld g
  else if x.area = [] && (s.saveBad g).isSome then s.machineCheck g 0 ((s.saveBad g).getD 0) 0 0 0 0xFF
  else
    let s1 := if x.area = [] then s.layOut g else s
    let y := s1.grp g
    match s1.writeArea g ((saveWrites y.area).drop y.areaAt) with
    | (t, true) => t.saved g
    | (t, false) => t

/-- GROUP_SAVE_COMPLETE (R279). -/
def execGroupSaveComplete (g : Nat) (s : State) : Out := s.eventDo (fun t => t.saveGroup g)

end Sys2Proof.Machine
end

