-- ==== Sys2Proof/Machine/Sail.lean ====
section
/-! DEFINITION. The sail plan's firings and Capstan control (R351 to R354, R358, R369). -/

namespace Sys2Proof.Machine

/-! Firing (R353, R354). -/

/-- A firing or a skip takes the next firing sequence number and is journalled (R353, R440): 0 started, 1 held, 2 dropped, 3 skipped. -/
def State.firing (s : State) (entry stream outcome run : Nat) : State :=
  ({ s with firingNo := s.firingNo + 1 } : State).note 2
    (leBytes 8 (s.firingNo + 1) ++ leBytes 2 entry ++ leBytes 1 stream ++ leBytes 1 outcome ++ leBytes 4 run)

/-- Counts a firing that does not take place in SKIPCOUNT (R353). -/
def State.skipped (s : State) (k : Nat) (e : SailEntry) (outcome : Nat) : State :=
  (({ s with sail := s.sail.put k { s.sail.get e k with skips := (s.sail.get e k).skips + 1 } } : State)).firing k e.stream outcome 0

/-- A run that waits for its stream or its graph (R349). -/
def State.holdRun (s : State) (graph stream prio : Nat) (arg : Option W64) (byFiring : Bool) : State × Nat :=
  s.addRun { graph := graph, stream := stream, prio := prio, arg := arg, st := .held, nodes := [], completed := 0, byFiring := byFiring,
             named := 0 }

/-- The run that holds a stream (R349). -/
def State.runningOn (s : State) (st : Nat) : Option Nat := (s.runs.find? (fun p => p.2.stream == st && p.2.st.holds)).map (·.1)

/-- A firing (R354): its run starts, is held, pre-empts, or is dropped; an entry whose graph is not loaded is a skip (R369). -/
def State.fire (s : State) (k : Nat) (e : SailEntry) : State :=
  let arg := if e.noarg then none else some e.arg
  let waiting := s.runs.any (fun p => p.2.stream == e.stream && p.2.st == .held)
  let busy := s.streamBusy e.stream
  if (s.graphs.find e.graph).isNone then s.skipped k e 3
  else if !busy && !s.graphBusy e.graph then
    let u := (s.firing k e.stream 0 s.nextRun).holdRun e.graph e.stream e.prio arg false
    let v := startRun u.1 u.2
    if v.2 then v.1.endRun u.2 else v.1
  else if e.policy = 0 ∨ (waiting ∧ (e.policy = 1 ∨ busy)) then s.skipped k e 2
  else
    let u := (s.firing k e.stream 1 s.nextRun).holdRun e.graph e.stream e.prio arg (e.policy == 2 && busy)
    match s.runningOn e.stream with
    | some r =>
      if e.policy = 2 then
        (u.1.modRun r (fun x => if x.st = .running then { x with firedBy := some u.2 } else x)).requestPreempt r (s.time + e.deadline)
      else u.1
    | none => u.1.notePassed e.stream

/-- The due times of an entry that have come since it last fired, and since the plan was written, by their cycle numbers: the first and
the last (R353, R369). -/
def State.dueRange (s : State) (e : SailEntry) : Option (Nat × Nat) :=
  let off := s.sailEpoch + e.offset.toNat
  if s.sailPeriod = 0 ∨ s.sailPeriod ≤ e.offset.toNat ∨ s.time < off then none
  else
    let n := (s.time - off) / s.sailPeriod
    let from' := (s.sailFrom - off + s.sailPeriod - 1) / s.sailPeriod
    let first := match e.lastDue with
      | some t => if t < off then from' else max from' ((t - off) / s.sailPeriod + 1)
      | none => from'
    if first ≤ n then some (first, n) else none

/-- In replay mode a firing's run takes the number that the journal gives it, so that run numbers repeat (R441; log 95). -/
def State.numberRun (s : State) (r : Nat) : State := if r = 0 then s else { s with nextRun := s.freeRun r }

/-- An entry of the plan is due in this clock and fires by TIME (R353). -/
def State.sailDue (s : State) (k : Nat) : Bool :=
  match s.sail.find k with
  | some e => s.replay.isNone && e.valid && e.graph != 0xFFFF && (s.dueRange e).isSome
  | none => false

/-- SAIL_ENTRY_FIRE: the latest due time that has come fires, and each earlier one is a skip (R353); in replay mode the journal's next
firing decides (R441). -/
def State.sailFire (s : State) (k : Nat) : State :=
  match s.sail.find k with
  | none => s
  | some e =>
    match s.replay with
    | some l =>
      (match l.find? JEntry.input with
       | some j =>
         if j.kind ≠ 2 ∨ numAt j.body 8 2 ≠ k then s
         else
           let t := s.numberRun (numAt j.body 0x0C 4)
           let u := if numAt j.body 0x0B 1 = 3 then t.skipped k e 3 else t.fire k e
           match u.replay with
           | some rest => u.feed (rest.erase j)
           | none => u
       | none => s)
    | none =>
      if !e.valid || e.graph == 0xFFFF then s
      else
        match s.dueRange e with
        | none => s
        | some (a, b) =>
          let t := (List.range (b - a)).foldl (fun u _ => u.skipped k e 3) s
          let u : State := { t with sail := t.sail.put k { t.sail.get e k with lastDue := some s.time } }
          u.fire k (u.sail.get e k)

/-- SAIL_ENTRY_FIRE (R353). -/
def execSailEntryFire (entry : Nat) (s : State) : Out := s.eventDo (fun t => t.sailFire entry)

/-! CAP.CTL (R369). -/

/-- What a request does: the state, its RESULT, and the words it writes beside it. -/
structure CapAnswer where
  s : State
  result : Nat
  words : List (Nat × W64) := []

/-- The graph store takes a graph, and the journal its image (R358, R440). -/
def State.loadGraph (s : State) (g : Graph) (image : List Byte) : State × Nat :=
  let u := s.storeGraph g
  (u.1.note 6 (leBytes 2 u.2 ++ leBytes 6 0 ++ image), u.2)

/-- LOAD (R358). -/
def capLoad (s : State) (b : Nat → W64) : CapAnswer :=
  match s.readGraph (b 0) with
  | (t, .refused n) => { s := t, result := 1, words := [(0x10, BitVec.ofNat 64 n)] }
  | (t, .ok g image) =>
    if !t.graphRoom g then { s := t, result := 2 }
    else
      let u := t.loadGraph g image
      { s := u.1, result := 0, words := [(0x08, BitVec.ofNat 64 u.2)] }

/-- A run of the graph is held or running (R349, R369). -/
def State.graphUsed (s : State) (g : Nat) : Bool := s.runs.any (fun p => p.2.graph == g && (p.2.st == .held || p.2.st.holds))

/-- UNLOAD. -/
def capUnload (s : State) (b : Nat → W64) : CapAnswer :=
  let g := (b 0).toNat
  if (s.graphs.find g).isNone then { s := s, result := 7 }
  else if s.graphUsed g then { s := s, result := 3 }
  else { s := { s with graphs := s.graphs.erase g }, result := 0 }

/-- PLAN (R352): the plan takes effect in the next core clock, and no entry fires for a due time before the write (R369). -/
def capPlan (s : State) (b : Nat → W64) : CapAnswer :=
  let p := (b 0).toNat
  if p < 1000 ∨ 10000000000 < p then { s := s, result := 4 }
  else { s := { s with planNext := some (p, (b 1).toNat, s.time) }, result := 0 }

/-- START (R350, R351). -/
def capStart (s : State) (b : Nat → W64) : CapAnswer :=
  if 63 < (b 1).toNat ∨ 7 < (b 2).toNat ∨ 1 < (b 5).toNat then { s := s, result := 4 }
  else
    match s.beginRun (b 0).toNat (b 1).toNat (b 2).toNat (if b 5 = 1 then none else some (b 3)) with
    | (t, .ok r) => { s := t, result := 0, words := [(0x20, BitVec.ofNat 64 r)] }
    | (t, .error k) => { s := t, result := k }

/-- PREEMPT (R278). -/
def capPreempt (s : State) (b : Nat → W64) : CapAnswer :=
  match s.run (b 0).toNat with
  | none => { s := s, result := 5 }
  | some x =>
    match x.st with
    | .ended => { s := s, result := 8 }
    | .held | .suspended => { s := s, result := 9 }
    | .running | .saving => { s := s.requestPreempt (b 0).toNat (s.time + (b 1).toNat), result := 0 }

/-- KILL (R284). -/
def capKill (s : State) (b : Nat → W64) : CapAnswer :=
  match s.run (b 0).toNat with
  | none => { s := s, result := 5 }
  | some x => if x.st = .ended then { s := s, result := 8 } else { s := s.abortRun (b 0).toNat 2 5 0xFFFF, result := 0 }

/-- The state's number in STATUS (R349, R369). -/
def RunState.code (t : RunState) : Nat :=
  match t with
  | .held => 0
  | .running => 1
  | .saving => 2
  | .suspended => 3
  | .ended => 4

/-- STATUS. -/
def capStatus (s : State) (b : Nat → W64) : CapAnswer :=
  match s.run (b 0).toNat with
  | none => { s := s, result := 5 }
  | some x => { s := s, result := 0, words := [(0x08, BitVec.ofNat 64 x.st.code), (0x10, BitVec.ofNat 64 x.completed)] }

/-- RESUME (R351). -/
def capResume (s : State) (b : Nat → W64) : CapAnswer :=
  match s.run (b 0).toNat with
  | none => { s := s, result := 5 }
  | some x =>
    if x.st ≠ .suspended then { s := s, result := 6 }
    else
      let t := ({ s with nextNamed := s.nextNamed + 1 } : State).modRun (b 0).toNat (fun y =>
        { y with named := if y.named = 0 then s.nextNamed else y.named })
      { s := t.takeAll x.stream .idle, result := 0 }

/-- The request of a code below 8 (R369). -/
def capRequest (code : Nat) (s : State) (b : Nat → W64) : CapAnswer :=
  match code with
  | 0 => capLoad s b
  | 1 => capUnload s b
  | 2 => capPlan s b
  | 3 => capStart s b
  | 4 => capPreempt s b
  | 5 => capKill s b
  | 6 => capStatus s b
  | _ => capResume s b

/-- Writes words into a request block. -/
def State.writeWords (s : State) (va : W64) (l : List (Nat × W64)) : State × GRead Unit :=
  match l with
  | [] => (s, .ok ())
  | (o, v) :: rest =>
    match s.writeVirt none none (va + BitVec.ofNat 64 o) (leBytes 8 v.toNat) with
    | (t, .ok ()) => t.writeWords va rest
    | (t, f) => (t, f)

/-- CAP.CTL, by its code in s[A] (R166, R369). A request block that cannot be read or written is a fault of the service core's own access, and
the request has no effect (log 38). -/
def State.capCtl (s : State) (a b : BitVec 6) : Out :=
  s.serviceDo (fun k t =>
    let code := (t.sreg a).toNat
    let va := t.sreg b
    if 8 ≤ code ∨ va.toNat % 8 ≠ 0 then t.failed k 0x04
    else
      match t.readVirt none { r := true } va 64 with
      | (u, .ok bs) =>
        let r := capRequest code u (fun i => BitVec.ofNat 64 (numAt bs (8 * i) 8))
        (match r.s.writeWords va (r.words ++ [(0x38, BitVec.ofNat 64 r.result)]) with
         | (v, .ok ()) => v.advance
         | (_, f) => u.serviceReach f)
      | (u, f) => u.serviceReach f)

/-- CAP.CTL LOAD (R358, R369; log 6). -/
def execCapCtlLoad (a b : BitVec 6) (s : State) : Out := s.capCtl a b
/-- CAP.CTL UNLOAD (R369; log 6). -/
def execCapCtlUnload (a b : BitVec 6) (s : State) : Out := s.capCtl a b
/-- CAP.CTL PLAN (R369; log 6). -/
def execCapCtlPlan (a b : BitVec 6) (s : State) : Out := s.capCtl a b
/-- CAP.CTL START (R369; log 6). -/
def execCapCtlStart (a b : BitVec 6) (s : State) : Out := s.capCtl a b
/-- CAP.CTL PREEMPT (R369; log 6). -/
def execCapCtlPreempt (a b : BitVec 6) (s : State) : Out := s.capCtl a b
/-- CAP.CTL KILL (R369; log 6). -/
def execCapCtlKill (a b : BitVec 6) (s : State) : Out := s.capCtl a b
/-- CAP.CTL STATUS (R369; log 6). -/
def execCapCtlStatus (a b : BitVec 6) (s : State) : Out := s.capCtl a b
/-- CAP.CTL RESUME (R351, R369; log 6). -/
def execCapCtlResume (a b : BitVec 6) (s : State) : Out := s.capCtl a b

end Sys2Proof.Machine
end

