-- ==== Sys2Proof/Machine/Service.lean ====
section
/-! DEFINITION. The rings between the device and the service, the service's memory, and its answers to service calls (R221 to R224,
R426 to R429, R435). -/

namespace Sys2Proof.Machine

/-! Rings (R426). -/

/-- The size of a ring's entries. -/
def ringEntry (k : Nat) : Nat := if k = 4 then 64 else 32

/-- A ring's counts cannot be read (R238). -/
def State.ringBad (s : State) (d : RingDesc) : Bool := s.hbmBadIn d.base 16

def State.ringProducer (s : State) (d : RingDesc) : Nat := s.hbmNat d.base 8
def State.ringConsumer (s : State) (d : RingDesc) : Nat := s.hbmNat (d.base + 8) 8

/-- Where entry number `e` of ring `k` lies. -/
def RingDesc.entryAt (d : RingDesc) (k e : Nat) : Nat := d.base + 64 + ringEntry k * (e % 2 ^ d.log2n)

/-- The ring's entries not taken yet, modulo the counts' 64 bits. -/
def State.ringUsed (s : State) (d : RingDesc) : Nat := (s.ringProducer d + 2 ^ 64 - s.ringConsumer d) % 2 ^ 64

/-- One entry more has been taken. -/
def State.ringTake (s : State) (d : RingDesc) : State := s.hbmPut none (d.base + 8) 8 (s.ringConsumer d + 1)

/-- A report that carries a service call's number tells where its entry lies (R428). -/
def State.placeCall (s : State) (call : Option Nat) (pa : Nat) : State :=
  match call with
  | none => s
  | some n =>
    match s.calls.find n with
    | some c => { s with calls := s.calls.put n { c with entry := some pa } }
    | none => s

/-- RING_REPORT_POST: the ring's oldest report is written and PRODUCER advances; a full ring holds it back (R426). -/
def State.postReport (s : State) (k : Nat) : Out :=
  match s.ringDescs.find k, s.reports.get [] k with
  | some d, (call, bs) :: rest =>
    if s.ringBad d then .next (s.deviceCheck d.base)
    else if 2 ^ d.log2n ≤ s.ringUsed d then .next s
    else
      let p := s.ringProducer d
      let pa := d.entryAt k p
      if hbmEnd < pa + ringEntry k then .fault (.noSuchAddress pa)
      else
        .next (((({ s with reports := s.reports.put k rest } : State).hbmWrite none pa bs).hbmPut none d.base 8 (p + 1)).placeCall call pa)
  | some _, [] => .next s
  | none, _ => .next s

/-- RING_REPORT_POST (R426). -/
def execRingReportPost (ring : Nat) (s : State) : Out := s.postReport ring

/-! The service's memory (R221 to R224, R429; log 22). -/

/-- The service takes a frame of 64 KiB inside HBM. -/
def State.takeFrame (s : State) : Option (State × Nat) :=
  match Config.freeFrame s.nextFrame with
  | some f => if f * 65536 + 65536 ≤ hbmEnd then some ({ s with nextFrame := s.nextFrame + 1 }, f) else none
  | none => none

/-- 4 KiB of a frame written with zero. -/
def State.clearPage (s : State) (pa : Nat) : State := s.hbmWrite none pa (List.replicate 4096 0)

/-- Why a page cannot be mapped. -/
inductive MapFail where
  | overlap
  | noMemory
  | check (pa : Nat)
  deriving DecidableEq, Repr

/-- Maps the 4 KiB page at `va` with the access bits `acc` (R, W, X in bits 1 to 3), from a node that has `left` levels below it; nodes
that are missing are made. -/
def State.mapFrom (s : State) (va : W64) (acc : Nat) (left level node : Nat) : State × Except MapFail Nat :=
  let slot := node + 8 * walkIndex level va
  let e := BitVec.ofNat 64 (s.hbmNat slot 8)
  if s.hbmBadIn slot 8 then (s, .error (.check slot)) else
  match left with
  | 0 =>
    if pteV e then (s, .error .overlap)
    else
      match s.takeFrame with
      | none => (s, .error .noMemory)
      | some (t, f) =>
        let pa := f * 65536 + va.toNat % 65536
        ((t.clearPage pa).hbmPut none slot 8 (f * 65536 + acc + 1), .ok pa)
  | k + 1 =>
    if !pteV e then
      match s.takeFrame with
      | none => (s, .error .noMemory)
      | some (t, f) => ((t.clearPage (f * 65536)).hbmPut none slot 8 (f * 65536 + 1)).mapFrom va acc k (level + 1) (f * 65536)
    else if pteMalformed level e || pteIsLeaf e then (s, .error .overlap)
    else s.mapFrom va acc k (level + 1) (ptePfn e * 65536 + pteSz e * 4096)

/-- Maps one page. -/
def State.mapPage (s : State) (va : W64) (acc : Nat) : State × Except MapFail Nat := s.mapFrom va acc 3 0 s.troot.toNat

/-- Maps `n` pages from `va` up. -/
def State.mapPages (s : State) (va : W64) (acc n : Nat) : State × Except MapFail Unit :=
  match n with
  | 0 => (s, .ok ())
  | k + 1 =>
    match s.mapPage va acc with
    | (t, .ok _) => t.mapPages (va + 4096) acc k
    | (t, .error e) => (t, .error e)

/-- Takes the leaf that maps a page out of the table, and out of every TLB (R226, R429); an error that the walk meets stops it (R238). -/
def State.unmapPage (s : State) (va : W64) : State × Except Nat Unit :=
  match s.walk va with
  | .leaf slot _ => ((s.hbmPut none slot 8 0).invalidateAll va, .ok ())
  | .fault _ => (s.invalidateAll va, .ok ())
  | .check pa => (s, .error pa)

/-- Takes pages out in turn. -/
def State.unmapPages (s : State) (ps : List W64) : State × Except Nat Unit :=
  match ps with
  | [] => (s, .ok ())
  | p :: rest =>
    match s.unmapPage p with
    | (t, .ok ()) => t.unmapPages rest
    | (t, .error pa) => (t, .error pa)

/-! Service calls (R428, R429). -/

/-- An answer that reports failure. -/
def svcError (code : Nat) : W64 := BitVec.ofNat 64 (2 ^ 63 + code)

/-- The call's entry has been answered. -/
def State.answered428 (s : State) (pa : Nat) : Bool := (s.hbm.read (pa + 0x1F)).getLsbD 7

/-- Writes ANSWER and then sets bit 63 of STATE (R428). -/
def State.answerAt (s : State) (pa : Nat) (v : W64) : State :=
  let t := s.hbmPut none (pa + 0x10) 8 v.toNat
  t.hbmWrite none (pa + 0x1F) [t.hbm.read (pa + 0x1F) ||| 0x80#8]

/-- A call's ANSWER goes to s[d] and the split goes on. -/
def State.giveAnswer (s : State) (g sp n d : Nat) (v : W64) : State :=
  ({ s with calls := s.calls.erase n } : State).modSplit g sp (fun p =>
    { p with regs := if d = 0 then p.regs else p.regs.put d v, spc := p.spc + 4, stall := none })

/-- SVC_ANSWER_RELEASE: an answered call's ANSWER goes to s[B] and the split goes on (R165, R428); an uncorrectable error in the entry is a
machine check in the group (R238; log 101). -/
def State.releaseAnswer (s : State) (g sp : Nat) : State :=
  match (s.split g sp).stall with
  | some (.svc n d) =>
    match s.calls.find n with
    | some c =>
      (match c.answer, c.entry with
       | some v, _ => s.giveAnswer g sp n d v
       | none, some pa =>
         if s.hbmBadIn (pa + 0x10) 16 then s.machineCheck g sp (pa + 0x10) 0 (s.split g sp).spc 0 0xFF
         else if !s.answered428 pa then s
         else s.giveAnswer g sp n d (BitVec.ofNat 64 (s.hbmNat (pa + 0x10) 8))
       | none, none => s)
    | none => s
  | _ => s

/-- SVC_ANSWER_RELEASE (R428). -/
def execSvcAnswerRelease (g sp : Nat) (s : State) : Out := s.eventDo (fun t => t.releaseAnswer g sp)

/-- The service takes the entries of abandoned calls that stand first in the ring (R428), and journals and takes one that meets an
uncorrectable error (R238; log 101). -/
def skipAbandoned (fuel : Nat) (s : State) (d : RingDesc) : State :=
  match fuel with
  | 0 => s
  | k + 1 =>
    let pa := d.entryAt 2 (s.ringConsumer d)
    if s.ringUsed d = 0 then s
    else if s.hbmBadIn pa 32 then skipAbandoned k ((s.deviceCheck pa).ringTake d) d
    else if (s.hbm.read (pa + 0x1F)).getLsbD 6 then skipAbandoned k (s.ringTake d) d
    else s

/-- The service takes the call that stands first in the ring and answers it by `f`; a code beyond the table of R429 is answered with
error 1, and a call of another code is left alone. -/
def State.serve (s : State) (code n : Nat) (f : State → Nat → SvcCall → State × W64) : State :=
  match s.ringDescs.find 2 with
  | none => s
  | some d =>
    if s.ringBad d then s.deviceCheck d.base else
    let t := skipAbandoned (s.ringUsed d) s d
    match t.calls.find n with
    | none => t
    | some c =>
      match c.entry with
      | none => t
      | some pa =>
        if pa != d.entryAt 2 (t.ringConsumer d) || t.ringUsed d == 0 || t.answered428 pa || (decide (c.code.toNat ≤ 4) && c.code.toNat != code) then t
        else
          let r := if c.code.toNat ≤ 4 then f t n c else (t, svcError 1)
          let u := r.1.answerAt pa r.2
          ({ u with calls := u.calls.put n { c with answer := some r.2 } } : State).ringTake d

/-- PING (R429). -/
def execSvcPing (call : Nat) (s : State) : Out := s.eventDo (fun t => t.serve 0 call (fun u _ c => (u, c.arg)))

/-- NOTE (R429): the 64 bytes are journalled as KIND 11. -/
def execSvcNote (call : Nat) (s : State) : Out :=
  s.eventDo (fun t => t.serve 1 call (fun u _ c =>
    if c.arg.extractLsb' 0 3 ≠ 0 then (u, svcError 2)
    else
      match u.readNoted c.arg 64 with
      | (v, .ok bs) => (v.note 11 bs, 0)
      | (v, _) => (v, svcError 2)))

/-- The block of MAP and UNMAP: its address, length in pages and access, when they are allowed. -/
def State.mapBlock (s : State) (va : W64) : State × Option (W64 × Nat × Nat) :=
  match s.readNoted va 24 with
  | (t, .ok bs) =>
    let a := numAt bs 0 8
    let n := numAt bs 8 8
    let acc := numAt bs 16 8
    (t, if a % 4096 = 0 ∧ n % 4096 = 0 ∧ a + n ≤ 2 ^ 56 ∧ 1 ≤ acc ∧ acc ≤ 3 then some (BitVec.ofNat 64 a, n / 4096, acc) else none)
  | (t, _) => (t, none)

def pagesFrom (va : W64) (n : Nat) : List W64 := (List.range n).map (fun i => va + BitVec.ofNat 64 (4096 * i))

/-- MAP (R429): fresh zeroed pages, all of them or none. -/
def execSvcMap (call : Nat) (s : State) : Out :=
  s.eventDo (fun t => t.serve 2 call (fun u _ c =>
    match u.mapBlock c.arg with
    | (v, none) => (v, svcError 2)
    | (v, some (a, n, acc)) =>
      match v.mapPages a (2 * acc) n with
      | (w, .ok ()) => ({ w with svcMaps := w.svcMaps ++ (pagesFrom a n).map (fun p => (c.launch, p, 4096)) }, 0)
      | (_, .error .overlap) => (v, svcError 2)
      | (_, .error .noMemory) => (v, svcError 3)
      | (_, .error (.check pa)) => (v.deviceCheck pa, svcError 3)))

/-- UNMAP (R429): pages that an earlier MAP of the same launch made, all of them or, at an uncorrectable error, none (log 101). -/
def execSvcUnmap (call : Nat) (s : State) : Out :=
  s.eventDo (fun t => t.serve 3 call (fun u _ c =>
    match u.mapBlock c.arg with
    | (v, none) => (v, svcError 2)
    | (v, some (a, n, _)) =>
      let ps := pagesFrom a n
      if ps.all (fun p => v.svcMaps.any (fun m => m.1 == c.launch && m.2.1 == p)) then
        match v.unmapPages ps with
        | (w, .ok ()) => ({ w with svcMaps := w.svcMaps.filter (fun m => !(m.1 == c.launch && ps.contains m.2.1)) }, 0)
        | (_, .error pa) => (v.deviceCheck pa, svcError 2)
      else (v, svcError 2)))

/-! Delivery (R429, R432, R435). -/

/-- A reply goes out on a port. -/
def State.reply (s : State) (port type flags requestId handle status : Nat) (body : List Byte) : State :=
  { s with replies := s.replies ++ [{ port := port, type := type, flags := flags, requestId := requestId, handle := handle,
                                      status := status, body := body }] }

/-- Result data of a sequence (R432); a final part ends its GENERATE with cause END. -/
def State.deliverTo (s : State) (h : Nat) (q : Sequence) (bs : List Byte) (final : Bool) : State :=
  let id := q.generating.getD 0
  let t := s.reply q.port 4 2 id h 0 bs
  if final && q.generating.isSome then
    ({ t with sequences := t.sequences.put h { q with generating := none } } : State).reply q.port 4 1 id h 0 (leBytes 8 0)
  else t

/-- DELIVER (R429, R435; log 39). -/
def execSvcDeliver (call : Nat) (s : State) : Out :=
  s.eventDo (fun t => t.serve 4 call (fun u _ c =>
    match u.readNoted c.arg 32 with
    | (v, .ok b) =>
      if 1 < numAt b 24 8 then (v, svcError 2)
      else
        match v.sequences.find (numAt b 0 8) with
        | none => (v, svcError 5)
        | some q =>
          if q.ended then (v, svcError 5)
          else
            let at0 := BitVec.ofNat 64 (numAt b 8 8)
            match v.firstMarked at0 (numAt b 16 8) with
            | some a => (v.refusedEgress a 0 q.port q.port, svcError 4)
            | none =>
              match v.readNoted at0 (numAt b 16 8) with
              | (w, .ok bs) => (w.deliverTo (numAt b 0 8) q bs (numAt b 24 8 == 1), 0)
              | (w, _) => (w, svcError 2)
    | (v, _) => (v, svcError 2)))

end Sys2Proof.Machine
end

