-- ==== Sys2Proof/Machine/Loader.lean ====
section
/-! DEFINITION. Loading a linked KOF3 image: its form, its pages, its logit programs, graphs and sail entries (R128 to R131, R135, R352,
R358, R410, R431, R432). -/

namespace Sys2Proof.Machine

/-- An entry of the section table (R130). -/
structure Section where
  name : Nat
  kind : Nat
  zeros : Bool
  kidx : Nat
  align : Nat
  va : Nat
  off : Nat
  size : Nat
  rel : Nat
  deriving DecidableEq, Repr

def allZero (bs : List Byte) : Bool := bs.all (· == 0)

def sectionOf (bs : List Byte) : Section :=
  { name := numAt bs 0 4, kind := numAt bs 4 2, zeros := numAt bs 6 2 == 0 && allZero ((bs.drop 0x34).take 12), kidx := numAt bs 8 4, align := numAt bs 0x0C 4,
    va := numAt bs 0x10 8, off := numAt bs 0x18 8, size := numAt bs 0x20 8, rel := numAt bs 0x28 8 + numAt bs 0x30 4 }

/-- The alignment of a kind (R129). -/
def kindAlign (k : Nat) : Nat :=
  match k with
  | 1 | 4 | 13 | 14 => 4
  | 2 | 3 | 5 | 6 | 7 => 8
  | _ => 64

/-- The group of a kind (R135): executable, read-only, writable. -/
def kindGroup (k : Nat) : Nat := if k ≤ 3 then 0 else if k = 5 ∨ k = 7 then 2 else 1

/-- The access of a kind's pages, as R, W and X in bits 1 to 3 (R129). -/
def kindAccess (k : Nat) : Nat :=
  match kindGroup k with
  | 0 => 10
  | 1 => 2
  | _ => 6

/-- A symbol (R131). -/
structure Symbol where
  name : Nat
  sec : Nat
  bind : Nat
  kind : Nat
  value : Nat
  size : Nat
  zeros : Bool
  deriving DecidableEq, Repr

def symbolOf (bs : List Byte) : Symbol :=
  { name := numAt bs 0 4, sec := numAt bs 4 2, bind := numAt bs 6 1, kind := numAt bs 7 1, value := numAt bs 8 8, size := numAt bs 0x10 8,
    zeros := numAt bs 0x18 8 == 0 }

/-- A file's records of `size` bytes each. -/
def recordsAt (im : List Byte) (off size n : Nat) : List (List Byte) := (List.range n).map (fun k => (im.drop (off + size * k)).take size)

def sectionsOf (im : List Byte) : List Section := (recordsAt im (numAt im 0x10 8) 64 (numAt im 0x0C 4)).map sectionOf
def symbolsOf (im : List Byte) : List Symbol := (recordsAt im (numAt im 0x18 8) 32 (numAt im 0x20 4)).map symbolOf

/-- Some bytes are UTF-8 (R128). -/
def utf8Ok (fuel : Nat) (bs : List Byte) : Bool :=
  match fuel, bs with
  | _, [] => true
  | 0, _ => false
  | k + 1, b :: rest =>
    let n := b.toNat
    let more := if n < 0x80 then 0 else if inRange 0xC2 0xDF n then 1 else if inRange 0xE0 0xEF n then 2 else 3
    let second := (rest.headD 0).toNat
    let tail := rest.take more
    (n < 0x80 || inRange 0xC2 0xF4 n) && tail.length == more && tail.all (fun c => inRange 0x80 0xBF c.toNat) &&
      (n != 0xE0 || decide (0xA0 ≤ second)) && (n != 0xED || decide (second ≤ 0x9F)) && (n != 0xF0 || decide (0x90 ≤ second)) &&
      (n != 0xF4 || decide (second ≤ 0x8F)) && utf8Ok k (rest.drop more)

/-- The string table of a file. -/
def stringsOf (im : List Byte) : List Byte := (im.drop (numAt im 0x28 8)).take (numAt im 0x30 8)

/-- The string table holds NUL-terminated UTF-8 names, the empty one first (R128). -/
def stringsOk (bs : List Byte) : Bool := bs.head? == some 0 && bs.getLast? == some 0 && utf8Ok bs.length bs

/-- The header's fields and the tables' places (R128), by offset. -/
def headerChecks (im : List Byte) : List (Nat × Bool) :=
  let len := im.length
  [(0x00, decide (64 ≤ len) && numAt im 0 4 == 0x33464F4B), (0x04, numAt im 4 2 == 3), (0x06, numAt im 6 2 == 2), (0x08, numAt im 8 2 == 2),
   (0x0A, numAt im 0x0A 2 == 0), (0x10, decide (numAt im 0x10 8 + 64 * numAt im 0x0C 4 ≤ len)),
   (0x18, decide (numAt im 0x18 8 + 32 * numAt im 0x20 4 ≤ len)), (0x28, decide (numAt im 0x28 8 + numAt im 0x30 8 ≤ len) && stringsOk (stringsOf im)),
   (0x38, numAt im 0x38 8 == 0)]

/-- One section of an image (R129, R130, R135): its name in the string table, no relocations, its bytes in the file, and its address aligned to
a power of two up to 65,536. -/
def Section.ok (x : Section) (len kernels strings : Nat) : Bool :=
  decide (x.name < strings) && inRange 1 14 x.kind && x.zeros && (if x.kind = 2 ∨ x.kind = 4 then decide (x.kidx < kernels) else x.kidx == 0xFFFFFFFF) &&
    (List.range 17).any (fun k => x.align == 2 ^ k) && decide (kindAlign x.kind ≤ x.align) && x.rel == 0 &&
    (if x.kind = 7 then x.off == 0 else decide (x.off + x.size ≤ len)) &&
    (x.kind == 14 || (x.va % x.align == 0 && decide (x.va + x.size ≤ 2 ^ 56)))

/-- Section `y` stands after `x` as R135 lays them out: in ascending group and code, apart, a new group at a 64 KiB boundary. -/
def Section.before (x y : Section) : Bool :=
  decide (x.va + x.size ≤ y.va) &&
    (decide (kindGroup x.kind < kindGroup y.kind) && y.va % 65536 == 0 || kindGroup x.kind == kindGroup y.kind && decide (x.kind ≤ y.kind))

/-- The sections that are placed, by rising address, with their indices from 1. -/
def placedSections (l : List Section) : List (Nat × Section) :=
  sortBy (fun p => p.2.va) (((l.zipIdx 1).map (fun p => (p.2, p.1))).filter (fun p => p.2.kind != 14))

/-- The first section out of its place. -/
def orderFault (l : List (Nat × Section)) : Option Nat :=
  match l with
  | [] => none
  | [_] => none
  | (_, x) :: (j, y) :: rest => if x.before y then orderFault ((j, y) :: rest) else some j

/-- No other section has the kind and the unit of this one (R130, R135). -/
def sectionTwice (l : List Section) (k : Nat) (x : Section) : Bool :=
  (l.take (k - 1)).any (fun y => y.kind == x.kind && y.kidx == x.kidx)

/-- The sections that hold what a kind of symbol names, by the directives that define such a thing (R120, R129, R131; log 113). -/
def symbolIn (kind sec : Nat) : Bool :=
  match kind with
  | 0 => true
  | 1 => sec == 1
  | 2 => sec == 2
  | 3 => sec == 1 || sec == 8
  | 4 => decide (4 ≤ sec)
  | 5 => sec == 4
  | 6 => sec == 3
  | 7 => sec == 11
  | 8 => sec == 12
  | 9 => sec == 13
  | 10 => sec == 9
  | _ => sec == 6

/-- The kinds of symbol that name one item of 64-byte alignment: a relation, a ring, a graph (R135). -/
def symbolAligned (kind : Nat) : Bool := kind == 7 || kind == 8 || kind == 10

/-- A symbol of an image (R131, R135, R136): defined, its name in the string table, and what it names inside a section that holds such things;
only a symbol of kind none or data may be absolute (log 113). -/
def Symbol.ok (y : Symbol) (secs : List Section) (strings : Nat) : Bool :=
  y.zeros && decide (y.bind ≤ 1) && decide (y.kind ≤ 12) && decide (y.name < strings) &&
    (if y.sec = 0xFFFF then y.kind == 0 || y.kind == 4
     else if y.sec = 0 then false
     else
       match secs[y.sec - 1]? with
       | none => false
       | some x =>
         symbolIn y.kind x.kind &&
           (if y.kind = 5 then inRange 1 (x.size / 12) y.value
            else decide (y.value + y.size ≤ x.size) && (!decide (7 ≤ y.kind) || decide (y.value < x.size)) &&
              (!symbolAligned y.kind || (x.va + y.value) % 64 == 0)))

/-- A name of the string table. -/
def nameOf (im : List Byte) (o : Nat) : List Byte := ((stringsOf im).drop o).takeWhile (· != 0)

/-- Descriptor `k` names the first byte of its unit's `.lcode` and of its `.dict`, where the unit has them (R132, R135). -/
def unitOk (im : List Byte) (secs : List Section) (k : Nat) (d : List Byte) : Bool :=
  let at0 := fun (kind : Nat) => secs.find? (fun x => x.kind == kind && x.kidx == k)
  (match at0 2 with
   | some x => numAt d 0x18 8 == x.va
   | none => true) &&
  (match at0 4 with
   | some x => numAt d 0x20 8 == x.va && x.size == 12 * numAt d 0x0C 2
   | none => numAt d 0x0C 2 == 0 && numAt d 0x20 8 == 0)

/-- The kernel descriptors of a file. -/
def kernsOf (im : List Byte) (secs : List Section) : List (List Byte) :=
  match secs.find? (fun x => x.kind == 8) with
  | some x => recordsAt im x.off 64 (x.size / 64)
  | none => []

def noTwice (l : List (List Byte)) : Bool :=
  match l with
  | [] => true
  | x :: rest => !rest.contains x && noTwice rest

/-- THE FORM OF AN IMAGE: the failing section's index, 0 for the file's header and symbols, and the offset (R135, R432; log 43). -/
def imageFault (im : List Byte) : Option (Nat × Nat) :=
  match (headerChecks im).find? (fun p => !p.2) with
  | some (o, _) => some (0, o)
  | none =>
    let secs := sectionsOf im
    let kernels := numAt im 0x24 4
    match (secs.zipIdx 1).find? (fun p => !p.1.ok im.length kernels (numAt im 0x30 8) || sectionTwice secs p.2 p.1) with
    | some (_, k) => some (k, 0)
    | none =>
      match orderFault (placedSections secs), (placedSections secs).head?.filter (fun p => p.2.va % 65536 != 0) with
      | some k, _ => some (k, 0)
      | none, some (k, _) => some (k, 0)
      | none, none =>
        if (secs.filter (fun x => x.kind == 8)).foldl (fun n x => n + x.size) 0 ≠ 64 * kernels then some (0, 0x24)
        else if !((kernsOf im secs).zipIdx).all (fun p => unitOk im secs p.2 p.1) then some ((secs.findIdx (fun x => x.kind == 8)) + 1, 0)
        else if !(symbolsOf im).all (fun y => y.ok secs (numAt im 0x30 8)) then some (0, 0x18)
        else if !noTwice (((symbolsOf im).filter (fun y => y.bind == 1)).map (fun y => nameOf im y.name)) then some (0, 0x18)
        else none

/-- The bytes of a section in the file. -/
def Section.bytes (x : Section) (im : List Byte) : List Byte := if x.kind = 7 then [] else (im.drop x.off).take x.size

/-- The symbols of a kind, in the order of the image: the section's index, the section, the offset in it. -/
def itemsAt (im : List Byte) (kind : Nat) : List (Nat × Section × Nat) :=
  let secs := sectionsOf im
  sortBy (fun p => p.2.1.va + p.2.2) ((symbolsOf im).filterMap (fun y =>
    if y.kind = kind ∧ y.sec ≠ 0 then (secs[y.sec - 1]?).map (fun x => (y.sec, x, y.value)) else none))

/-! The logit programs (R410). -/

/-- The words up to the first `end`, when all are legal and it comes within `n` words. -/
def progWords (n : Nat) (bs : List Byte) : Option (List W32) :=
  match n with
  | 0 => none
  | k + 1 =>
    let w := BitVec.ofNat 32 (numAt bs 0 4)
    if bs.length < 4 ∨ !(wwordOf w).ok then none
    else if (wwordOf w).op = 0x12 then some [w]
    else (progWords k (bs.drop 4)).map (w :: ·)

/-- An empty entry of the program store. -/
def State.freeProg (s : State) : Option Nat := (List.range 256).find? (fun i => s.wprogs.get 0 (i * 64) == 0)

/-- Fills a store entry: the words after `end` are zero (R410). -/
def State.storeProg (s : State) (id : Nat) (ws : List W32) : State :=
  { s with wprogs := (List.range 64).foldl (fun m i => m.put (id * 64 + i) (ws.getD i 0)) s.wprogs }

/-! Loading. -/

/-- Why LOAD stops. -/
inductive LoadFail where
  | refused (sec off : Nat)
  | noRoom
  deriving DecidableEq, Repr

/-- Writes bytes through the table, whatever the pages' access, each at the page that maps it. -/
def State.pokeVirt (s : State) (va : W64) (bs : List Byte) : State :=
  match bs with
  | [] => s
  | b :: rest =>
    match s.walk va with
    | .leaf _ e => (s.hbmWrite none (leafPa e va) [b]).pokeVirt (va + 1) rest
    | .fault _ | .check _ => s.pokeVirt (va + 1) rest

/-- The pages of the placed sections, once each, with their access. -/
def imagePages (l : List Section) : List (Nat × Nat) :=
  l.foldl (fun m x => (List.range ((x.va + x.size + 4095) / 4096 - x.va / 4096)).foldl (fun m i =>
    if m.any (fun p => p.1 == x.va / 4096 + i) then m else m ++ [(x.va / 4096 + i, kindAccess x.kind)]) m) []

def State.mapImage (s : State) (l : List (Nat × Nat)) : State × Except LoadFail Unit :=
  match l with
  | [] => (s, .ok ())
  | (p, acc) :: rest =>
    match s.mapPage (BitVec.ofNat 64 (4096 * p)) acc with
    | (t, .ok _) => t.mapImage rest
    | (t, .error _) => (t, .error .noRoom)

/-- The programs, each under its own id. -/
def State.loadProgs (s : State) (im : List Byte) (l : List (Nat × Section × Nat)) : State × Except LoadFail (List Nat) :=
  match l with
  | [] => (s, .ok [])
  | (k, x, o) :: rest =>
    match progWords 64 ((x.bytes im).drop o), s.freeProg with
    | none, _ => (s, .error (.refused k o))
    | some _, none => (s, .error .noRoom)
    | some ws, some id =>
      match (s.storeProg id ws).loadProgs im rest with
      | (t, .ok ids) => (t, .ok (id :: ids))
      | (t, .error e) => (t, .error e)

/-- The graphs, each under its own id (R358). -/
def State.loadGraphs (s : State) (l : List (Nat × Section × Nat)) : State × Except LoadFail (List Nat) :=
  match l with
  | [] => (s, .ok [])
  | (k, x, o) :: rest =>
    match s.readGraph (BitVec.ofNat 64 (x.va + o)) with
    | (t, .refused _) => (t, .error (.refused k o))
    | (t, .ok g image) =>
      if !t.graphRoom g then (t, .error .noRoom)
      else
        let u := t.loadGraph g image
        match u.1.loadGraphs rest with
        | (v, .ok ids) => (v, .ok (u.2 :: ids))
        | (v, .error e) => (v, .error e)

/-- A SAIL.W by the service: the times of its last firing stay (R352, R353). -/
def State.putSail (s : State) (k : Nat) (e : SailEntry) : State :=
  { s with sail := s.sail.put k { e with lastDue := (s.sail.get SailEntry.reset k).lastDue } }

/-- The entries of a `.sail` section, each written as by SAIL.W, with the image's graph indices replaced by resident ids; the index of an entry
that is not VALID need name no graph (R352; log 43). -/
def State.loadSail (s : State) (sec : Nat) (ids : List Nat) (n k : Nat) (bs : List Byte) : State × Except LoadFail Unit :=
  match n with
  | 0 => (s, .ok ())
  | m + 1 =>
    if 4095 < k then (s, .error (.refused sec (32 * k)))
    else
      match sailOf (bs.take 32) s.time, ids[numAt bs 8 2]? with
      | some e, some id => (s.putSail k { e with graph := id }).loadSail sec ids m (k + 1) (bs.drop 32)
      | some e, none => if e.valid && e.graph != 0xFFFF then (s, .error (.refused sec (32 * k)))
        else (s.putSail k e).loadSail sec ids m (k + 1) (bs.drop 32)
      | none, _ => (s, .error (.refused sec (32 * k)))

def State.loadSails (s : State) (im : List Byte) (ids : List Nat) (l : List (Nat × Section)) : State × Except LoadFail Unit :=
  match l with
  | [] => (s, .ok ())
  | (k, x) :: rest =>
    match s.loadSail k ids (x.size / 32) 0 (x.bytes im) with
    | (t, .ok ()) => t.loadSails im ids rest
    | (t, .error e) => (t, .error e)

/-- LOADS AN IMAGE: the resident graph ids, the program ids and the count of kernels (R431, R432). -/
def State.loadImage (s : State) (im : List Byte) : State × Except LoadFail (List Nat × List Nat × Nat) :=
  match imageFault im with
  | some (k, o) => (s, .error (.refused k o))
  | none =>
    let placed := placedSections (sectionsOf im)
    match s.mapImage (imagePages (placed.map (·.2))) with
    | (t, .error e) => (t, .error e)
    | (t, .ok ()) =>
      let u := placed.foldl (fun v p => v.pokeVirt (BitVec.ofNat 64 p.2.va) (p.2.bytes im)) t
      match u.loadProgs im (itemsAt im 9) with
      | (v, .error e) => (v, .error e)
      | (v, .ok progs) =>
        match v.loadGraphs (itemsAt im 10) with
        | (w, .error e) => (w, .error e)
        | (w, .ok ids) =>
          match w.loadSails im ids (placed.filter (fun p => p.2.kind == 10)) with
          | (y, .error e) => (y, .error e)
          | (y, .ok ()) => (y, .ok (ids, progs, numAt im 0x24 4))

end Sys2Proof.Machine
end

