-- ==== Sys2Proof/Machine/Requests.lean ====
section
/-! DEFINITION. The requests of clients over Ultra Ethernet and their replies, stop strings, the journal's reading and replay (R423, R430 to
R433, R439 to R442, R444). -/

namespace Sys2Proof.Machine

/-- The bytes of a request as received (R431). -/
def requestBytes (r : Request) : List Byte :=
  leBytes 4 r.magic ++ leBytes 2 r.type ++ leBytes 2 r.flags ++ leBytes 8 r.requestId ++ leBytes 8 r.handle ++
    leBytes 4 r.body.length ++ leBytes 4 r.status ++ r.body

/-- The transport supports the message: ROD, an untagged send, TSS, one of the 16,384 contexts, and up to 64 MiB; the device refuses any
other (R430; log 102). -/
def requestSupported (r : Request) : Bool :=
  r.delivery == .rod && r.op == .send && r.secured && decide (r.context < 16384) && decide ((requestBytes r).length ≤ 67108864)

/-- A request can arrive: the service has opened its ports, this one is up, and the transport supports the message (R430, R442, R445). -/
def State.taking (s : State) (r : Request) : Bool :=
  s.portsOpen && !s.heldInReset && decide (r.port < 4) && s.portsUp.get true r.port && requestSupported r

/-- The TYPE of some request (R431). -/
def knownType (type : Nat) : Bool := inRange 1 11 (type % 65536)

/-- The header is as R431 and R432 give it: MAGIC, TYPE, the zero field STATUS, and no FLAGS bit beyond bit 2. -/
def headerOk (r : Request) : Bool :=
  decide (r.magic = 0x54494C52) && knownType r.type && decide (r.status = 0) && decide (r.flags < 8)

/-- The one reply of a request, with FINAL set (R432). -/
def State.endRequest (s : State) (r : Request) (type status : Nat) (body : List Byte) : State :=
  s.reply r.port type 1 r.requestId r.handle status body

/-- A request is refused by its one reply; a GENERATE's is its final reply, whose body names the cause ERROR (R432). -/
def State.refuse (s : State) (r : Request) (type status : Nat) : State :=
  s.endRequest r type status (if type = 4 then leBytes 8 4 else [])

/-- In a replay, the request is the next input of the journal that is fed; it is taken off the journal's list with the keys before it (R441). -/
def State.fed (s : State) (bs : List Byte) : Option State :=
  match s.replay with
  | none => some s
  | some l =>
    match l.find? JEntry.input with
    | some e =>
      if e.kind = 1 ∧ e.body = pad8 bs then some (s.feed ((l.erase e).filter (fun x => x.kind != 3 || decide (e.seq < x.seq)))) else none
    | none => none

/-- TAKING A REQUEST (R431, R432, R439, R441): it is journalled before it has an effect; in a replay it is taken off what is fed; a bad header
refuses it, its TYPE among the rest, and while a replay runs one that is not fed is refused unless it only reads or sets the cap (log 40). A
request of another known TYPE is not this row's. -/
def State.take (s : State) (r : Request) (type : Nat) (whileReplay : Bool) (f : State → State) : State :=
  if !s.taking r || (knownType r.type && r.type % 65536 != type) then s
  else
    let t := s.note 1 (requestBytes r)
    let u := t.fed (requestBytes r)
    if !headerOk r then (u.getD t).refuse r (r.type % 65536) 1
    else
      match u with
      | some v => f v
      | none => if whileReplay then f t else t.refuse r type 9

/-- The sequence that a request's HANDLE names, still open. -/
def State.withSequence (s : State) (r : Request) (type : Nat) (f : State → Sequence → State) : State :=
  match s.sequences.find r.handle with
  | none => s.refuse r type 3
  | some q => if q.ended then s.refuse r type 8 else f s q

def State.putSequence (s : State) (h : Nat) (q : Sequence) : State := { s with sequences := s.sequences.put h q }

/-! LOAD. -/

/-- LOAD (R431, R432): a refused image leaves nothing loaded. -/
def execReqLoad (r : Request) (s : State) : Out :=
  s.eventDo (fun t => t.take r 1 false (fun u =>
    if r.body.length < 8 then u.endRequest r 1 2 []
    else
      match u.loadImage (r.body.drop 8) with
      | (_, .error (.refused k o)) => u.endRequest r 1 4 (leBytes 8 k ++ leBytes 8 o)
      | (_, .error .noRoom) => u.endRequest r 1 5 []
      | (v, .ok (graphs, progs, kernels)) =>
        let id := BitVec.ofNat 64 (numAt r.body 0 8)
        ({ v with models := if v.models.contains id then v.models else v.models ++ [id] } : State).endRequest r 1 0
          (leBytes 4 graphs.length ++ leBytes 4 progs.length ++ leBytes 4 kernels ++ leBytes 4 0 ++
            pad8 (graphs.flatMap (leBytes 2) ++ progs.flatMap (leBytes 1)))))

/-! OPEN. -/

/-- The stop strings of an OPEN body: `n` of them, each padded to 8 bytes, to the body's end (R432). -/
def stopsOf (n : Nat) (bs : List Byte) : Option (List (List Byte)) :=
  match n with
  | 0 => if bs.isEmpty then some [] else none
  | k + 1 =>
    let len := numAt bs 0 2
    let size := roundUp (2 + len) 8
    if bs.length < size ∨ !allZero ((bs.take size).drop (2 + len)) then none
    else (stopsOf k (bs.drop size)).map (((bs.drop 2).take len) :: ·)

/-- The HANDLE of a new sequence: in a replay the one that the journal gives with its key (R441; log 95), so that the requests that follow meet
the same sequence. -/
def State.openHandle (s : State) : State × Nat :=
  match s.replay.bind (fun l => (l.find? (fun e => e.kind == 3)).map (fun e => (l, e))) with
  | some (l, e) =>
    let h := numAt e.body 0 8
    ({ s.feed (l.erase e) with nextHandle := max s.nextHandle (h + 1) }, h)
  | none => ({ s with nextHandle := s.nextHandle + 1 }, s.nextHandle)

/-- OPEN (R431 to R433, R439). -/
def execReqOpen (r : Request) (s : State) : Out :=
  s.eventDo (fun t => t.take r 2 false (fun u =>
    let b := r.body
    let model := BitVec.ofNat 64 (numAt b 0 8)
    let count := numAt b 0x58 4
    if b.length < 0x60 ∨ numAt b 0x5C 4 ≠ 0 ∨ 2 ≤ numAt b 0x14 4 then u.endRequest r 2 2 []
    else if 8 < count then u.endRequest r 2 6 []
    else
      match stopsOf count (b.drop 0x60) with
      | none => u.endRequest r 2 2 []
      | some stops =>
        if !u.models.contains model then u.endRequest r 2 3 []
        else if 255 < numAt b 0x10 4 ∨ stops.any (fun x => decide (x.length = 0 ∨ 64 < x.length)) then u.endRequest r 2 6 []
        else
          let (v, h) := u.openHandle
          let q : Sequence :=
            { port := r.port, model := model, key := BitVec.ofNat 64 (numAt b 8 8), prog := numAt b 0x10 4,
              params := (List.range 16).map (fun i => BitVec.ofNat 32 (numAt b (0x18 + 4 * i) 4)), stops := stops,
              holdback := numAt b 0x14 4 == 0, tokens := [], held := [], generating := none, ended := false, limit := 0 }
          ((v.note 3 (leBytes 8 h ++ leBytes 8 (numAt b 8 8))).putSequence h q).reply r.port 2 1
            r.requestId h 0 []))

/-! APPEND. -/

/-- One probe of the prefix table by the service (R420). -/
def servicePresent (fuel : Nat) (s : State) (h : W64) (model e : Nat) : State × Bool :=
  match fuel with
  | 0 => (s, false)
  | k + 1 =>
    match s.readNoted (entryAt s e) 32 with
    | (t, .ok bs) =>
      let x := pfxEntryOf bs
      if x.page = 0 then (t, false)
      else if x.page ≠ 1 ∧ x.hash = h ∧ x.model = model then (t, true)
      else servicePresent k t h model ((e + 1) % s.prefixSize)
    | (t, _) => (t, false)

/-- The leading blocks that the table holds. -/
def serviceBlocks (s : State) (model : Nat) (hs : List W64) : State × Nat :=
  match hs with
  | [] => (s, 0)
  | h :: rest =>
    match servicePresent 64 s h model (h.toNat % s.prefixSize) with
    | (t, true) =>
      let u := serviceBlocks t model rest
      (u.1, u.2 + 1)
    | (t, false) => (t, 0)

/-- APPEND (R423, R431). -/
def execReqAppend (r : Request) (s : State) : Out :=
  s.eventDo (fun t => t.take r 3 false (fun u =>
    let n := numAt r.body 0 4
    if r.body.length ≠ 8 + 4 * n ∨ numAt r.body 4 4 ≠ 0 then u.endRequest r 3 2 []
    else
      u.withSequence r 3 (fun v q =>
        let tokens := q.tokens ++ (List.range n).map (fun i => numAt r.body (8 + 4 * i) 4)
        let w := serviceBlocks v (q.model.toNat % 2 ^ 32) (hashesOf (tokens.length / 16) tokens)
        (w.1.putSequence r.handle { q with tokens := tokens }).endRequest r 3 0 (leBytes 4 w.2 ++ leBytes 4 0))))

/-! GENERATE and stop strings (R433). -/

/-- Where a stop string starts that ends at byte `e` of a text; of several, the longest (log 41). -/
def stopEnding (stops : List (List Byte)) (text : List Byte) (e : Nat) : Option Nat :=
  argMin id (stops.filterMap (fun x =>
    if x.length ≤ e ∧ (text.drop (e - x.length)).take x.length = x then some (e - x.length) else none))

/-- The first stop string that completes in the `n` bytes after byte `e`: its start. -/
def firstStop (stops : List (List Byte)) (text : List Byte) (e n : Nat) : Option Nat :=
  match n with
  | 0 => none
  | k + 1 =>
    match stopEnding stops text (e + 1) with
    | some i => some i
    | none => firstStop stops text (e + 1) k

/-- The length of the longest suffix of a text that is a proper prefix of a stop string, of at most `n` bytes. -/
def heldLength (stops : List (List Byte)) (text : List Byte) (n : Nat) : Nat :=
  match n with
  | 0 => 0
  | k + 1 =>
    if k + 1 ≤ text.length ∧ stops.any (fun x => decide (k + 1 < x.length) && x.take (k + 1) == text.drop (text.length - (k + 1))) then k + 1
    else heldLength stops text k

/-- What a committed token delivers, what is kept for matching, and the retract count when it completes a stop string. -/
structure Committed where
  send : List Byte
  held : List Byte
  stop : Option Nat
  deriving DecidableEq, Repr

/-- COMMITTING a token's bytes (R433). `held` are the undelivered bytes with holdback, and without it the last bytes delivered. -/
def Sequence.commit (q : Sequence) (bs : List Byte) : Committed :=
  let text := q.held ++ bs
  match firstStop q.stops text q.held.length bs.length with
  | some i =>
    if q.holdback then { send := text.take i, held := [], stop := some 0 }
    else { send := bs.take (i - q.held.length), held := [], stop := some (q.held.length - i) }
  | none =>
    if q.holdback then
      let n := text.length - heldLength q.stops text 63
      { send := text.take n, held := text.drop n, stop := none }
    else { send := bs, held := text.drop (text.length - 63), stop := none }

/-- Ends a GENERATE with its one final reply (R431, R432): 0 END, 1 STOP, 2 LIMIT, 3 CANCEL, 4 ERROR. -/
def State.endGenerate (s : State) (h : Nat) (q : Sequence) (cause status : Nat) : State :=
  match q.generating with
  | none => s
  | some id => (s.putSequence h { q with generating := none }).reply q.port 4 1 id h status (leBytes 8 cause)

/-- Commits tokens one by one until the generation ends (R431, R433). -/
def commitTokens (s : State) (h : Nat) (tokens : List Nat) : State :=
  match tokens with
  | [] => s
  | t :: rest =>
    match s.sequences.find h with
    | none => s
    | some q =>
      match q.generating with
      | none => s
      | some id =>
        if q.limit = 0 then s.endGenerate h q 2 0
        else
          let c := q.commit (Config.tokenBytes q.model.toNat t)
          let q1 := { q with tokens := q.tokens ++ [t], held := c.held, limit := q.limit - 1 }
          let s1 := s.putSequence h q1
          let s2 := if c.send.isEmpty then s1 else s1.reply q.port 4 2 id h 0 c.send
          match c.stop with
          | some k => (if q.holdback then s2 else s2.reply q.port 4 4 id h 0 (leBytes 4 k ++ leBytes 4 0)).endGenerate h q1 1 0
          | none => if q1.limit = 0 then s2.endGenerate h q1 2 0 else commitTokens s2 h rest

/-- What the model does to a generation by itself: 0 its natural end, else an error with its STATUS; with STATUS 8 the sequence has ended
(R418, R432). -/
def State.finishBy (s : State) (h : Nat) (fin : Option Nat) : State :=
  match fin, s.sequences.find h with
  | some k, some q =>
    if q.generating.isNone then s
    else if k = 0 then s.endGenerate h q 0 0
    else s.endGenerate h { q with ended := q.ended || k == 8 } 4 k
  | _, _ => s

/-- GENERATE (R431): taken when the sequence does not generate. With `more` the request has been taken before, and its generation goes on
with the tokens that the model commits and the end it comes to (log 41). -/
def execReqGenerate (r : Request) (tokens : GenerateTurn) (fin : Option Nat) (s : State) : Out :=
  s.eventDo (fun t =>
    if tokens.more then
      if ((t.sequences.find r.handle).bind (·.generating)) = some r.requestId then (commitTokens t r.handle tokens.tokens).finishBy r.handle fin
      else t
    else
      t.take r 4 false (fun u =>
        let frames := numAt r.body 4 4
        if r.body.length ≠ 16 + 32 * frames ∨ numAt r.body 8 8 ≠ 0 then u.refuse r 4 2
        else
          u.withSequence r 4 (fun v q =>
            if q.generating.isSome then v.refuse r 4 7
            else
              let q1 := { q with generating := some r.requestId, limit := numAt r.body 0 4 }
              let w := v.putSequence r.handle q1
              if q1.limit = 0 ∧ frames = 0 then w.endGenerate r.handle q1 2 0
              else (commitTokens w r.handle tokens.tokens).finishBy r.handle fin)))

/-- CANCEL (R431): the GENERATE's final reply names CANCEL, and the CANCEL has its own. -/
def execReqCancel (r : Request) (s : State) : Out :=
  s.eventDo (fun t => t.take r 5 false (fun u =>
    if !r.body.isEmpty then u.endRequest r 5 2 []
    else u.withSequence r 5 (fun v q => (v.endGenerate r.handle q 3 0).endRequest r 5 0 [])))

/-- CLOSE (R431): the sequence has ended, and there is no reply. -/
def execReqClose (r : Request) (s : State) : Out :=
  s.eventDo (fun t => t.take r 6 false (fun u =>
    if !r.body.isEmpty then u.endRequest r 6 2 []
    else u.withSequence r 6 (fun v q => (v.putSequence r.handle { q with ended := true }).endGenerate r.handle { q with ended := true } 3 0)))

/-! SAIL. -/

/-- The entries of a SAIL body, when every one is in range. -/
def sailList (n : Nat) (now : Nat) (bs : List Byte) : Option (List (Nat × SailEntry)) :=
  match n with
  | 0 => some []
  | k + 1 =>
    match sailOf ((bs.drop 8).take 32) now, sailList k now (bs.drop 40) with
    | some e, some l => if 4095 < numAt bs 0 8 then none else some ((numAt bs 0 8, e) :: l)
    | _, _ => none

/-- SAIL (R352, R432): PERIOD and EPOCH hold from now on, the entries are written, and the reply gives the skips counted before (log 42). -/
def execReqSail (r : Request) (s : State) : Out :=
  s.eventDo (fun t => t.take r 7 false (fun u =>
    let n := numAt r.body 0x10 4
    let period := numAt r.body 0 8
    if r.body.length ≠ 0x18 + 40 * n ∨ numAt r.body 0x14 4 ≠ 0 then u.endRequest r 7 2 []
    else if !inRange 1000 10000000000 period then u.endRequest r 7 6 []
    else
      match sailList n u.time (r.body.drop 0x18) with
      | none => u.endRequest r 7 6 []
      | some l =>
        let skips := l.map (fun p => (u.sail.get SailEntry.reset p.1).skips)
        let v := l.foldl (fun w p => w.putSail p.1 p.2) { u with sailPeriod := period, sailEpoch := numAt r.body 8 8, sailFrom := u.time }
        v.endRequest r 7 0 (skips.flatMap (fun k => leBytes 4 k.toNat))))

/-! STATS, POWER and ATTEST. -/

def statRec (id unit value : Nat) : List Byte := leBytes 4 id ++ leBytes 4 unit ++ leBytes 8 value

def State.island (s : State) (i : Nat) : Island := s.islands.get { point := 0, temp := 0, power := 0, word := 0 } i

/-- The counters of STATS (R432). Corrected errors of the stacks are counted after those of the islands. -/
def State.statsBody (s : State) : List Byte :=
  (List.range 24).flatMap (fun i => statRec 1 i (s.corrected.get 0 i)) ++ (List.range 8).flatMap (fun i => statRec 2 i (s.corrected.get 0 (24 + i))) ++
    (List.range 24).flatMap (fun i => statRec 3 i (s.island i).power) ++ (List.range 24).flatMap (fun i => statRec 4 i (s.island i).point) ++
    (List.range 24).flatMap (fun i => statRec 5 i (s.island i).temp) ++ s.sail.flatMap (fun p => statRec 6 p.1 p.2.skips.toNat) ++
    (List.range 8).flatMap (fun k => statRec 7 k (s.dropped.get 0 k)) ++ statRec 8 0 s.powerCap

/-- STATS (R432). -/
def execReqStats (r : Request) (s : State) : Out :=
  s.eventDo (fun t => t.take r 8 true (fun u => if !r.body.isEmpty then u.endRequest r 8 2 [] else u.endRequest r 8 0 u.statsBody))

/-- The device id as the manifest and the report give it (R434). -/
def State.idField (s : State) : List Byte := leBytes 2 (s.deviceId.getD 0xFFFF)

/-- The attestation report, signed (R442; log 20). -/
def State.attestBody (s : State) (nonce : List Byte) : List Byte :=
  let m := s.idField ++ Config.firmwareVersions ++ s.measure ++ nonce ++ leBytes 8 s.time
  m ++ identitySign s.identity s.freeNo m

/-- ATTEST (R442). -/
def execReqAttest (r : Request) (s : State) : Out :=
  s.eventDo (fun t => t.take r 10 true (fun u =>
    if r.body.length ≠ 32 then u.endRequest r 10 2 []
    else ({ u with freeNo := u.freeNo + 1 } : State).endRequest r 10 0 (u.attestBody r.body)))

/-- POWER (R432, R444). -/
def execReqPower (r : Request) (s : State) : Out :=
  s.eventDo (fun t => t.take r 11 true (fun u =>
    let cap := numAt r.body 0 4
    if r.body.length ≠ 8 ∨ numAt r.body 4 4 ≠ 0 then u.endRequest r 11 2 []
    else if !inRange 1000 1800 cap then u.endRequest r 11 6 []
    else ({ u with powerCap := cap } : State).endRequest r 11 0 (leBytes 4 cap ++ leBytes 4 0)))

/-! The journal (R440, R441). -/

/-- The entries that a replay feeds: requests but for those about the journal, firings and skips, keys with their HANDLEs, and stage
launches (R441). -/
def JEntry.feeds (e : JEntry) : Bool := (e.kind == 1 && numAt e.body 4 2 != 9) || e.kind == 2 || e.kind == 3 || e.kind == 7

/-- A JOURNAL request by its OP (R432, R441): a read gives the entries of its range, a replay starts feeding them. -/
def State.journalRequest (s : State) (r : Request) : Out :=
  s.eventDo (fun t => t.take r 9 (numAt r.body 0 4 == 0) (fun u =>
    let op := numAt r.body 0 4
    if r.body.length ≠ 0x18 ∨ numAt r.body 4 4 ≠ 0 then u.endRequest r 9 2 []
    else if 1 < op then u.endRequest r 9 6 []
    else
      let l := u.journal.filter (fun e => inRange (numAt r.body 8 8) (numAt r.body 0x10 8) e.seq)
      if op = 0 then u.endRequest r 9 0 (l.flatMap JEntry.bytes)
      else (u.startReplay (l.filter JEntry.feeds)).endRequest r 9 0 []))

/-- JOURNAL, a read (R432; log 6). -/
def execReqJournalRead (r : Request) (s : State) : Out := s.journalRequest r
/-- JOURNAL, a replay (R441; log 6). -/
def execReqJournalReplay (r : Request) (s : State) : Out := s.journalRequest r

end Sys2Proof.Machine
end

