-- ==== Sys2Proof/Machine/Package.lean ====
section
/-! DEFINITION. What happens to the package from outside: links, ports, the 1588 discipline, power, the board controller, and boot (R434,
R442 to R448). -/

namespace Sys2Proof.Machine

/-! The Shroud links (R434). -/

/-- What a link comes to once link 0 has given the device its id: it is up when it met the same port id, and else it stays down; the events
ring is told (R427, R434). -/
def State.settleLink (s : State) (j : Nat) (port : Option Nat) : State :=
  let up := port.isSome && port == s.deviceId
  ({ s with links := s.links.put j { up := up, port := port } } : State).event (if up then 2 else 1) 0 j (port.getD 0xFFFF)

/-- LINK_TRAINING (R434): before link 0 has trained, another link only learns its port id. -/
def State.trainLink (s : State) (j : Nat) (port : Option Nat) : State :=
  if 15 < j then s
  else if j = 0 ∧ s.deviceId.isNone ∧ port.isSome then
    let t := ({ s with deviceId := port } : State).settleLink 0 port
    (s.links.filter (fun p => p.1 != 0)).foldl (fun u p => u.settleLink p.1 p.2.port) t
  else if j ≠ 0 ∧ s.deviceId.isNone ∧ port.isSome then { s with links := s.links.put j { up := false, port := port } }
  else s.settleLink j port

/-- The first stage trains the links in step 3 of boot; they train again after it, and never in a package held in reset (R442, R445). -/
def State.linksReady (s : State) : Bool := decide (3 ≤ s.bootStep) && !s.heldInReset

/-- LINK_TRAINING (R434). -/
def execLinkTraining (link : Nat) (port : Option Nat) (s : State) : Out :=
  s.eventDo (fun t => if t.linksReady then t.trainLink link port else t)

/-- LINK_DOWN (R427). -/
def execLinkDown (link : Nat) (s : State) : Out :=
  s.eventDo (fun t =>
    match t.links.find link with
    | some l => if l.up then ({ t with links := t.links.put link { l with up := false } } : State).event 1 0 link (l.port.getD 0xFFFF) else t
    | none => t)

/-! The Ethernet ports (R430, R437). -/

/-- ETHERNET_PORT_DOWN (R437). -/
def execEthernetPortDown (port : Nat) (s : State) : Out :=
  s.eventDo (fun t => if port < 4 then { t with portsUp := t.portsUp.put port false } else t)

/-- ETHERNET_PORT_UP (R437). -/
def execEthernetPortUp (port : Nat) (s : State) : Out :=
  s.eventDo (fun t => if port < 4 then { t with portsUp := t.portsUp.put port true } else t)

/-! TIME (R448). -/

/-- TIME follows the best master by an offset, positive with TIME behind it: at 1 ms or more behind, TIME steps forward, and else it slews
(R448). -/
def State.discipline (s : State) (ns : Int) : State :=
  if 1000000 ≤ ns then { s with time := s.time + ns.toNat, slew := 0, slewRem := 0 } else { s with slew := ns }

/-- PTP_OFFSET_UPDATE: TIME follows the master from the synchronization of boot step 3 on (R442, R448). -/
def execPtpOffsetUpdate (ns : Int) (s : State) : Out :=
  s.eventDo (fun t => if t.linksReady then t.discipline ns else t)

/-! Power (R443, R444). -/

def State.putIsland (s : State) (i : Nat) (x : Island) : State := { s with islands := s.islands.put i x }

/-- The service may move an island to a point (R443, R444; log 44): only core and memory islands move; core islands are lowered first, memory
islands once no core island can be lowered, and the reverse when they are raised; nothing is raised while the average is above the cap. -/
def State.pointOk (s : State) (above : Bool) (i pt : Nat) : Bool :=
  let old := (s.island i).point
  decide (i < 20) && decide (pt ≤ 6) &&
    (if old < pt then decide (i < 16) || (List.range 16).all (fun c => (s.island c).point == 6)
     else if pt < old then !above && (decide (16 ≤ i) || (List.range 4).all (fun m => (s.island (16 + m)).point == 0))
     else true)

/-- The samples of the last 10 ms, one every 100 µs (R444). -/
def keptSamples : Nat := 100

/-- The average of the window is above the cap. -/
def State.overCap (s : State) : Bool := decide (s.powerCap * 1000 * s.powers.length < s.powers.foldl (· + ·) 0)

/-- The island that is lowered next: the first core island that can be, else the first memory island (R444). -/
def State.lowerable (s : State) : Option Nat := (List.range 20).find? (fun i => decide ((s.island i).point < 6))

/-- With the average above the cap at least one island goes down a point at every sample, while one can (R444; log 44). -/
def State.enforceCap (s old : State) : State :=
  if s.overCap && !(List.range 20).any (fun i => decide ((old.island i).point < (s.island i).point)) then
    match s.lowerable with
    | some i => s.putIsland i { s.island i with point := (s.island i).point + 1 }
    | none => s
  else s

/-- POWER_SAMPLE: package power in mW, each island's power and temperature, and the points that the service chooses (R444). -/
def State.samplePower (s : State) (mw : Nat) (islands : List (Nat × Nat × Nat)) (points : List (Nat × Nat)) : State :=
  let t : State := { s with powers := (mw :: s.powers).take keptSamples }
  let u := islands.foldl (fun v p => if p.1 < 24 then v.putIsland p.1 { v.island p.1 with power := p.2.1, temp := p.2.2 } else v) t
  (points.foldl (fun v p => if v.pointOk t.overCap p.1 p.2 then v.putIsland p.1 { v.island p.1 with point := p.2 } else v) u).enforceCap s

/-- POWER_SAMPLE (R444). -/
def execPowerSample (mw : Nat) (islands : List (Nat × Nat × Nat)) (points : List (Nat × Nat)) (s : State) : Out :=
  s.eventDo (fun t => t.samplePower mw islands points)

/-- THERMAL_TRIP: a core island drops to point 6 by itself (R427, R444). -/
def execThermalTrip (island temp : Nat) (s : State) : Out :=
  s.eventDo (fun t => if island < 16 then
    (t.putIsland island { t.island island with point := 6, temp := temp }).event 4 0 island temp else t)

/-- REGULATOR_FAULT (R427). -/
def execRegulatorFault (island : Nat) (word : W64) (s : State) : Out :=
  s.eventDo (fun t => if island < 24 then (t.putIsland island { t.island island with word := word }).event 5 0 island word.toNat else t)

/-! Reset and boot (R442, R445, R447). -/

/-- The package is reset: everything is as after reset but the contents of HBM and the model's own fields (R447; log 45). -/
def State.packageReset (s : State) : State :=
  { State.reset with
    turns := s.turns
    turnNo := s.turnNo
    freeNo := s.freeNo
    clock := s.clock
    nextFrame := s.nextFrame
    hbm := s.hbm
    hbmBad := s.hbmBad
    portsUp := s.portsUp }

/-- I3C_HOLD_RESET: holds the package in reset, or lets it go (R445). -/
def execI3cHoldReset (hold : Bool) (s : State) : Out :=
  s.eventDo (fun t => if hold then { t.packageReset with heldInReset := true } else { t with heldInReset := false })

/-- I3C_RECOVERY_BOOT: boot starts again at the ROM (R445). -/
def execI3cRecoveryBoot (s : State) : Out := s.eventDo (fun t => { t.packageReset with bootStep := 1 })

/-- The measurement chain after stage `n` has been measured (R442). -/
def measured (m : List Byte) (n : Nat) : List Byte := sha256 (m ++ sha256 (Config.stageImage n))

/-- MEMORY_INIT: HBM, scratchpads and scale stores are written with zero and valid check bits (R447). -/
def State.zeroMemory (s : State) : State :=
  { s with hbm := [], hbmBad := [], cores := s.cores.map (fun p => (p.1, { p.2 with spad := [], spadBad := [], scale := [], scaleBad := [] })) }

/-- The links train one after the other, each with the port id that it meets (R434, R442). -/
def trainLinks (s : State) (j : Nat) (ports : List (Option Nat)) : State :=
  match ports with
  | [] => s
  | p :: rest => trainLinks (s.trainLink j p) (j + 1) rest

/-- Steps 2 and 3: the first stage is measured, trains the links, initializes memory and synchronizes TIME (R442). -/
def State.bootFirst (s : State) (links : List (Option Nat)) (offset : Int) : State :=
  (trainLinks { s.zeroMemory with measure := measured (List.replicate 32 0) 0, bootStep := 3 } 0 links).discipline offset

/-- A bring-up register is written when its value keeps the register's rules (R424). -/
def State.bringUp (s : State) (n : Nat) : State := if bringUpOk n (Config.bringUp n) then s.putBringUp n (Config.bringUp n) else s

/-- Steps 4 to 6: the Tiller image that is measured is loaded and started, the identity key is derived, and the service opens its ports (R442;
log 20). -/
def State.bootService (s : State) : State :=
  let t : State := { s with identity := hmac Config.deviceSecret (sha256 (Config.stageImage 0)),
                            measure := measured s.measure 1,
                            journalAt := some Config.journalBase,
                            hbm := s.hbm.writeN Config.tillerBase ((Config.stageImage 1).take (hbmEnd - Config.tillerBase)) }
  let u := [0x810, 0x811, 0x812, 0x813].foldl State.bringUp t
  { u with
    services := (List.range 8).map (fun k => (k, { u.svc k with halted := false, pc := Config.tillerEntry k }))
    bootStep := 6
    portsOpen := true }

/-- BOOT: the boot sequence, by the outcomes of its two verifications, the port ids that the links meet and the offset from the 1588 master;
where the first stage or the Tiller image fails its verification, boot halts with the ports closed (R442). -/
def State.boot (s : State) (b : BootRun) : State :=
  if s.heldInReset || s.bootHalted || s.portsOpen then s
  else if !b.first then { s with bootHalted := true, bootStep := 1 }
  else if b.tiller then (s.bootFirst b.links b.offset).bootService
  else { s.bootFirst b.links b.offset with bootHalted := true, bootStep := 4 }

/-- BOOT (R442). -/
def execBoot (ok : BootRun) (s : State) : Out := s.eventDo (fun t => t.boot ok)

end Sys2Proof.Machine
end

