-- ==== Sys2Proof/Machine/Pennant.lean ====
section
/-! DEFINITION. The Pennant: jobs, marked frames and manifests (R436 to R438). -/

namespace Sys2Proof.Machine

/-- A job (R437). -/
structure FrameJob where
  id : Nat
  frame : W64
  width : Nat
  height : Nat
  pitch : Nat
  bits : Nat
  port : Nat
  request : Nat
  model : Nat
  manifest : W64
  zeros : Bool
  deriving DecidableEq, Repr

def frameJobOf (b : List Byte) : FrameJob :=
  { id := numAt b 0 8, frame := BitVec.ofNat 64 (numAt b 8 8), width := numAt b 0x10 4, height := numAt b 0x14 4, pitch := numAt b 0x18 4,
    bits := numAt b 0x1C 1, port := numAt b 0x1D 1, request := numAt b 0x20 8, model := numAt b 0x28 8,
    manifest := BitVec.ofNat 64 (numAt b 0x30 8), zeros := numAt b 0x1E 2 == 0 && numAt b 0x38 8 == 0 }

/-- Bytes of a sample (R437). -/
def FrameJob.sample (j : FrameJob) : Nat := if j.bits = 8 then 1 else 2

/-- Every field is inside the table of R437. -/
def FrameJob.ok (j : FrameJob) : Bool :=
  j.zeros && inRange 64 3840 j.width && j.width % 2 == 0 && inRange 64 2160 j.height && j.height % 2 == 0 && j.pitch % 64 == 0 &&
    decide (j.width * j.sample ≤ j.pitch) && (j.bits == 8 || j.bits == 10) && decide (j.port ≤ 3) && j.manifest.toNat % 256 == 0

/-- Reads `n` rows of `len` bytes, each `pitch` bytes after the last. -/
def State.readRows (s : State) (va : W64) (len pitch n : Nat) : State × GRead (List Byte) :=
  match n with
  | 0 => (s, .ok [])
  | k + 1 =>
    match s.readVirt none { r := true } va len with
    | (t, .ok bs) =>
      (match t.readRows (va + BitVec.ofNat 64 pitch) len pitch k with
       | (u, .ok more) => (u, .ok (bs ++ more))
       | (u, f) => (u, f))
    | (t, f) => (t, f)

/-- The planes of a frame: luma, then U and V (R437). -/
def State.readFrame (s : State) (j : FrameJob) : State × GRead (List Byte × List Byte) :=
  let chroma := j.pitch / 2 * (j.height / 2)
  let uVa := j.frame + BitVec.ofNat 64 (j.pitch * j.height)
  match s.readRows j.frame (j.width * j.sample) j.pitch j.height with
  | (t, .ok luma) =>
    (match t.readRows uVa (j.width / 2 * j.sample) (j.pitch / 2) (j.height / 2) with
     | (u, .ok cb) =>
       (match u.readRows (uVa + BitVec.ofNat 64 chroma) (j.width / 2 * j.sample) (j.pitch / 2) (j.height / 2) with
        | (v, .ok cr) => (v, .ok (luma, cb ++ cr))
        | (v, .fault a k) => (v, .fault a k)
        | (v, .check pa a) => (v, .check pa a))
     | (u, .fault a k) => (u, .fault a k)
     | (u, .check pa a) => (u, .check pa a))
  | (t, .fault a k) => (t, .fault a k)
  | (t, .check pa a) => (t, .check pa a)

/-- `n` bytes of an unknown function's answer, which the manual says is so long (log 20). -/
def fixedBytes (n : Nat) (bs : List Byte) : List Byte := (List.range n).map (fun i => bs.getD i 0)

/-- The luma plane with its mark (R436). -/
def markedLuma (luma : List Byte) : List Byte := fixedBytes luma.length (Config.embedMark luma)

/-- The manifest's bytes 0x00 to 0x87, which its signature covers (R438). -/
def State.manifestHead (s : State) (j : FrameJob) (frame : List Byte) : List Byte :=
  leBytes 4 0x504E4E54 ++ leBytes 2 1 ++ s.idField ++ leBytes 8 j.request ++ leBytes 8 j.model ++ leBytes 8 s.time ++
    leBytes 4 j.width ++ leBytes 4 j.height ++ fixedBytes 32 (sha256 frame) ++ identityPublic s.identity

/-- The manifest (R438). -/
def State.manifestOf (s : State) (j : FrameJob) (frame : List Byte) : List Byte :=
  let h := s.manifestHead j frame
  h ++ identitySign s.identity s.freeNo h ++ List.replicate 56 0

/-- The sequence whose open GENERATE has a request id. -/
def State.generateOf (s : State) (id : Nat) : Option (Nat × Sequence) := s.sequences.find? (fun p => p.2.generating == some id)

/-- A job's completion entry (R437). -/
def State.jobDone (s : State) (j : FrameJob) (status : Nat) : State :=
  s.report 5 none (leBytes 8 j.id ++ leBytes 4 status ++ leBytes 4 0 ++ leBytes 8 s.time ++ leBytes 8 0)

/-- A refusal is journalled as KIND 9 with PATH 3 (R436, R440). -/
def State.jobRefused (s : State) (j : FrameJob) (status : Nat) : State :=
  (s.note 9 (leBytes 8 (j.frame.toNat % 2 ^ 56) ++ leBytes 1 3 ++ leBytes 1 j.port ++ leBytes 6 0)).jobDone j status

/-- An uncorrectable error stops the job; part of the frame may have been sent (R437; log 2). -/
def State.jobStopped (s : State) (j : FrameJob) (h : Nat) (luma : List Byte) (pa : Nat) (va : W64) : State :=
  let part := (markedLuma luma).take (Config.framePart s.freeNo)
  let t := ({ s with freeNo := s.freeNo + 1 } : State).noteCheck pa va.toNat 0 0xFF 0xFF 0xFF
  (if part.isEmpty then t else t.reply j.port 4 2 j.request h 0 part).jobDone j 4

/-- The part of the luma plane before the error. -/
def State.lumaBefore (s : State) (j : FrameJob) (n : Nat) : List Byte :=
  match n with
  | 0 => []
  | k + 1 =>
    match (s.readRows j.frame (j.width * j.sample) j.pitch (k + 1)).2 with
    | .ok bs => bs
    | .fault _ _ | .check _ _ => s.lumaBefore j k

/-- One job: checked, marked, its manifest written, and both sent (R436 to R438). -/
def State.runFrame (s : State) (j : FrameJob) : State :=
  if !j.ok then s.jobRefused j 1
  else if !s.portsUp.get true j.port then s.jobRefused j 2
  else
    match s.generateOf j.request with
    | none => s.jobRefused j 3
    | some (h, _) =>
      match s.readFrame j with
      | (t, .fault _ _) => t.jobRefused j 5
      | (t, .check pa va) => t.jobStopped j h (t.lumaBefore j j.height) pa va
      | (t, .ok (luma, chroma)) =>
        let frame := markedLuma luma ++ chroma
        let m := t.manifestOf j frame
        match ({ t with freeNo := t.freeNo + 1 } : State).writeVirt none none j.manifest m with
        | (_, .fault _ _) => t.jobRefused j 5
        | (_, .check pa va) => t.jobStopped j h luma pa va
        | (u, .ok ()) => (u.reply j.port 4 2 j.request h 0 (frame ++ m)).jobDone j 0

/-- PENNANT_JOB: the Pennant takes the job that stands first in its ring (R426, R436). -/
def State.pennantJob (s : State) : State :=
  match s.ringDescs.find 4 with
  | none => s
  | some d =>
    if s.ringBad d then s.deviceCheck d.base
    else if s.ringUsed d = 0 then s
    else if s.hbmBadIn (d.entryAt 4 (s.ringConsumer d)) 64 then s.deviceCheck (d.entryAt 4 (s.ringConsumer d))
    else (s.ringTake d).runFrame (frameJobOf (s.hbmRead (d.entryAt 4 (s.ringConsumer d)) 64))

/-- PENNANT_JOB (R436). -/
def execPennantJob (s : State) : Out := s.eventDo State.pennantJob

end Sys2Proof.Machine
end

