-- ==== Sys2Proof/Machine/Restore.lean ====
section
/-! DEFINITION. Restoring a saved team: its place, the checks of its areas, and what a group takes from them (R54, R80 to R84, R280,
R283). -/

namespace Sys2Proof.Machine

def w64At (bs : List Byte) (o : Nat) : W64 := BitVec.ofNat 64 (numAt bs o 8)

/-- The tag code of name `n` in section 4 (R83). -/
def tagAt (bs : List Byte) (n : Nat) : Nat := numAt bs (0x11C0 + n / 4) 1 / 4 ^ (n % 4) % 4

/-- The tags that an area of a group holds, and its G names. -/
def gNames (bs : List Byte) : List Nat := (List.range 640).filter (fun n => tagAt bs n == 2)

def bitsIn (n v : Nat) : Nat := popNat n v

/-- The ranges of the header are those that YIELDP allows (R80, R164). -/
def areaRanges (bs : List Byte) : W64 × W64 := (w64At bs 0x68, w64At bs 0x70)

/-- The offsets and the total that sections 6 to 8 must have (R83). -/
def areaLayout (x : Group) (bs : List Byte) : List Nat × Nat :=
  let r := areaRanges bs
  sectionOffsets ((gNames bs).length * x.desc.w * 4) (bitsIn 8 (numAt bs 0x0F 1) * 66080) (rangeLen r.1 + rangeLen r.2)

/-- A forced save names every tile and the whole allocation in the group of rank 0, and nothing in the others (R80, R83, R282). -/
def forcedNamesOk (x : Group) (al : Nat × Nat) (bs : List Byte) : Bool :=
  numAt bs 6 2 % 2 == 0 ||
    (if x.grank = 0 then numAt bs 0x0F 1 == 2 ^ x.desc.accn - 1 && areaRanges bs == (wholeOf al, 0)
     else numAt bs 0x0F 1 == 0 && areaRanges bs == (0, 0))

/-- The header's values are allowed (R77, R80, R84); only a stage group has records. -/
def headOk (x : Group) (stage : Bool) (al : Nat × Nat) (bs : List Byte) : Bool :=
  let f := fun o n => numAt bs o n
  let r := areaRanges bs
  let lay := areaLayout x bs
  f 0 4 == 0x5A435458 && f 4 2 == 1 && decide (f 6 2 < 4) && (decide (f 6 2 / 2 = 1) == decide (f 0x0B 1 ≠ 0)) &&
    f 8 1 == x.desc.w && decide (f 9 1 < 16) && decide (f 0x0A 1 < 4) && (f 9 1 == 0 || (f 9 1).testBit (f 0x0A 1)) &&
    decide (f 0x0B 1 ≤ 16) && (List.range 8).all (fun k => decide (f (0x48 + k) 1 ≤ if x.desc.qmap.getLsbD k then 16 else 0)) &&
    decide (f 0x60 2 ≤ x.desc.w) && (stage || (f 0x60 2 == 0 && f 0x62 1 == 0)) && forcedNamesOk x al bs &&
    f 0x0C 2 == x.desc.gcount && f 0x0E 1 == x.desc.accn && decide (f 0x0F 1 < 2 ^ x.desc.accn) && f 0x10 8 == x.gid &&
    f 0x18 8 == lay.2 && (List.range 7).map (fun i => f (0x20 + 4 * i) 4) == lay.1 && f 0x3C 4 == 0 &&
    (List.range 16).all (fun k => f 0x40 4 / 4 ^ k % 4 != 3) && decide (f 0x46 1 < 8) && decide (f 0x47 1 < 64) &&
    f 0x63 5 == 0 && f 0x78 8 == 0 && rangeOk al.1 al.2 r.1 && rangeOk al.1 al.2 r.2 &&
    (List.range 16).all (fun i => decide (i < f 0x0B 1) || f (0x80 + 8 * i) 8 == 0)

/-- Tags and slots are allowed: no code 3, G only below GCOUNT, and slots as their tags have them (R64, R84). -/
def namesAllowed (x : Group) (bs : List Byte) : Bool :=
  (List.range 640).all (fun n =>
    let v := numAt bs (0x1280 + 8 * n) 8
    match tagAt bs n with
    | 0 => decide (v < 2 ^ 32)
    | 1 => true
    | 2 => decide (n < x.desc.gcount) && v == 0
    | _ => false)

/-- A queue entry of an area (R82); RESUME only at the head, and past the clause's header. -/
def entryOf (w : Nat) (head : Bool) (no : Nat) (pc w0 w1 : W64) : Option QEntry :=
  let v := w0.toNat
  match v % 4 with
  | 0 => if v < 1024 ∧ w1.toNat < 8 then some { kind := .fpctl (v / 4), val := w1, no := no, pc := pc } else none
  | 1 =>
    let resume := v / 2 ^ 56
    if v / 4 % 2 = 0 ∧ (resume = 0 ∨ (head ∧ 4 ≤ resume)) then
      some { kind := .clause (BitVec.ofNat 64 (v % 2 ^ 56 / 8 * 8)) resume, val := w1, no := no, pc := pc }
    else none
  | 2 =>
    if v < 2 ^ 18 ∧ v / 4 % 1024 < 640 ∧ v / 4096 < w then
      some { kind := .vset (BitVec.ofNat 10 (v / 4 % 1024)) (BitVec.ofNat 6 (v / 4096)), val := w1, no := no, pc := pc }
    else none
  | _ => if v < 64 then some { kind := .mset (BitVec.ofNat 4 (v / 4)), val := w1, no := no, pc := pc } else none

/-- The entries of a queue at offset `o`: `n` of them, and zeros behind. The words that enqueued them, and their places in the program order,
are those of the queue saved. -/
def queueOf (w : Nat) (old : List QEntry) (bs : List Byte) (o n no : Nat) : Option (List QEntry) :=
  if 8 < n ∨ (List.range 8).any (fun i => decide (n ≤ i) && (w64At bs (o + 16 * i) != 0 || w64At bs (o + 16 * i + 8) != 0)) then none
  else
    (List.range n).foldl (fun (acc : Option (List QEntry)) i =>
      match acc, entryOf w (i == 0) ((old[i]?).elim (no + i) (·.no)) ((old[i]?).elim 0 (·.pc)) (w64At bs (o + 16 * i)) (w64At bs (o + 16 * i + 8)) with
      | some l, some e => some (l ++ [e])
      | _, _ => none) (some [])

/-- A word of the tag stack with its serial-record block: only parts above the running one have a mask (R82). -/
def joinOf (bs : List Byte) (wo bo : Nat) : Option JoinEntry :=
  let v := numAt bs wo 8
  if v < 2 ^ 32 then (if (List.range 5).all (fun i => numAt bs (bo + 8 * i) 8 == 0) then some (.tag v) else none)
  else if 2 ^ 63 ≤ v ∧ v < 2 ^ 63 + 4 ∧ (List.range (v % 4)).all (fun i => numAt bs (bo + 16 + 8 * i) 8 == 0) then
    some (.serial (v % 4) (w64At bs bo) (w64At bs (bo + 8)) (w64At bs (bo + 16)) (w64At bs (bo + 24)) (w64At bs (bo + 32)))
  else none

/-- The tag stack of depth `n`, bottom first, with zeros above. -/
def joinsOf (bs : List Byte) (b n : Nat) : Option (List JoinEntry) :=
  if 4 < n ∨ (List.range 4).any (fun i => decide (n ≤ i) && (numAt bs (b + 0x210 + 8 * i) 8 != 0 ||
      (List.range 5).any (fun j => numAt bs (b + 0x350 + 40 * i + 8 * j) 8 != 0))) then none
  else
    (List.range n).foldl (fun (acc : Option (List JoinEntry)) i =>
      match acc, joinOf bs (b + 0x210 + 8 * i) (b + 0x350 + 40 * i) with
      | some l, some e => some (l ++ [e])
      | _, _ => none) (some [])

/-- The lanes of a FUT.RD that its clause, the head of a restored queue, is to retry (R275; log 10). -/
def retryOf (old : Split) (q : List QEntry) : Option W64 :=
  match old.run, q with
  | some r, { kind := .clause _ resume, .. } :: _ => if resume = r.off then r.retry else none
  | _, _ => old.retry

/-- The control word and the trap registers of a split are allowed (R82): entries in the handler queue, and a handler, only where a trap has
been delivered (R59, R273). -/
def trapsAllowed (ctl cause : Nat) : Bool :=
  decide (ctl < 4096) && decide (cause ≤ 2) && (if ctl / 2048 = 1 then cause != 0 else ctl / 16 % 16 == 0)

/-- A live split of an area (R82, R83); the SPC at which UTRET goes on after a future-empty trap, and the lanes of the FUT.RD that it
retries, stay with the device (log 10). -/
def splitOf (x : Group) (bs : List Byte) (k no : Nat) : Option Split :=
  let b := 0x100 + 1024 * k
  let ctl := numAt bs (b + 0x208) 8
  let old := x.split k
  if !trapsAllowed ctl (numAt bs (b + 0x230) 8) ∨ numAt bs b 8 ≠ 0 ∨ numAt bs (b + 0x3F0) 8 ≠ 0 ∨ numAt bs (b + 0x3F8) 8 ≠ 0 then none
  else
    match queueOf x.desc.w old.queue bs (b + 0x250) (ctl % 16) no, queueOf x.desc.w old.hqueue bs (b + 0x2D0) (ctl / 16 % 16) (no + 8),
          joinsOf bs b (ctl / 256 % 8) with
    | some q, some h, some tags =>
      some { Split.dead with
        live := true
        spc := w64At bs (b + 0x200)
        exec := w64At bs (0x1180 + 8 * k) &&& low64 x.desc.w
        regs := (List.range 63).map (fun i => (i + 1, w64At bs (b + 8 * (i + 1))))
        queue := q
        hqueue := h
        tags := tags
        utcause := w64At bs (b + 0x230)
        utmask := w64At bs (b + 0x238)
        utpc := w64At bs (b + 0x240)
        utinfo := w64At bs (b + 0x248)
        inHandler := ctl / 2048 == 1
        retSpc := old.retSpc
        born := old.born
        life := old.life
        retry := retryOf old q }
    | _, _, _ => none

/-- The four split blocks (R82): a dead split's is zero. -/
def splitBlocks (x : Group) (bs : List Byte) (no : Nat) : Option (Map Split) :=
  (List.range 4).foldl (fun (acc : Option (Map Split)) k =>
    match acc with
    | none => none
    | some m =>
      if (numAt bs 9 1).testBit k then (splitOf x bs k (no + 16 * k)).map (fun p => m ++ [(k, p)])
      else if ((bs.drop (0x100 + 1024 * k)).take 1024).all (· == 0) then some (m ++ [(k, { Split.dead with life := (x.split k).life })])
      else none) (some [])

/-- The splits of an area: one handler of a group runs at a time (R82, R276). -/
def splitsOf (x : Group) (bs : List Byte) (no : Nat) : Option (Map Split) :=
  match splitBlocks x bs no with
  | some m => if (m.filter (fun p => p.2.inHandler)).length ≤ 1 then some m else none
  | none => none

/-- The FPCTL writes still queued, in issue order (R79, R82). -/
def queuedFpctl (m : Map Split) : List (Nat × W64) :=
  sortBy (·.1) (m.flatMap (fun p => (p.2.queue ++ p.2.hqueue).filterMap (fun e => match e.kind with
    | .fpctl r => some (r, e.val)
    | .clause _ _ | .vset _ _ | .mset _ => none)))

/-- Lane register `n` of an area; `i` is its place among the G names. -/
def laneRegOf (w : Nat) (bs : List Byte) (n i : Nat) : LaneReg :=
  let v := numAt bs (0x1280 + 8 * n) 8
  match tagAt bs n with
  | 0 => .u (BitVec.ofNat 32 v)
  | 1 => .a (BitVec.ofNat 32 v) (BitVec.ofNat 32 (v / 2 ^ 32))
  | _ => .g ((List.range w).map (fun l => BitVec.ofNat 32 (numAt bs (0x2680 + (i * w + l) * 4) 4)))

/-- The lane registers (R83, sections 4 to 6). -/
def laneRegsOf (w : Nat) (bs : List Byte) : Map LaneReg :=
  (List.range 640).map (fun n => (n, laneRegOf w bs n ((List.range n).filter (fun k => tagAt bs k == 2)).length))

def guardOf (c : Nat) : Guard :=
  match c with
  | 1 => .false
  | 2 => .true
  | _ => .unresolved

/-- THE GROUP that an area gives back (R81, R283): clear flags and zero counters, but for the accesses of its fault records, which tag and
count again. -/
def groupOf (x : Group) (bs : List Byte) (no clock : Nat) : Option Group :=
  match splitsOf x bs no with
  | none => none
  | some m =>
    let q := queuedFpctl m
    if q.map (·.1) ≠ List.range q.length then none
    else
      let g := numAt bs 0x40 4
      let tf := numAt bs 0x44 2
      let y : Group := { x with
        v := laneRegsOf x.desc.w bs
        m := (List.range 16).map (fun k => (k, w64At bs (0x1100 + 8 * k) &&& low64 x.desc.w))
        flags := []
        counters := []
        inflight := []
        guards := (List.range 16).map (fun k => (k, guardOf (g / 4 ^ k % 4)))
        tflags := (List.range 16).map (fun k => (k, tf.testBit k))
        oq := []
        fpctl := BitVec.ofNat 64 (numAt bs 0x46 1)
        fpstat := BitVec.ofNat 64 (numAt bs 0x47 1)
        fpctlQ := q
        fpctlNo := q.length
        utvec := w64At bs 0x50
        skips := w64At bs 0x58
        recn := numAt bs 0x60 2
        recdepth := numAt bs 0x62 1
        splits := m
        cur := numAt bs 0x0A 1
        curSince := clock
        changeDue := false
        released := false
        outAt := none
        forced := false
        away := false
        area := []
        vBad := [] }
      some (x.acc.foldl (fun z a => (z.flagUp a.flag).countUp a.ctr a.id) y)

/-- The tile at offset `o` (R83, R296); none where its token bytes are not allowed. -/
def tileOf (owner : Option Nat) (bs : List Byte) (o : Nat) : Option Tile :=
  let t := numAt bs (o + 66064) 1
  let s := numAt bs (o + 66065) 1
  if 1 < t ∨ 3 < s ∨ !((bs.drop (o + 66066)).take 14).all (· == 0) then none
  else
    some { owner := owner
           elems := Map.ofDense 0 0 ((List.range 16384).map (fun i => BitVec.ofNat 32 (numAt bs (o + 4 * i) 4)))
           labels := Map.ofDense 0xFFFFFFFF#32 0 ((List.range 128).map (fun i => BitVec.ofNat 32 (numAt bs (o + 65536 + 4 * i) 4)))
           erm := BitVec.ofNat 128 (numAt bs (o + 66048) 16)
           tokenV := t == 1
           msat := s % 2 == 1
           fmte := s / 2 == 1 }

/-- The tiles of LTM with their numbers in the team (R83). -/
def areaTiles (owner : Nat) (bs : List Byte) (o7 : Nat) : Option (List (Nat × Tile)) :=
  let l := (List.range 8).filter (fun i => (numAt bs 0x0F 1).testBit i)
  ((List.range l.length).zip l).foldl (fun (acc : Option (List (Nat × Tile))) p =>
    match acc, tileOf (some owner) bs (o7 + 66080 * p.1) with
    | some r, some t => some (r ++ [(p.2, t)])
    | _, _ => none) (some [])

/-! Reading the areas (R84). -/

/-- How a restore goes on: read so far, waiting for a fault, or failed with a cause and its information. -/
inductive AreaRead where
  | ok
  | waits
  | failed (cause : BitVec 8) (info : W64)
  deriving DecidableEq, Repr

/-- Reads `n` more bytes of a group's area; a fault parks the group with a record of KIND 4 and lane mask 0, when there is room for it, and
the bytes read so far are kept (R84, R230). -/
def State.readArea (s : State) (g n : Nat) : State × AreaRead :=
  match n with
  | 0 => (s, .ok)
  | k + 1 =>
    let x := s.grp g
    let va := s.areaVa g + BitVec.ofNat 64 x.area.length
    match s.translate (some x.core) va { r := true } with
    | (t, .fault c) =>
      if t.recordRoom g x.core then
        ((t.addRecord (.restore g) x.core 4 0 c x.slotNo 0 0 va 0 0).modGrp g (fun y => { y with st := .parked }), .waits)
      else (t, .waits)
    | (t, .check pa) => (t.noteCheck pa va.toNat 0 x.core x.slotNo 0xFF, .failed 0x19 (BitVec.ofNat 64 pa))
    | (t, .ok pa) =>
      if t.hbmBadIn pa 1 then (t.noteCheck pa va.toNat 0 x.core x.slotNo 0xFF, .failed 0x19 (BitVec.ofNat 64 pa))
      else (t.modGrp g (fun y => { y with area := y.area ++ [t.hbm.read pa] })).readArea g k

/-- Reads a group's whole area: sections 1 to 5, and, if these are allowed, the rest (R84). -/
def State.readWhole (s : State) (g : Nat) : State × AreaRead :=
  match s.readArea g (0x2680 - (s.grp g).area.length) with
  | (t, .ok) =>
    let x := t.grp g
    if !headOk x (((t.launch x.launch).map (·.stage)).getD false) (t.allocation g) x.area || !namesAllowed x x.area then (t, .failed 0x1B 0)
    else t.readArea g (numAt x.area 0x18 8 - x.area.length)
  | (t, r) => (t, r)

/-- Reads the areas of some groups, in ascending linear id. -/
def State.readAreas (s : State) (gs : List Nat) : State × Option (Nat × AreaRead) :=
  match gs with
  | [] => (s, none)
  | g :: rest =>
    match s.readWhole g with
    | (t, .ok) => t.readAreas rest
    | (t, r) => (t, some (g, r))

/-! Loading (R280, R283). -/

/-- The records of a restored group stand on its new core and slot (R230, R235). -/
def State.moveRecords (s : State) (g : Nat) : State :=
  let x := s.grp g
  { s with frecs := s.frecs.map (fun r => if s.ownerGroup r.owner = some g then { r with core := x.core, slot := x.slotNo } else r) }

/-- A restored group is Pending and ready, or Parked while it holds a record (R52, R283). -/
def State.settleGroup (s : State) (g : Nat) : State :=
  if (s.recordsOf g).isEmpty && !(s.grp g).acc.any (fun a => a.lanes.any LaneAcc.waiting) then s.makePending g false
  else s.modGrp g (fun x => { x with st := .parked })

/-- Loads one group from its area: registers, the tiles and ranges that it names, its records; none where a value is not allowed. -/
def State.loadGroup (s : State) (g : Nat) : Option State :=
  let x := s.grp g
  let bs := x.area
  let offs := (areaLayout x bs).1
  let r := areaRanges bs
  let o8 := offs.getD 6 0
  match groupOf x bs s.nextId s.clock, areaTiles x.team bs (offs.getD 5 0) with
  | some y, some ts =>
    let s1 := ({ s with nextId := s.nextId + 64 } : State).setGrp g y
    let s2 := ts.foldl (fun t p => t.putTile x.core (t.teamTile g p.1) true p.2) s1
    let s3 := s2.spadWrite x.core (rangeOff r.1) ((bs.drop o8).take (rangeLen r.1))
    let s4 := s3.spadWrite x.core (rangeOff r.2) ((bs.drop (o8 + rangeLen r.1)).take (rangeLen r.2))
    some ((s4.moveRecords g).settleGroup g)
  | _, _ => none

/-- Loads the groups of a team, in ascending linear id; the first that is not allowed fails the restore (R84, R280). -/
def State.loadGroups (s : State) (gs : List Nat) : State :=
  match gs with
  | [] => s
  | g :: rest =>
    match s.loadGroup g with
    | some t => t.loadGroups rest
    | none => s.fatal g 0x1B 0 0 0 0

/-- The groups of a team that are to be restored, and whose context is still in its areas, in ascending linear id. -/
def State.awayGroups (s : State) (t : Nat) : List Nat :=
  sortBy (fun g => (s.grp g).gid)
    ((s.groups.filter (fun p => p.2.team == t && p.2.away && (p.2.st == .saved || p.2.st == .parked))).map (·.1))

/-- The restore of the group waits for a fault record on its area (R84). -/
def State.areaWaits (s : State) (g : Nat) : Bool := s.frecs.any (fun r => r.holds && r.owner == .restore g)

/-- A group whose restore waits is Parked, with its record on its core (R52, R84). -/
def State.awaitArea (s : State) (g : Nat) : State := (s.moveRecords g).modGrp g (fun x => { x with st := .parked })

/-- The Saved groups of a team. -/
def State.savedGroups (s : State) (t : Nat) : List Nat :=
  sortBy (fun g => (s.grp g).gid) ((s.groups.filter (fun p => p.2.team == t && p.2.st == .saved && !p.2.away)).map (·.1))

/-! Placing a saved cluster again (R28, R30, R283). -/

/-- The teams of a cluster that hold Saved groups. -/
def State.clusterTeams (s : State) (l cluster : Nat) : List (Nat × Team) :=
  s.teams.filter (fun p => p.2.launch == l && p.2.cluster == cluster && (s.savedGroups p.1) != [])

/-- Gives groups their new places. -/
def State.replace (s : State) (corner core : Nat) (l : List (Nat × (Nat × Nat))) : State :=
  l.foldl (fun t p => t.modGrp p.1 (fun x => { x with corner := corner, core := core, sector := p.2.1, place := p.2.2, away := true,
                                                      area := [], areaAt := 0 })) s

/-- Places the Saved teams of a cluster on a site. -/
def State.replaceCluster (s : State) (l : Launch) (ts : List (Nat × Team)) (x : Site) : State :=
  ts.foldl (fun t p =>
    let c := x.cores.getD p.2.rank 0
    let f := x.fits.getD p.2.rank { places := [], tiles := [], bank := none }
    let u : State := { t with teams := t.teams.put p.1 { p.2 with core := c, corner := x.corner, tiles := f.tiles, bank := f.bank, resident := true } }
    (u.takeFit p.1 c l.desc l.dict p.2.spbase f).replace x.corner c ((s.savedGroups p.1).zip f.places)) s

/-- The request at the head of the queue is that of the cluster of team `t`: the cluster is placed again, whole, at the SPBASE that it
had (R30, R283). -/
def State.placeSaved (s : State) (t : Nat) : State :=
  match s.headRequest, s.teams.find t with
  | some q, some m =>
    match q.team, s.launch q.launch with
    | some _, some l =>
      if q.launch ≠ m.launch ∨ q.cluster ≠ m.cluster then s
      else
        let ts := s.clusterTeams q.launch q.cluster
        let sizes := (List.range (l.desc.cw * l.desc.ch)).map (fun k =>
          ((ts.find? (fun p => p.2.rank == k)).map (fun p => (s.savedGroups p.1).length)).getD 0)
        (match s.firstSite l.desc sizes (some m.spbase) (s.cornersFor l.stage) with
         | none => s
         | some x => (s.unrequest q).replaceCluster l ts x)
    | _, _ => s
  | _, _ => s

/-- TEAM_RESTORE: a saved team is placed again, its areas are read and checked, and, when all are, its groups are loaded (R84, R283). -/
def State.restoreTeam (s : State) (t : Nat) : State :=
  let s1 := if ((s.teams.find t).map (·.resident)).getD false then s else s.placeSaved t
  let gs := s1.awayGroups t
  if gs.any s1.areaWaits then (gs.filter s1.areaWaits).foldl State.awaitArea s1
  else
    match s1.readAreas gs with
    | (u, none) => u.loadGroups gs
    | (u, some (g, .failed cause info)) => u.fatal g cause 0 0 info 0
    | (u, some (_, _)) => u

/-- TEAM_RESTORE (R283). -/
def execTeamRestore (team : Nat) (s : State) : Out := s.eventDo (fun t => t.restoreTeam team)

end Sys2Proof.Machine
end

