-- ==== Sys2Proof/Machine/ScalarAlu.lean ====
section
/-! DEFINITION. The scalar integer instructions (06_scalar_instructions.md R137 to R140). -/

namespace Sys2Proof.Machine

/-- The shift amount b[5:0]. -/
def shamt (b : W64) : Nat := b.toNat % 64

/-- The high half of the signed product. -/
def mulHi (a b : W64) : W64 := BitVec.ofInt 64 (a.toInt * b.toInt / 2 ^ 64)

/-- The high half of the unsigned product. -/
def mulHiW (a b : W64) : W64 := BitVec.ofNat 64 (a.toNat * b.toNat / 2 ^ 64)

/-- The quotient truncated toward zero; all ones for b = 0; −2^63 by −1 gives −2^63 (R137). -/
def divS (a b : W64) : W64 := if b = 0 then BitVec.allOnes 64 else BitVec.ofInt 64 (a.toInt.tdiv b.toInt)

def divU (a b : W64) : W64 := if b = 0 then BitVec.allOnes 64 else BitVec.ofNat 64 (a.toNat / b.toNat)

/-- The remainder with the sign of a; a itself for b = 0 (R137). -/
def remS (a b : W64) : W64 := if b = 0 then a else BitVec.ofInt 64 (a.toInt.tmod b.toInt)

def remU (a b : W64) : W64 := if b = 0 then a else BitVec.ofNat 64 (a.toNat % b.toNat)

/-- s[D] := f(s[A], s[B]) (R137). -/
def State.alu2 (s : State) (d a b : BitVec 6) (f : W64 → W64 → W64) : Out :=
  s.scalarDo [d, a, b] (fun t => (t.setSreg d (f (t.sreg a) (t.sreg b))).advance)

/-- s[D] := f(s[A]) (R137 to R139). -/
def State.alu1 (s : State) (d a : BitVec 6) (f : W64 → W64) : Out :=
  s.scalarDo [d, a] (fun t => (t.setSreg d (f (t.sreg a))).advance)

/-- s[D] := a value of the word itself and its address (R140). -/
def State.alu0 (s : State) (d : BitVec 6) (f : W64 → W64) : Out :=
  s.scalarDo [d] (fun t => (t.setSreg d (f t.pc)).advance)

/-- ADD: sum, wrapping (R137). -/
def execAdd (d a b : BitVec 6) (s : State) : Out := s.alu2 d a b (fun a b => a + b)

/-- SUB: difference, wrapping (R137). -/
def execSub (d a b : BitVec 6) (s : State) : Out := s.alu2 d a b (fun a b => a - b)

/-- MUL: low 64 bits of the product (R137). -/
def execMul (d a b : BitVec 6) (s : State) : Out := s.alu2 d a b (fun a b => a * b)

/-- MULH: high 64 bits of the signed product (R137). -/
def execMulh (d a b : BitVec 6) (s : State) : Out := s.alu2 d a b (fun a b => mulHi a b)

/-- MULHW: high 64 bits of the unsigned product (R137). -/
def execMulhw (d a b : BitVec 6) (s : State) : Out := s.alu2 d a b (fun a b => mulHiW a b)

/-- DIV: signed quotient (R137). -/
def execDiv (d a b : BitVec 6) (s : State) : Out := s.alu2 d a b (fun a b => divS a b)

/-- DIVW: unsigned quotient (R137). -/
def execDivw (d a b : BitVec 6) (s : State) : Out := s.alu2 d a b (fun a b => divU a b)

/-- REM: signed remainder (R137). -/
def execRem (d a b : BitVec 6) (s : State) : Out := s.alu2 d a b (fun a b => remS a b)

/-- REMW: unsigned remainder (R137). -/
def execRemw (d a b : BitVec 6) (s : State) : Out := s.alu2 d a b (fun a b => remU a b)

/-- AND: AND (R137). -/
def execAnd (d a b : BitVec 6) (s : State) : Out := s.alu2 d a b (fun a b => a &&& b)

/-- OR: OR (R137). -/
def execOr (d a b : BitVec 6) (s : State) : Out := s.alu2 d a b (fun a b => a ||| b)

/-- XOR: exclusive OR (R137). -/
def execXor (d a b : BitVec 6) (s : State) : Out := s.alu2 d a b (fun a b => a ^^^ b)

/-- ANDN: AND NOT (R137). -/
def execAndn (d a b : BitVec 6) (s : State) : Out := s.alu2 d a b (fun a b => a &&& ~~~b)

/-- SHL: left shift (R137). -/
def execShl (d a b : BitVec 6) (s : State) : Out := s.alu2 d a b (fun a b => a <<< shamt b)

/-- SHR: logical right shift (R137). -/
def execShr (d a b : BitVec 6) (s : State) : Out := s.alu2 d a b (fun a b => a >>> shamt b)

/-- SAR: arithmetic right shift (R137). -/
def execSar (d a b : BitVec 6) (s : State) : Out := s.alu2 d a b (fun a b => a.sshiftRight (shamt b))

/-- ROT: right rotation (R137). -/
def execRot (d a b : BitVec 6) (s : State) : Out := s.alu2 d a b (fun a b => rotr a (shamt b))

/-- MIN: signed minimum (R137). -/
def execMin (d a b : BitVec 6) (s : State) : Out := s.alu2 d a b (fun a b => smin a b)

/-- MAX: signed maximum (R137). -/
def execMax (d a b : BitVec 6) (s : State) : Out := s.alu2 d a b (fun a b => smax a b)

/-- MINW: unsigned minimum (R137). -/
def execMinw (d a b : BitVec 6) (s : State) : Out := s.alu2 d a b (fun a b => umin a b)

/-- MAXW: unsigned maximum (R137). -/
def execMaxw (d a b : BitVec 6) (s : State) : Out := s.alu2 d a b (fun a b => umax a b)

/-- SEQ: 1 where equal (R137). -/
def execSeq (d a b : BitVec 6) (s : State) : Out := s.alu2 d a b (fun a b => b64 (a == b))

/-- SNE: 1 where different (R137). -/
def execSne (d a b : BitVec 6) (s : State) : Out := s.alu2 d a b (fun a b => b64 (a != b))

/-- SLT: signed less-than (R137). -/
def execSlt (d a b : BitVec 6) (s : State) : Out := s.alu2 d a b (fun a b => b64 (a.slt b))

/-- SLTW: unsigned less-than (R137). -/
def execSltw (d a b : BitVec 6) (s : State) : Out := s.alu2 d a b (fun a b => b64 (a.ult b))

/-- SGE: signed greater-or-equal (R137). -/
def execSge (d a b : BitVec 6) (s : State) : Out := s.alu2 d a b (fun a b => b64 (b.sle a))

/-- SGEW: unsigned greater-or-equal (R137). -/
def execSgew (d a b : BitVec 6) (s : State) : Out := s.alu2 d a b (fun a b => b64 (b.ule a))

/-- CLZ: leading zeros; 64 for 0 (R137). -/
def execClz (d a : BitVec 6) (s : State) : Out := s.alu1 d a (fun a => BitVec.ofNat 64 (clzNat 64 a.toNat))

/-- CTZ: trailing zeros; 64 for 0 (R137). -/
def execCtz (d a : BitVec 6) (s : State) : Out := s.alu1 d a (fun a => BitVec.ofNat 64 (ctzNat 64 a.toNat))

/-- POPC: one bits (R137). -/
def execPopc (d a : BitVec 6) (s : State) : Out := s.alu1 d a (fun a => BitVec.ofNat 64 (popNat 64 a.toNat))

/-- ADDI, its immediate sign-extended (R138). -/
def execAddi (d a : BitVec 6) (i : BitVec 14) (s : State) : Out := s.alu1 d a (fun a => a + i.signExtend 64)

/-- ANDI, its immediate sign-extended (R138). -/
def execAndi (d a : BitVec 6) (i : BitVec 14) (s : State) : Out := s.alu1 d a (fun a => a &&& i.signExtend 64)

/-- ORI, its immediate sign-extended (R138). -/
def execOri (d a : BitVec 6) (i : BitVec 14) (s : State) : Out := s.alu1 d a (fun a => a ||| i.signExtend 64)

/-- XORI, its immediate sign-extended (R138). -/
def execXori (d a : BitVec 6) (i : BitVec 14) (s : State) : Out := s.alu1 d a (fun a => a ^^^ i.signExtend 64)

/-- SLTI, its immediate sign-extended (R138). -/
def execSlti (d a : BitVec 6) (i : BitVec 14) (s : State) : Out := s.alu1 d a (fun a => b64 (a.slt (i.signExtend 64)))

/-- SLTIW, its immediate sign-extended (R138). -/
def execSltiw (d a : BitVec 6) (i : BitVec 14) (s : State) : Out := s.alu1 d a (fun a => b64 (a.ult (i.signExtend 64)))

/-- SHLI (R139). -/
def execShli (d a n : BitVec 6) (s : State) : Out := s.alu1 d a (fun a => a <<< n.toNat)

/-- SHRI (R139). -/
def execShri (d a n : BitVec 6) (s : State) : Out := s.alu1 d a (fun a => a >>> n.toNat)

/-- SARI (R139). -/
def execSari (d a n : BitVec 6) (s : State) : Out := s.alu1 d a (fun a => a.sshiftRight n.toNat)

/-- ROTI (R139). -/
def execRoti (d a n : BitVec 6) (s : State) : Out := s.alu1 d a (fun a => rotr a n.toNat)

/-- LIMM: Sext(IMM20) << 12 (R140). -/
def execLimm (d : BitVec 6) (i : BitVec 20) (s : State) : Out := s.alu0 d (fun _ => i.signExtend 64 <<< 12)

/-- LPC: the word's address + Sext(IMM20) × 4 (R140). -/
def execLpc (d : BitVec 6) (i : BitVec 20) (s : State) : Out := s.alu0 d (fun pc => pc + i.signExtend 64 <<< 2)

/-- LCADDR: LCB + IMM20 × 8; illegal on a service core (R140). -/
def execLcaddr (d : BitVec 6) (i : BitVec 20) (s : State) : Out :=
  s.groupDo [d] (fun g _ t => (t.setSreg d ((t.grp g).desc.lcb + i.setWidth 64 <<< 3)).advance)

end Sys2Proof.Machine
end

