-- ==== Sys2Proof/Machine/ScalarFlow.lean ====
section
/-! DEFINITION. Branches, jumps, BRX, JOIN, EXIT, clause enqueueing and the scalar waits (R42 to R45, R141 to R149). -/

namespace Sys2Proof.Machine

/-- A word offset as a byte offset (R89). -/
def wordOff {n : Nat} (o : BitVec n) : W64 := o.signExtend 64 <<< 2

/-- Compare and branch (R141). -/
def State.branch (s : State) (a b : BitVec 6) (o : BitVec 14) (c : W64 → W64 → Bool) : Out :=
  s.scalarDo [a, b] (fun t => if c (t.sreg a) (t.sreg b) then t.jumpTo (t.pc + wordOff o) else t.advance)

/-- BEQ (R141). -/
def execBeq (a b : BitVec 6) (o : BitVec 14) (s : State) : Out := s.branch a b o (fun x y => x == y)
/-- BNE (R141). -/
def execBne (a b : BitVec 6) (o : BitVec 14) (s : State) : Out := s.branch a b o (fun x y => x != y)
/-- BLT, signed (R141). -/
def execBlt (a b : BitVec 6) (o : BitVec 14) (s : State) : Out := s.branch a b o (fun x y => x.slt y)
/-- BGE, signed (R141). -/
def execBge (a b : BitVec 6) (o : BitVec 14) (s : State) : Out := s.branch a b o (fun x y => y.sle x)
/-- BLTW, unsigned (R141). -/
def execBltw (a b : BitVec 6) (o : BitVec 14) (s : State) : Out := s.branch a b o (fun x y => x.ult y)
/-- BGEW, unsigned (R141). -/
def execBgew (a b : BitVec 6) (o : BitVec 14) (s : State) : Out := s.branch a b o (fun x y => y.ule x)

/-- JMP (R142). -/
def execJmp (o : BitVec 26) (s : State) : Out := s.scalarDo [] (fun t => t.jumpTo (t.pc + wordOff o))

/-- CALL writes its link to s63 (R142). -/
def execCall (o : BitVec 26) (s : State) : Out :=
  s.scalarDo [63] (fun t => (t.setSreg 63 (t.pc + 4)).jumpTo (t.pc + wordOff o))

/-- The misaligned-fetch trap; a service core's SINFO takes the target (R110, R425; log 12). -/
def State.misaligned (s : State) (target : W64) : State :=
  match s.cur with
  | .service _ => s.takeTrap 0x12 0 target
  | .device | .scalar _ _ | .lane _ _ | .engine _ _ | .halyard _ _ => s.takeTrap 0x12 0 0

/-- JR; a target that is not a multiple of 4 is the misaligned-fetch trap at the JR (R142). -/
def execJr (a : BitVec 6) (s : State) : Out :=
  s.scalarDo [a] (fun t =>
    let x := t.sreg a
    if x.extractLsb' 0 2 = 0 then t.jumpTo x else t.misaligned x)

/-- BEXZ: branch when exec is zero (R143). -/
def execBexz (o : BitVec 26) (s : State) : Out :=
  s.groupDo [] (fun g sp t =>
    if (t.split g sp).exec &&& low64 (t.grp g).desc.w = 0 then t.jumpTo (t.pc + wordOff o) else t.advance)

/-- BEXNZ: branch when exec is nonzero (R143). -/
def execBexnz (o : BitVec 26) (s : State) : Out :=
  s.groupDo [] (fun g sp t =>
    if (t.split g sp).exec &&& low64 (t.grp g).desc.w = 0 then t.advance else t.jumpTo (t.pc + wordOff o))

/-! BRX and JOIN. -/

/-- Target `i` of a table of four signed word offsets (R43). -/
def brxTarget (table : W64) (bs : List Byte) (i : Nat) : W64 :=
  table + ((BitVec.ofNat 32 (numAt bs (4 * i) 4)).signExtend 64 <<< 2)

/-- The active lanes whose index is `i` (R43). -/
def brxPart (r : LaneReg) (exec : W64) (w i : Nat) : W64 :=
  (onesOf exec w).foldl (fun m l => if (r.lane l).toNat % 4 = i then m ||| (1#64 <<< l) else m) 0

/-- A split that has exited or merged: its accesses in flight keep their reservations (R203). -/
def Split.gone (p : Split) : Split := { Split.dead with resv := p.resv, life := p.life }

/-- The parts that BRX forms, as index and mask, when it does not keep one part: creates splits, or runs serially (R43,
R45). -/
def State.brxSplit (s : State) (g sp : Nat) (table : W64) (bs : List Byte) (parts : List (Nat × W64)) : State :=
  let x := s.grp g
  let p := x.split sp
  let first := parts.headD (0, 0)
  let live := x.liveSplits
  if live.length + parts.length - 1 ≤ 4 then
    let tags := p.tags ++ [.tag x.nextTag]
    let free := (List.range 4).filter (fun k => !(x.split k).live)
    let y := (parts.tail.zip free).foldl (fun (z : Group) q =>
      z.setSplit q.2 { (x.split q.2).gone with live := true, spc := brxTarget table bs q.1.1, exec := q.1.2, regs := p.regs, tags := tags,
                                               born := (sp, s.nextId) :: p.born, life := (x.split q.2).life + 1 })
      { x with nextTag := x.nextTag + 1 }
    s.setGrp g (y.setSplit sp { p with spc := brxTarget table bs first.1, exec := first.2, tags := tags, stall := none,
                                       born := (sp, s.nextId) :: p.born })
  else
    let rest := fun i => ((parts.tail.find? (fun q => q.1 == i)).map (·.2)).getD 0
    s.setSplit g sp { p with
      spc := brxTarget table bs first.1
      exec := first.2
      tags := p.tags ++ [.serial first.1 (parts.foldl (fun m q => m ||| q.2) 0) table (rest 1) (rest 2) (rest 3)]
      stall := none }

/-- An LDS or ATOMS of the split has not returned its register (R153). -/
def Group.regsAwaited (x : Group) (sp : Nat) : Bool :=
  x.acc.any (fun a => a.split == sp && a.dst != 0 && match a.op with
    | .lds | .atoms _ => true
    | .load _ | .store | .atom _ _ _ | .lres _ | .scond _ | .accrd _ _ | .accwr _ | .accerm _ | .glean _ | .recput _ | .sts => false)

/-- BRX, once its lane register can be read (R43 to R45). One that creates splits reads every scalar register, and so waits for each that
an LDS or ATOMS has still to write (R153; log 111). -/
def State.brxGo (s : State) (g sp : Nat) (r : LaneReg) (x : Group) (t : BitVec 16) : State :=
  let p := x.split sp
  let table := p.spc + wordOff t
  match s.fetchHalves (some x.core) table 8 with
  | (s1, .ok bs) =>
    let s2 := s1.modGrp g (fun y => { y with oq := x.oq })
    let exec := p.exec &&& low64 x.desc.w
    let parts := ((List.range 4).map (fun i => (i, brxPart r exec x.desc.w i))).filter (fun q => q.2 != 0)
    match parts with
    | [] | [_] =>
      let i := (parts.headD (0, 0)).1
      (s2.modGrp g (fun y => { y with nextTag := y.nextTag + 1 })).modSplit g sp (fun q =>
        { q with tags := q.tags ++ [.tag x.nextTag], spc := brxTarget table bs i, stall := none })
    | _ :: _ :: _ => if x.regsAwaited sp && decide (x.liveSplits.length + parts.length - 1 ≤ 4) then s1.stallAs .interlock
      else s2.brxSplit g sp table bs parts
  | (s1, f) => s1.fetchFailed g sp f false p.spc

/-- BRX (R42 to R45, R144); inside a handler, with V at or above 640, or with the tag stack full, an illegal instruction. -/
def execBrx (v : BitVec 10) (t : BitVec 16) (s : State) : Out :=
  s.groupDo [] (fun g sp s =>
    let x := s.grp g
    let p := x.split sp
    if 640 ≤ v.toNat ∨ p.inHandler ∨ 4 ≤ p.tags.length then s.illegal
    else
      match x.popOf v.toNat with
      | some q =>
        if (x.oq.get [] q).isEmpty then s.stallAs .pop
        else
          let u := x.pop q
          s.brxGo g sp u.1 u.2 t
      | none =>
        if s.regAwaited g sp v.toNat then s.stallAs .interlock
        else if x.vBad.contains v.toNat then s.machineCheck g sp 0 0 s.pc 0 0xFF
        else s.brxGo g sp (x.reg v.toNat) x t)

/-- A tag stands in the stack (R44). -/
def Split.carries (p : Split) (id : Nat) : Bool := p.tags.contains (.tag id)

/-- The remaining part of a serial record that runs next (R45). -/
def serialNext (part : Nat) (p1 p2 p3 : W64) : Option (Nat × W64) :=
  if part < 1 ∧ p1 ≠ 0 then some (1, p1)
  else if part < 2 ∧ p2 ≠ 0 then some (2, p2)
  else if part < 3 ∧ p3 ≠ 0 then some (3, p3)
  else none

/-- JOIN (R44, R45, R145): nothing with an empty stack; the next part, or the end, of a serial record; past the JOIN when no
other live split carries the tag; else the split waits there for JOIN_MERGE. -/
def execJoin (s : State) : Out :=
  s.groupDo [] (fun g sp s =>
    let x := s.grp g
    let p := x.split sp
    if p.inHandler then s.illegal
    else
      match p.tags.getLast? with
      | none => s.advance
      | some (.tag id) =>
        if x.liveSplits.any (fun k => k != sp && (x.split k).carries id) then s.stallAs .join
        else if !p.drained then s.stallAs .join
        else (s.setSplit g sp { p with tags := p.tags.dropLast }).advance
      | some (.serial part union table p1 p2 p3) =>
        if !p.drained then s.stallAs .join
        else
          match serialNext part p1 p2 p3 with
          | none => (s.setSplit g sp { p with tags := p.tags.dropLast, exec := union }).advance
          | some (i, m) =>
            match s.fetchHalves (some x.core) table 8 with
            | (s1, .ok bs) =>
              s1.modSplit g sp (fun q => { q with
                spc := brxTarget table bs i
                exec := m
                stall := none
                tags := q.tags.dropLast ++ [.serial i union table (if i < 1 then p1 else 0) (if i < 2 then p2 else 0)
                  (if i < 3 then p3 else 0)] })
            | (s1, f) => s1.fetchFailed g sp f false p.spc)

/-- The tag on which a split waits at a JOIN. -/
def Split.joinTag (p : Split) : Option Nat :=
  if p.stall = some .join then (match p.tags.getLast? with
    | some (.tag id) => some id
    | _ => none)
  else none

/-- An access of a split that is no more: an LDS or ATOMS has no scalar register to write (R44, R146). -/
def Access.orphan (a : Access) : Access :=
  match a.op with
  | .lds | .atoms _ | .sts => { a with dst := 0 }
  | .lres _ | .load _ | .store | .atom _ _ _ | .scond _ | .accrd _ _ | .accwr _ | .accerm _ | .glean _ | .recput _ => a

/-- Split `k` of the group is no more. -/
def Group.orphan (x : Group) (k : Nat) : Group := { x with acc := x.acc.map (fun a => if a.split = k then a.orphan else a) }

/-- The merge of the splits that wait with tag `id` on top, at place `pos` of the program order; every access of the joiners precedes
those of the merged split (R44, R250). -/
def Group.mergeSplits (x : Group) (pos : Nat) (joiners : List Nat) : Group :=
  match joiners with
  | [] => x
  | k :: rest =>
    let p := x.split k
    let y := rest.foldl (fun (z : Group) j => (z.orphan j).setSplit j (x.split j).gone) x
    let q := { p with
      born := joiners.map (fun j => (j, pos)) ++ joiners.flatMap (fun j => (x.split j).born)
      exec := joiners.foldl (fun m j => m ||| (x.split j).exec) 0
      tags := p.tags.dropLast
      spc := p.spc + 4
      stall := none }
    { y.setSplit k q with
      cur := if joiners.contains x.cur then k else x.cur }

/-- JOIN_MERGE: every live split that carries the tag waits at a JOIN with it on top; at one address they merge, at
different ones the group takes the illegal-instruction trap (R44). -/
def State.joinMerge (s : State) (g : Nat) : State :=
  let x := s.grp g
  let tags := (x.liveSplits.filterMap (fun k => (x.split k).joinTag))
  match tags.find? (fun id => x.liveSplits.all (fun k => !(x.split k).carries id || (x.split k).joinTag == some id)) with
  | none => s
  | some id =>
    let js := x.liveSplits.filter (fun k => (x.split k).carries id)
    let k := js.headD 0
    if js.any (fun j => (x.split j).spc != (x.split k).spc) then s.fatal g 0x10 (x.split k).spc 0 0 k
    else if js.all (fun j => (x.split j).drained) then s.setGrp g (x.mergeSplits s.nextId js)
    else s

/-- JOIN_MERGE (R44). -/
def execJoinMerge (g : Nat) (s : State) : Out := s.eventDo (fun t => t.joinMerge g)

/-- EXIT (R146): the split leaves once its lane queue is empty; the last one discards the commands that wait on an unresolved
guard, and the group then waits for GROUP_EXIT_COMPLETE. -/
def execExit (s : State) : Out :=
  s.groupDo [] (fun g sp s =>
    let x := s.grp g
    let p := x.split sp
    if p.inHandler then s.illegal
    else if !p.drained then s.stallAs .exit
    else
      let s1 := (s.setSplit g sp { p.gone with regs := p.regs, spc := p.spc, exec := p.exec, stall := some .exit }).modGrp g
        (fun y => y.orphan sp)
      if x.liveSplits.length ≤ 1 then
        let s2 := s1.modCore x.core (fun k => { k with hal := k.hal.map (fun h =>
          (h.1, if h.2.running && h.2.owner == g then { h.2 with running := false, parked := false } else h.2)) })
        s2.discardHeld g
      else s1)

/-- GROUP_EXIT_COMPLETE (R146): with no live split, every flag clear, every counter zero and every LDS and ATOMS returned, the
group is Exited and its records return to their pool (R345). -/
def State.exitComplete (s : State) (g : Nat) : State :=
  let x := s.grp g
  let waiting := x.acc.any (fun a => match a.op with
    | .lds | .atoms _ => true
    | .load _ | .store | .atom _ _ _ | .lres _ | .scond _ | .accrd _ _ | .accwr _ | .accerm _ | .glean _ | .recput _
    | .sts => false)
  if x.st == .active && x.liveSplits.isEmpty && x.quiet && !waiting then
    let s1 := s.groupLeaves g .exited
    match s1.launch x.launch with
    | some l =>
      ((s1.modNode l.run l.node (fun m => { m with held := m.held.filter (fun k => !x.slots.contains k) })).markBin l.run l.node).trySuspend
        l.run
    | none => s1
  else s

/-- GROUP_EXIT_COMPLETE (R146). -/
def execGroupExitComplete (g : Nat) (s : State) : Out := s.eventDo (fun t => t.exitComplete g)

/-! Running lane clauses and waiting. -/

/-- Enqueues the clause at `target` once its header and length codes pass (R103, R147). -/
def State.lrunAt (s : State) (g sp : Nat) (target : W64) : State :=
  let x := s.grp g
  let p := x.split sp
  if p.queueFull then s.stallAs .queueFull
  else if target.extractLsb' 0 3 ≠ 0 then s.takeTrap 0x12 0 0
  else
    match s.fetchHalves (some x.core) target 4 with
    | (s1, .ok hb) =>
      match headerOf hb with
      | none => s1.takeTrap 0x11 0 0
      | some h =>
        match s1.fetchHalves (some x.core) (target + 8) (h.len * 4 - 4) with
        | (s2, .ok bs) =>
          if lengthsEnd 256 bs then
            let u := s2.fresh
            (u.2.modSplit g sp (fun q => q.enqueue
              { kind := .clause (target &&& 0x00FFFFFFFFFFFFFF#64) 0, val := q.exec &&& low64 x.desc.w, no := u.1, pc := p.spc })).advance
          else s2.takeTrap 0x11 0 0
        | (s2, f) => s2.fetchFailed g sp f false p.spc
    | (s1, f) => s1.fetchFailed g sp f false p.spc

/-- LRUN: the clause at LCB + OFF20 × 8 (R147). -/
def execLrun (o : BitVec 20) (s : State) : Out :=
  s.groupDo [] (fun g sp t => t.lrunAt g sp ((t.grp g).desc.lcb + o.setWidth 64 <<< 3))

/-- LRUNR: the clause at LCB + s[A] + OFF20 × 8 (R147). -/
def execLrunr (a : BitVec 6) (o : BitVec 20) (s : State) : Out :=
  s.groupDo [a] (fun g sp t => t.lrunAt g sp ((t.grp g).desc.lcb + t.sreg a + o.setWidth 64 <<< 3))

/-- WAITF: first every clause enqueued before has started, then every named flag is clear (R39, R148). -/
def execWaitf (f : BitVec 12) (s : State) : Out :=
  s.groupDo [] (fun g sp t =>
    if (t.split g sp).clausesStarted && (t.grp g).flagsClear f.toNat then t.advance else t.stallAs (.waitf f.toNat))

/-- WAITC: first every clause enqueued before has issued, then the counter is at or below s[A] (R149). A group that waits on
a command that a fault has parked is Parked (R233). -/
def State.waitc (s : State) (a : BitVec 6) (c : Nat) : Out :=
  s.groupDo [a] (fun g sp t =>
    let x := t.grp g
    if (t.split g sp).clausesDone && decide ((x.counter c).toNat ≤ (t.sreg a).toNat) then t.advance
    else (t.stallAs (.waitc c (t.sreg a).toNat)).parkStuck g)

/-- WAITC on gld (R149). -/
def execWaitcGld (a : BitVec 6) (s : State) : Out := s.waitc a 0
/-- WAITC on gst (R149). -/
def execWaitcGst (a : BitVec 6) (s : State) : Out := s.waitc a 1
/-- WAITC on spd (R149). -/
def execWaitcSpd (a : BitVec 6) (s : State) : Out := s.waitc a 2
/-- WAITC on gln (R149). -/
def execWaitcGln (a : BitVec 6) (s : State) : Out := s.waitc a 3
/-- WAITC on eng (R149). -/
def execWaitcEng (a : BitVec 6) (s : State) : Out := s.waitc a 4
/-- WAITC on rem (R149). -/
def execWaitcRem (a : BitVec 6) (s : State) : Out := s.waitc a 5

end Sys2Proof.Machine
end

