-- ==== Sys2Proof/Machine/Sched.lean ====
section
/-! DEFINITION. The two-level scheduler and the current split: swaps, releases, split changes and the delivery of user-level traps (R46 to
R51, R276). -/

namespace Sys2Proof.Machine

/-- A sector of a core with no group. -/
def Sector.empty : Sector := { active := [], pending := [], swaps := [] }

def State.sector (s : State) (c k : Nat) : Sector := (s.core c).sectors.get Sector.empty k
def State.setSector (s : State) (c k : Nat) (q : Sector) : State := s.modCore c (fun x => { x with sectors := x.sectors.put k q })

/-! Waits (R48, R51). -/

/-- The clause that a split would start next is held by WAIT flags of gld or gln accesses (R48). -/
def State.headHeld (s : State) (g sp : Nat) : Bool :=
  let x := s.grp g
  let p := x.split sp
  if p.issuing.isSome then false
  else
    match p.target with
    | e :: _ =>
      match e.kind with
      | .clause a _ =>
        match (s.peekHalves (some x.core) a 4).bind headerOf with
        | some h => (List.range 12).any (fun k => h.wait.testBit k && x.acc.any (fun c => c.flag == some k && (c.ctr == some 0 || c.ctr == some 3)))
        | none => false
      | .fpctl _ | .vset _ _ | .mset _ => false
    | [] => false

/-- The split is held by a wait of R48 that still holds. -/
def State.waits (s : State) (g sp : Nat) : Bool :=
  let x := s.grp g
  match (x.split sp).stall with
  | none => false
  | some (.waitc c thr) =>
    ((c == 0 || c == 3 || c == 4 || c == 5) && (!(x.split sp).clausesDone || decide (thr < (x.counter c).toNat))) || s.headHeld g sp
  | some (.barrier _ _ _) => true
  | some (.svc _ _) => true
  | some (.capstan _ _) | some (.gdec _ _) => true
  | some (.gclr k) => s.slotNamed g k
  | some (.hstart k) => (s.hal x.core k).running && (s.hal x.core k).owner != g
  | some (.waitf _) | some .join | some (.yieldp _ _ _) | some .exit | some .trap | some .fence | some .queueFull | some .interlock
  | some .counterFull | some .engineFull | some .pop | some .held => s.headHeld g sp

/-- A split at a JOIN that it cannot pass by itself (R44, R45). -/
def Group.joinHeld (x : Group) (sp : Nat) : Bool :=
  let p := x.split sp
  match p.tags.getLast? with
  | some (.tag id) => x.liveSplits.any (fun k => k != sp && (x.split k).carries id) || !p.drained
  | some (.serial _ _ _ _ _ _) => !p.drained
  | none => false

/-- The split is held, so that another may become current (R51): it has exited, or by a wait of R48, WAITF, JOIN or a full lane queue. A
WAITC on gst or spd, which makes no group waiting, is no such wait (log 13). -/
def State.splitGives (s : State) (g sp : Nat) : Bool :=
  let x := s.grp g
  let p := x.split sp
  !p.live || s.waits g sp ||
    (match p.stall with
     | some (.waitf m) => !p.clausesStarted || !x.flagsClear m
     | some .join => x.joinHeld sp
     | some .queueFull => p.queueFull
     | _ => false)

/-- The split cannot issue: it is held so, or it has stopped at a YIELDP, or it has an undelivered trap while another's handler runs (R273,
R276, R279). -/
def State.splitHeld (s : State) (g sp : Nat) : Bool :=
  let x := s.grp g
  let p := x.split sp
  s.splitGives g sp || (!p.traps.isEmpty && x.handling && !p.inHandler) || p.atYieldp.isSome

/-- Some split of the group can issue. -/
def State.canIssue (s : State) (g : Nat) : Bool := (s.grp g).liveSplits.any (fun k => !s.splitHeld g k)

/-- A group of the active set that waits (R48): its current split waits, and no other can take its place (R51). -/
def State.groupWaits (s : State) (g : Nat) : Bool := s.waits g (s.grp g).cur && !s.canIssue g

/-! Swaps (R49, R50). -/

/-- Age: the order of placement, then the linear id (R47). -/
def Group.older (a b : Group) : Bool := decide (a.age < b.age) || (a.age == b.age && decide (a.gid < b.gid))

/-- The youngest group of a list. -/
def State.youngest (s : State) (l : List Nat) : Option Nat :=
  match l with
  | [] => none
  | g :: rest =>
    match s.youngest rest with
    | none => some g
    | some h => if (s.grp h).older (s.grp g) then some g else some h

/-- The head of the pending set starts to enter the active set (R49). -/
def State.enterSwap (s : State) (c k g : Nat) : State :=
  let q := s.sector c k
  s.setSector c k { q with pending := q.pending.filter (· != g), swaps := q.swaps ++ [(g, s.clock + 4)] }

/-- A waiting group leaves the active set, behind every other pending group (R49). -/
def State.swapOut (s : State) (c k g : Nat) : State :=
  let q := s.sector c k
  (s.setSector c k { q with active := q.active.filter (· != g), pending := q.pending ++ [g] }).modGrp g (fun x =>
    { x with st := .pending, ready := false, outAt := some s.clock })

/-- ACTIVE_SET_SWAP: a ready head of the pending set enters, into a free place or for the youngest waiting group (R49). -/
def State.activeSwap (s : State) (c k : Nat) : State :=
  let q := s.sector c k
  match q.pending with
  | [] => s
  | g :: _ =>
    if !(s.grp g).ready then s
    else if q.active.length + q.swaps.length < 8 then s.enterSwap c k g
    else
      match s.youngest (q.active.filter s.groupWaits) with
      | some h => (s.enterSwap c k g).swapOut c k h
      | none => s

/-- ACTIVE_SET_SWAP (R49). -/
def execActiveSetSwap (core sector : Nat) (s : State) : Out := s.eventDo (fun t => t.activeSwap core sector)

/-- SWAP_COMPLETE: after 4 core clocks the group is Active (R49, R52). -/
def State.swapDone (s : State) (c k g : Nat) : State :=
  let q := s.sector c k
  if q.swaps.any (fun w => w.1 == g && decide (w.2 ≤ s.clock)) then
    (s.setSector c k { q with active := q.active ++ [g], swaps := q.swaps.filter (fun w => w.1 != g) }).modGrp g (fun x =>
      { x with st := .active, ready := false, released := false, outAt := none })
  else s

/-- SWAP_COMPLETE (R49). -/
def execSwapComplete (core sector g : Nat) (s : State) : Out := s.eventDo (fun t => t.swapDone core sector g)

/-- A pending group whose wait has ended, and which is not ready yet (R50). -/
def State.waitOver (s : State) (g : Nat) : Bool :=
  let x := s.grp g
  x.st == .pending && !x.ready && !s.groupWaits g

/-- The group's wait has ended in the clock of the decision to swap it out, this one or one whose release is latched (R50). -/
def State.releasedAtOnce (s : State) (g : Nat) : Bool := (s.grp g).released || (s.grp g).outAt == some s.clock

/-- At the end of a clock the releases of groups that were swapped out in it are latched (R50). -/
def State.latchReleases (s : State) : State :=
  { s with groups := s.groups.map (fun p => (p.1, { p.2 with released := p.2.released || (s.waitOver p.1 && s.releasedAtOnce p.1) })) }

/-- WAIT_RELEASE: a pending group whose wait has ended is ready; at the head, when the release came in the clock of the decision to swap it
out (R49, R50). -/
def State.waitRelease (s : State) (g : Nat) : State :=
  if s.waitOver g then
    (s.makePending g (s.releasedAtOnce g)).modGrp g (fun y => { y with released := false, outAt := none })
  else s

/-- WAIT_RELEASE (R50). -/
def execWaitRelease (g : Nat) (s : State) : Out := s.eventDo (fun t => t.waitRelease g)

/-! The current split (R51). -/

/-- A clause of the split has issued some but not all of its instructions. -/
def Split.midClause (p : Split) : Bool :=
  (match p.run with
   | some r => !r.stopped && decide (4 < r.off)
   | none => false) ||
  (match p.hrun with
   | some r => decide (4 < r.off)
   | none => false)

/-- SPLIT_QUANTUM_EXPIRY: 256 core clocks have passed since the split became current (R51). -/
def execSplitQuantumExpiry (g : Nat) (s : State) : Out :=
  s.eventDo (fun t => if (t.grp g).st == .active && decide ((t.grp g).curSince + 256 ≤ t.clock) then
    t.modGrp g (fun x => { x with changeDue := true }) else t)

/-- The lowest-numbered split with a trap to be delivered, while no handler runs (R276). -/
def Group.trapSplit (x : Group) : Option Nat :=
  if x.handling then none else x.liveSplits.find? (fun k => !(x.split k).traps.isEmpty)

/-- The next split in ascending number that can issue, when the quantum is over or the current one is held (R51). -/
def State.rotateSplit (s : State) (g : Nat) (x : Group) : Option Nat :=
  if x.changeDue || s.splitGives g x.cur then
    ([1, 2, 3, 4].map (fun i => (x.cur + i) % 4)).find? (fun k => !s.splitHeld g k)
  else none

/-- The split that becomes current (R51). -/
def State.nextSplit (s : State) (g : Nat) : Option Nat :=
  let x := s.grp g
  match x.trapSplit with
  | some k => if k = x.cur then s.rotateSplit g x else some k
  | none => s.rotateSplit g x

/-- CURRENT_SPLIT_CHANGE, at a clause boundary (R51). -/
def State.changeSplit (s : State) (g : Nat) : State :=
  let x := s.grp g
  if x.st != .active || (x.split x.cur).midClause then s
  else
    match s.nextSplit g with
    | some k => s.modGrp g (fun y => { y with cur := k, curSince := s.clock, changeDue := false })
    | none => s

/-- CURRENT_SPLIT_CHANGE (R51). -/
def execCurrentSplitChange (g : Nat) (s : State) : Out := s.eventDo (fun t => t.changeSplit g)

/-- TRAP_DELIVERY: the current split, lowest of those with a trap, enters its handler (R273, R276). -/
def State.trapDelivery (s : State) (g : Nat) : State :=
  let x := s.grp g
  if x.st == .active && x.trapSplit == some x.cur then s.deliver g x.cur else s

/-- TRAP_DELIVERY (R273). -/
def execTrapDelivery (g : Nat) (s : State) : Out := s.eventDo (fun t => t.trapDelivery g)

end Sys2Proof.Machine
end

