-- ==== Sys2Proof/Machine/Fetch.lean ====
section
/-! DEFINITION. What each agent runs next: whether it may issue, and the fetch of its next word (R46, R51, R85 to R88, R95, R110,
R273, R324, R372, R424). -/

namespace Sys2Proof.Machine

/-- What a split waits for that only an event ends (R48, R165, R279, R368). -/
def Split.awaitsEvent (p : Split) : Bool :=
  match p.stall with
  | some (.svc _ _) | some (.capstan _ _) | some (.gdec _ _) | some (.yieldp _ _ _) => true
  | _ => false

/-- The scalar stream of a split may issue: the group is Active, the split is current and no undelivered trap stops it (R46, R51, R273). -/
def State.scalarMay (s : State) (g sp : Nat) : Bool :=
  let x := s.grp g
  let p := x.split sp
  x.st == .active && x.cur == sp && p.live && p.trapsLet s.clock 2 && !p.awaitsEvent && !(s.core x.core).halted

/-- The lane stream of a split may issue: the current split's, and that of a split whose clause has started (R51); a group that drains
for its save issues too, at a forced save only started clauses, and nothing past a fault (R229, R279, R282). -/
def State.laneIssues (s : State) (g sp : Nat) : Bool :=
  let x := s.grp g
  let p := x.split sp
  (x.st == .active || (x.st == .yielding && !s.faultHeld g)) && p.live && p.trapsLet s.clock 1 && !(s.core x.core).halted

/-- A scalar word is decoded; one that is none is an illegal instruction (R111). -/
def State.decoded (s : State) (bs : List Byte) : State × Option Instr :=
  match decodeScalar (BitVec.ofNat 32 (numAt bs 0 4)) with
  | .ok i => (s, some i)
  | .error _ => (s.illegal, none)

/-- The next scalar word of a group (R87, R110); an SPC that is not word-aligned is a misaligned fetch. -/
def State.nextScalar (s : State) (g sp : Nat) : State × Option Instr :=
  if !s.scalarMay g sp then (s, none)
  else
    let pc := (s.split g sp).spc
    if pc.extractLsb' 0 2 ≠ 0 then (s.takeTrap 0x12 0 0, none)
    else
      match s.fetchHalves (some (s.grp g).core) pc 2 with
      | (t, .ok bs) => t.decoded bs
      | (t, f) => (t.fetchFailed g sp f false pc, none)

/-- The next scalar word of a service core; a fault or an error of the fetch is its trap (R424, R425). -/
def State.nextService (s : State) (k : Nat) : State × Option Instr :=
  let pc := (s.svc k).pc
  if (s.svc k).halted then (s, none)
  else if pc.extractLsb' 0 2 ≠ 0 then (s.takeTrap 0x12 0 pc, none)
  else
    match s.fetchHalves none pc 2 with
    | (t, .ok bs) => t.decoded bs
    | (t, .fault va _) => (t.takeTrap 0x20 0 va, none)
    | (t, .check pa va) => ((t.noteCheck pa va pc.toNat 0xFF 0xFF 0xFF).takeTrap 0x19 0 (BitVec.ofNat 64 pa), none)

/-- The bytes of the lane code at `va`: its first halfword, and the rest that this one's length code tells (R95); `none` where the code
would take more than `room` halfwords (R88). -/
def State.fetchCode (s : State) (core : Nat) (va : W64) (room : Nat) : State × Option Fetched :=
  match s.fetchHalves (some core) va 1 with
  | (t, .ok h) =>
    if room < codeBytes (h.headD 0) / 2 then (t, none)
    else
      match t.fetchHalves (some core) (va + 2) (codeBytes (h.headD 0) / 2 - 1) with
      | (u, .ok r) => (u, some (.ok (h ++ r)))
      | (u, f) => (u, some f)
  | (t, f) => (t, some f)

/-- The next instruction of the clause that a split issues; one that would run past its clause's end is an illegal clause (R88). -/
noncomputable def State.nextLane (s : State) (g sp : Nat) : State × Option Instr :=
  if !s.laneIssues g sp then (s, none)
  else
    match (s.split g sp).issuing with
    | none => (s, none)
    | some (_, r) =>
      match s.fetchCode (s.grp g).core (r.addr + BitVec.ofNat 64 (2 * r.off)) (r.len - r.off) with
      | (t, none) => (t.takeTrap 0x11 0 0, none)
      | (t, some (.ok bs)) =>
        match decodeLane (laneCodeOf bs) with
        | .ok i => ({ t with fetchLen := bs.length }, some i)
        | .error _ => (t.takeTrap 0x10 (r.exec &&& low64 (s.grp g).desc.w) 0, none)
      | (t, some f) => (t.fetchFailed g sp f true (clauseAt r.addr r.off), none)

/-- The command that an engine queue starts, or goes on with (R324). -/
def State.nextEngine (s : State) (c q : Nat) : State × Option Instr :=
  if (s.core c).halted then (s, none)
  else
    match nextCmd (s.queue c q) with
    | some m => (s, some m.row)
    | none => (s, none)

/-- The contexts of a core that can issue a word: running, not parked, of a group that is resident (R372). -/
def State.halCan (s : State) (c x : Nat) : Bool := (s.hal c x).running && !(s.hal c x).parked

/-- The next word of a Halyard context; a fault parks it, and a word that is none ends the launch (R372, R375). -/
def State.nextHalyard (s : State) (c x : Nat) : State × Option Instr :=
  let h := s.hal c x
  if !s.halCan c x || (s.core c).halted then (s, none)
  else
    match s.fetchHalves (some c) h.pc 4 with
    | (t, .ok bs) =>
      match decodeHalyard (BitVec.ofNat 64 (numAt bs 0 8)) with
      | .ok i => (t, some i)
      | .error _ => (t.illegal, none)
    | (t, .fault va k) => (t.parkHal c x h va k, none)
    | (t, .check pa va) => (t.checkHal c h pa (BitVec.ofNat 64 va), none)

/-- THE NEXT INSTRUCTION of an agent, with the agent in hand; `none` where it issues nothing and the fetch is the whole step. -/
noncomputable def State.nextInstr (s : State) (a : Agent) : State × Option Instr :=
  let t : State := { s with cur := a }
  if s.struck a then (t, none)
  else match a with
  | .device => (t, none)
  | .scalar g sp => t.nextScalar g sp
  | .lane g sp => t.nextLane g sp
  | .engine c q => t.nextEngine c q
  | .service k => t.nextService k
  | .halyard c x => t.nextHalyard c x

end Sys2Proof.Machine
end

