-- ==== Sys2Proof/Machine/ServiceTrap.lean ====
section
/-! DEFINITION. The traps of the service cores as events of their own: SERVICE_CORE_TRAP (R425). -/

namespace Sys2Proof.Machine

/-- The meanings of the words of a scalar stream, which a service core runs too (R424). -/
def serviceMeaning (i : Instr) : Option (State → Out) :=
  match i with
  | .add d a b => some (execAdd d a b)
  | .sub d a b => some (execSub d a b)
  | .mul d a b => some (execMul d a b)
  | .mulh d a b => some (execMulh d a b)
  | .mulhw d a b => some (execMulhw d a b)
  | .div d a b => some (execDiv d a b)
  | .divw d a b => some (execDivw d a b)
  | .rem d a b => some (execRem d a b)
  | .remw d a b => some (execRemw d a b)
  | .and d a b => some (execAnd d a b)
  | .or d a b => some (execOr d a b)
  | .xor d a b => some (execXor d a b)
  | .andn d a b => some (execAndn d a b)
  | .shl d a b => some (execShl d a b)
  | .shr d a b => some (execShr d a b)
  | .sar d a b => some (execSar d a b)
  | .rot d a b => some (execRot d a b)
  | .min d a b => some (execMin d a b)
  | .max d a b => some (execMax d a b)
  | .minw d a b => some (execMinw d a b)
  | .maxw d a b => some (execMaxw d a b)
  | .clz d a => some (execClz d a)
  | .ctz d a => some (execCtz d a)
  | .popc d a => some (execPopc d a)
  | .seq d a b => some (execSeq d a b)
  | .sne d a b => some (execSne d a b)
  | .slt d a b => some (execSlt d a b)
  | .sltw d a b => some (execSltw d a b)
  | .sge d a b => some (execSge d a b)
  | .sgew d a b => some (execSgew d a b)
  | .addi d a imm => some (execAddi d a imm)
  | .andi d a imm => some (execAndi d a imm)
  | .ori d a imm => some (execOri d a imm)
  | .xori d a imm => some (execXori d a imm)
  | .slti d a imm => some (execSlti d a imm)
  | .sltiw d a imm => some (execSltiw d a imm)
  | .shli d a n => some (execShli d a n)
  | .shri d a n => some (execShri d a n)
  | .sari d a n => some (execSari d a n)
  | .roti d a n => some (execRoti d a n)
  | .limm d imm => some (execLimm d imm)
  | .lpc d imm => some (execLpc d imm)
  | .lcaddr d imm => some (execLcaddr d imm)
  | .beq a b o => some (execBeq a b o)
  | .bne a b o => some (execBne a b o)
  | .blt a b o => some (execBlt a b o)
  | .bge a b o => some (execBge a b o)
  | .bltw a b o => some (execBltw a b o)
  | .bgew a b o => some (execBgew a b o)
  | .jmp o => some (execJmp o)
  | .call o => some (execCall o)
  | .jr a => some (execJr a)
  | .brx v t => some (execBrx v t)
  | .join => some execJoin
  | .exit => some execExit
  | .bexz o => some (execBexz o)
  | .bexnz o => some (execBexnz o)
  | .lrun o => some (execLrun o)
  | .lrunr a o => some (execLrunr a o)
  | .waitf f => some (execWaitf f)
  | .waitcGld a => some (execWaitcGld a)
  | .waitcGst a => some (execWaitcGst a)
  | .waitcSpd a => some (execWaitcSpd a)
  | .waitcGln a => some (execWaitcGln a)
  | .waitcEng a => some (execWaitcEng a)
  | .waitcRem a => some (execWaitcRem a)
  | .execSet a => some (execExecSet a)
  | .execGet d => some (execExecGet d)
  | .execAnd a => some (execExecAnd a)
  | .execAndn a => some (execExecAndn a)
  | .execOr a => some (execExecOr a)
  | .execNot a => some (execExecNot a)
  | .execAll => some execExecAll
  | .msav d a => some (execMsav d a)
  | .mset d a => some (execMset d a)
  | .mcnt d a => some (execMcnt d a)
  | .mffs d a => some (execMffs d a)
  | .sget d v l => some (execSget d v l)
  | .vset d v l => some (execVset d v l)
  | .lds d a imm => some (execLds d a imm)
  | .sts d a imm => some (execSts d a imm)
  | .atomsAdd d a b => some (execAtomsAdd d a b)
  | .atomsAnd d a b => some (execAtomsAnd d a b)
  | .atomsOr d a b => some (execAtomsOr d a b)
  | .atomsXchg d a b => some (execAtomsXchg d a b)
  | .atomsCas d a b => some (execAtomsCas d a b)
  | .atomsMin d a b => some (execAtomsMin d a b)
  | .atomsMax d a b => some (execAtomsMax d a b)
  | .csrr d n => some (execCsrr d n)
  | .csrw d a n => some (execCsrw d a n)
  | .csrs d a n => some (execCsrs d a n)
  | .csrc d a n => some (execCsrc d a n)
  | .barInit a b c => some (execBarInit a b c)
  | .barExpect a b c => some (execBarExpect a b c)
  | .barArrive a c => some (execBarArrive a c)
  | .barWait a b c => some (execBarWait a b c)
  | .barTest a b c => some (execBarTest a b c)
  | .fenceAcq c => some (execFenceAcq c)
  | .fenceRel c => some (execFenceRel c)
  | .fenceAcqRel c => some (execFenceAcqRel c)
  | .trap a => some (execTrap a)
  | .utret => some execUtret
  | .yield => some execYield
  | .yieldp a b => some (execYieldp a b)
  | .svc a b => some (execSvc a b)
  | .nop => some execNop
  | .pteW a b => some (execPteW a b)
  | .tlbi a b => some (execTlbi a b)
  | .fqPop a b => some (execFqPop a b)
  | .fqRes a => some (execFqRes a)
  | .fqKill a => some (execFqKill a)
  | .capCtlLoad a b => some (execCapCtlLoad a b)
  | .capCtlUnload a b => some (execCapCtlUnload a b)
  | .capCtlPlan a b => some (execCapCtlPlan a b)
  | .capCtlStart a b => some (execCapCtlStart a b)
  | .capCtlPreempt a b => some (execCapCtlPreempt a b)
  | .capCtlKill a b => some (execCapCtlKill a b)
  | .capCtlStatus a b => some (execCapCtlStatus a b)
  | .capCtlResume a b => some (execCapCtlResume a b)
  | .sailW a b => some (execSailW a b)
  | .coreCtlHalt a b => some (execCoreCtlHalt a b)
  | .coreCtlResume a b => some (execCoreCtlResume a b)
  | .coreCtlReset a b => some (execCoreCtlReset a b)
  | .copy o => some (execCopy o)
  | .copyLbl o => some (execCopyLbl o)
  | .copyScl o => some (execCopyScl o)
  | .fill o => some (execFill o)
  | .put o => some (execPut o)
  | .get o => some (execGet o)
  | .signal o => some (execSignal o)
  | .mma o => some (execMma o)
  | .mmaz o => some (execMmaz o)
  | .mma2 o => some (execMma2 o)
  | .mma2z o => some (execMma2z o)
  | .relld o => some (execRelld o)
  | .tokToM o => some (execTokToM o)
  | .tokToV o => some (execTokToV o)
  | .accz o => some (execAccz o)
  | .acclblStore o => some (execAcclblStore o)
  | .acclblLoad o => some (execAcclblLoad o)
  | .tfset o => some (execTfset o)
  | .tfsum o => some (execTfsum o)
  | .hstart a b => some (execHstart a b)
  | .hstop a => some (execHstop a)
  | .hpermit a b => some (execHpermit a b)
  | .gset a b => some (execGset a b)
  | .gclr a => some (execGclr a)
  | .gcond a b => some (execGcond a b)
  | .glaunch a b => some (execGlaunch a b)
  | .gdec a b => some (execGdec a b)
  | .wbind o => some (execWbind o)
  | .wstrip o => some (execWstrip o)
  | .wpart o => some (execWpart o)
  | .wdraw o => some (execWdraw o)
  | .waccept o => some (execWaccept o)
  | .wcommit o => some (execWcommit o)
  | .kvsplice o => some (execKvsplice o)
  | .pfxlk o => some (execPfxlk o)
  | .pfxins o => some (execPfxins o)
  | .pin o => some (execPin o)
  | .unpin o => some (execUnpin o)
  | .rsload o => some (execRsload o)
  | .gldesc o => some (execGldesc o)
  | .glinv o => some (execGlinv o)
  | .thresh o => some (execThresh o)
  | _ => none

/-- What the next word of service core `k` comes to. -/
def State.serviceWord (s : State) (k : Nat) : State :=
  match ({ s with cur := .service k } : State).nextService k with
  | (t, none) => t
  | (t, some i) =>
    match serviceMeaning i with
    | none => t
    | some f =>
      match f t with
      | .next u => u
      | .fault _ | .refused _ => t

/-- SCAUSE and SEPC hold values that a trap of `cause` at the core's pc would change. -/
def SvcCore.untrapped (c : SvcCore) (cause : BitVec 8) : SvcCore := { c with scause := ~~~(cause.setWidth 64), sepc := c.pc + 1 }

/-- The next word of a service core, or its fetch, traps with a cause and information: the trapped state (R425). -/
def State.ownTrap (s : State) (k : Nat) (cause : BitVec 8) (info : W64) : Option State :=
  let c := s.svc k
  let t := (s.setSvc k (c.untrapped cause)).serviceWord k
  let d := t.svc k
  if d.scause = cause.setWidth 64 ∧ d.sepc = c.pc ∧ d.sinfo = info then some { t with cur := s.cur } else none

/-- SERVICE_CORE_TRAP: a running service core takes the trap that its own next word or access raises (R425). -/
def execServiceCoreTrap (core : Nat) (cause : BitVec 8) (info : W64) (s : State) : Out :=
  s.eventDo (fun t => if core < 8 ∧ !(t.svc core).halted then (t.ownTrap core cause info).getD t else t)

end Sys2Proof.Machine
end

