-- ==== Sys2Proof/Machine/Dispatch.lean ====
section
/-! DEFINITION. One arm per row of the opcode table: a direct call of its meaning. -/

namespace Sys2Proof.Machine

/-- One instruction, or one event, carried out. -/
def exec (i : Instr) (s : State) : Host.Outcome State Fault Refusal :=
  match i with
  | .add d a b => Sys2Proof.Machine.execAdd d a b s
  | .sub d a b => Sys2Proof.Machine.execSub d a b s
  | .mul d a b => Sys2Proof.Machine.execMul d a b s
  | .mulh d a b => Sys2Proof.Machine.execMulh d a b s
  | .mulhw d a b => Sys2Proof.Machine.execMulhw d a b s
  | .div d a b => Sys2Proof.Machine.execDiv d a b s
  | .divw d a b => Sys2Proof.Machine.execDivw d a b s
  | .rem d a b => Sys2Proof.Machine.execRem d a b s
  | .remw d a b => Sys2Proof.Machine.execRemw d a b s
  | .and d a b => Sys2Proof.Machine.execAnd d a b s
  | .or d a b => Sys2Proof.Machine.execOr d a b s
  | .xor d a b => Sys2Proof.Machine.execXor d a b s
  | .andn d a b => Sys2Proof.Machine.execAndn d a b s
  | .shl d a b => Sys2Proof.Machine.execShl d a b s
  | .shr d a b => Sys2Proof.Machine.execShr d a b s
  | .sar d a b => Sys2Proof.Machine.execSar d a b s
  | .rot d a b => Sys2Proof.Machine.execRot d a b s
  | .min d a b => Sys2Proof.Machine.execMin d a b s
  | .max d a b => Sys2Proof.Machine.execMax d a b s
  | .minw d a b => Sys2Proof.Machine.execMinw d a b s
  | .maxw d a b => Sys2Proof.Machine.execMaxw d a b s
  | .clz d a => Sys2Proof.Machine.execClz d a s
  | .ctz d a => Sys2Proof.Machine.execCtz d a s
  | .popc d a => Sys2Proof.Machine.execPopc d a s
  | .seq d a b => Sys2Proof.Machine.execSeq d a b s
  | .sne d a b => Sys2Proof.Machine.execSne d a b s
  | .slt d a b => Sys2Proof.Machine.execSlt d a b s
  | .sltw d a b => Sys2Proof.Machine.execSltw d a b s
  | .sge d a b => Sys2Proof.Machine.execSge d a b s
  | .sgew d a b => Sys2Proof.Machine.execSgew d a b s
  | .addi d a imm => Sys2Proof.Machine.execAddi d a imm s
  | .andi d a imm => Sys2Proof.Machine.execAndi d a imm s
  | .ori d a imm => Sys2Proof.Machine.execOri d a imm s
  | .xori d a imm => Sys2Proof.Machine.execXori d a imm s
  | .slti d a imm => Sys2Proof.Machine.execSlti d a imm s
  | .sltiw d a imm => Sys2Proof.Machine.execSltiw d a imm s
  | .shli d a n => Sys2Proof.Machine.execShli d a n s
  | .shri d a n => Sys2Proof.Machine.execShri d a n s
  | .sari d a n => Sys2Proof.Machine.execSari d a n s
  | .roti d a n => Sys2Proof.Machine.execRoti d a n s
  | .limm d imm => Sys2Proof.Machine.execLimm d imm s
  | .lpc d imm => Sys2Proof.Machine.execLpc d imm s
  | .lcaddr d imm => Sys2Proof.Machine.execLcaddr d imm s
  | .beq a b o => Sys2Proof.Machine.execBeq a b o s
  | .bne a b o => Sys2Proof.Machine.execBne a b o s
  | .blt a b o => Sys2Proof.Machine.execBlt a b o s
  | .bge a b o => Sys2Proof.Machine.execBge a b o s
  | .bltw a b o => Sys2Proof.Machine.execBltw a b o s
  | .bgew a b o => Sys2Proof.Machine.execBgew a b o s
  | .jmp o => Sys2Proof.Machine.execJmp o s
  | .call o => Sys2Proof.Machine.execCall o s
  | .jr a => Sys2Proof.Machine.execJr a s
  | .brx v t => Sys2Proof.Machine.execBrx v t s
  | .join => Sys2Proof.Machine.execJoin s
  | .exit => Sys2Proof.Machine.execExit s
  | .bexz o => Sys2Proof.Machine.execBexz o s
  | .bexnz o => Sys2Proof.Machine.execBexnz o s
  | .lrun o => Sys2Proof.Machine.execLrun o s
  | .lrunr a o => Sys2Proof.Machine.execLrunr a o s
  | .waitf f => Sys2Proof.Machine.execWaitf f s
  | .waitcGld a => Sys2Proof.Machine.execWaitcGld a s
  | .waitcGst a => Sys2Proof.Machine.execWaitcGst a s
  | .waitcSpd a => Sys2Proof.Machine.execWaitcSpd a s
  | .waitcGln a => Sys2Proof.Machine.execWaitcGln a s
  | .waitcEng a => Sys2Proof.Machine.execWaitcEng a s
  | .waitcRem a => Sys2Proof.Machine.execWaitcRem a s
  | .execSet a => Sys2Proof.Machine.execExecSet a s
  | .execGet d => Sys2Proof.Machine.execExecGet d s
  | .execAnd a => Sys2Proof.Machine.execExecAnd a s
  | .execAndn a => Sys2Proof.Machine.execExecAndn a s
  | .execOr a => Sys2Proof.Machine.execExecOr a s
  | .execNot a => Sys2Proof.Machine.execExecNot a s
  | .execAll => Sys2Proof.Machine.execExecAll s
  | .msav d a => Sys2Proof.Machine.execMsav d a s
  | .mset d a => Sys2Proof.Machine.execMset d a s
  | .mcnt d a => Sys2Proof.Machine.execMcnt d a s
  | .mffs d a => Sys2Proof.Machine.execMffs d a s
  | .sget d v l => Sys2Proof.Machine.execSget d v l s
  | .vset d v l => Sys2Proof.Machine.execVset d v l s
  | .lds d a imm => Sys2Proof.Machine.execLds d a imm s
  | .sts d a imm => Sys2Proof.Machine.execSts d a imm s
  | .atomsAdd d a b => Sys2Proof.Machine.execAtomsAdd d a b s
  | .atomsAnd d a b => Sys2Proof.Machine.execAtomsAnd d a b s
  | .atomsOr d a b => Sys2Proof.Machine.execAtomsOr d a b s
  | .atomsXchg d a b => Sys2Proof.Machine.execAtomsXchg d a b s
  | .atomsCas d a b => Sys2Proof.Machine.execAtomsCas d a b s
  | .atomsMin d a b => Sys2Proof.Machine.execAtomsMin d a b s
  | .atomsMax d a b => Sys2Proof.Machine.execAtomsMax d a b s
  | .csrr d n => Sys2Proof.Machine.execCsrr d n s
  | .csrw d a n => Sys2Proof.Machine.execCsrw d a n s
  | .csrs d a n => Sys2Proof.Machine.execCsrs d a n s
  | .csrc d a n => Sys2Proof.Machine.execCsrc d a n s
  | .barInit a b c => Sys2Proof.Machine.execBarInit a b c s
  | .barExpect a b c => Sys2Proof.Machine.execBarExpect a b c s
  | .barArrive a c => Sys2Proof.Machine.execBarArrive a c s
  | .barWait a b c => Sys2Proof.Machine.execBarWait a b c s
  | .barTest a b c => Sys2Proof.Machine.execBarTest a b c s
  | .fenceAcq c => Sys2Proof.Machine.execFenceAcq c s
  | .fenceRel c => Sys2Proof.Machine.execFenceRel c s
  | .fenceAcqRel c => Sys2Proof.Machine.execFenceAcqRel c s
  | .trap a => Sys2Proof.Machine.execTrap a s
  | .utret => Sys2Proof.Machine.execUtret s
  | .yield => Sys2Proof.Machine.execYield s
  | .yieldp a b => Sys2Proof.Machine.execYieldp a b s
  | .svc a b => Sys2Proof.Machine.execSvc a b s
  | .nop => Sys2Proof.Machine.execNop s
  | .pteW a b => Sys2Proof.Machine.execPteW a b s
  | .tlbi a b => Sys2Proof.Machine.execTlbi a b s
  | .fqPop a b => Sys2Proof.Machine.execFqPop a b s
  | .fqRes a => Sys2Proof.Machine.execFqRes a s
  | .fqKill a => Sys2Proof.Machine.execFqKill a s
  | .capCtlLoad a b => Sys2Proof.Machine.execCapCtlLoad a b s
  | .capCtlUnload a b => Sys2Proof.Machine.execCapCtlUnload a b s
  | .capCtlPlan a b => Sys2Proof.Machine.execCapCtlPlan a b s
  | .capCtlStart a b => Sys2Proof.Machine.execCapCtlStart a b s
  | .capCtlPreempt a b => Sys2Proof.Machine.execCapCtlPreempt a b s
  | .capCtlKill a b => Sys2Proof.Machine.execCapCtlKill a b s
  | .capCtlStatus a b => Sys2Proof.Machine.execCapCtlStatus a b s
  | .capCtlResume a b => Sys2Proof.Machine.execCapCtlResume a b s
  | .sailW a b => Sys2Proof.Machine.execSailW a b s
  | .coreCtlHalt a b => Sys2Proof.Machine.execCoreCtlHalt a b s
  | .coreCtlResume a b => Sys2Proof.Machine.execCoreCtlResume a b s
  | .coreCtlReset a b => Sys2Proof.Machine.execCoreCtlReset a b s
  | .copy o => Sys2Proof.Machine.execCopy o s
  | .copyLbl o => Sys2Proof.Machine.execCopyLbl o s
  | .copyScl o => Sys2Proof.Machine.execCopyScl o s
  | .fill o => Sys2Proof.Machine.execFill o s
  | .put o => Sys2Proof.Machine.execPut o s
  | .get o => Sys2Proof.Machine.execGet o s
  | .signal o => Sys2Proof.Machine.execSignal o s
  | .mma o => Sys2Proof.Machine.execMma o s
  | .mmaz o => Sys2Proof.Machine.execMmaz o s
  | .mma2 o => Sys2Proof.Machine.execMma2 o s
  | .mma2z o => Sys2Proof.Machine.execMma2z o s
  | .relld o => Sys2Proof.Machine.execRelld o s
  | .tokToM o => Sys2Proof.Machine.execTokToM o s
  | .tokToV o => Sys2Proof.Machine.execTokToV o s
  | .accz o => Sys2Proof.Machine.execAccz o s
  | .acclblStore o => Sys2Proof.Machine.execAcclblStore o s
  | .acclblLoad o => Sys2Proof.Machine.execAcclblLoad o s
  | .tfset o => Sys2Proof.Machine.execTfset o s
  | .tfsum o => Sys2Proof.Machine.execTfsum o s
  | .hstart a b => Sys2Proof.Machine.execHstart a b s
  | .hstop a => Sys2Proof.Machine.execHstop a s
  | .hpermit a b => Sys2Proof.Machine.execHpermit a b s
  | .gset a b => Sys2Proof.Machine.execGset a b s
  | .gclr a => Sys2Proof.Machine.execGclr a s
  | .gcond a b => Sys2Proof.Machine.execGcond a b s
  | .glaunch a b => Sys2Proof.Machine.execGlaunch a b s
  | .gdec a b => Sys2Proof.Machine.execGdec a b s
  | .wbind o => Sys2Proof.Machine.execWbind o s
  | .wstrip o => Sys2Proof.Machine.execWstrip o s
  | .wpart o => Sys2Proof.Machine.execWpart o s
  | .wdraw o => Sys2Proof.Machine.execWdraw o s
  | .waccept o => Sys2Proof.Machine.execWaccept o s
  | .wcommit o => Sys2Proof.Machine.execWcommit o s
  | .kvsplice o => Sys2Proof.Machine.execKvsplice o s
  | .pfxlk o => Sys2Proof.Machine.execPfxlk o s
  | .pfxins o => Sys2Proof.Machine.execPfxins o s
  | .pin o => Sys2Proof.Machine.execPin o s
  | .unpin o => Sys2Proof.Machine.execUnpin o s
  | .rsload o => Sys2Proof.Machine.execRsload o s
  | .gldesc o => Sys2Proof.Machine.execGldesc o s
  | .glinv o => Sys2Proof.Machine.execGlinv o s
  | .thresh o => Sys2Proof.Machine.execThresh o s
  | .dictionaryCode reb idx => Sys2Proof.Machine.execDictionaryCode reb idx s
  | .laneNopL16 reb => Sys2Proof.Machine.execLaneNopL16 reb s
  | .hlSet o => Sys2Proof.Machine.execHlSet o s
  | .hlLoop o => Sys2Proof.Machine.execHlLoop o s
  | .hlNext o => Sys2Proof.Machine.execHlNext o s
  | .hlStr o => Sys2Proof.Machine.execHlStr o s
  | .hlEmit o => Sys2Proof.Machine.execHlEmit o s
  | .hlGuard o => Sys2Proof.Machine.execHlGuard o s
  | .hlGuardRes o => Sys2Proof.Machine.execHlGuardRes o s
  | .hlBarExpect o => Sys2Proof.Machine.execHlBarExpect o s
  | .hlBarArrive o => Sys2Proof.Machine.execHlBarArrive o s
  | .hlEnd o => Sys2Proof.Machine.execHlEnd o s
  | .laneNopL32 o => Sys2Proof.Machine.execLaneNopL32 o s
  | .laneMovL32 o => Sys2Proof.Machine.execLaneMovL32 o s
  | .laneAddL32 o => Sys2Proof.Machine.execLaneAddL32 o s
  | .laneSubL32 o => Sys2Proof.Machine.execLaneSubL32 o s
  | .laneMulL32 o => Sys2Proof.Machine.execLaneMulL32 o s
  | .laneMulhL32 o => Sys2Proof.Machine.execLaneMulhL32 o s
  | .laneMulhwL32 o => Sys2Proof.Machine.execLaneMulhwL32 o s
  | .laneMinL32 o => Sys2Proof.Machine.execLaneMinL32 o s
  | .laneMaxL32 o => Sys2Proof.Machine.execLaneMaxL32 o s
  | .laneMinwL32 o => Sys2Proof.Machine.execLaneMinwL32 o s
  | .laneMaxwL32 o => Sys2Proof.Machine.execLaneMaxwL32 o s
  | .laneAndL32 o => Sys2Proof.Machine.execLaneAndL32 o s
  | .laneOrL32 o => Sys2Proof.Machine.execLaneOrL32 o s
  | .laneXorL32 o => Sys2Proof.Machine.execLaneXorL32 o s
  | .laneAndnL32 o => Sys2Proof.Machine.execLaneAndnL32 o s
  | .laneNotL32 o => Sys2Proof.Machine.execLaneNotL32 o s
  | .laneShlL32 o => Sys2Proof.Machine.execLaneShlL32 o s
  | .laneShrL32 o => Sys2Proof.Machine.execLaneShrL32 o s
  | .laneSarL32 o => Sys2Proof.Machine.execLaneSarL32 o s
  | .laneRotL32 o => Sys2Proof.Machine.execLaneRotL32 o s
  | .laneClzL32 o => Sys2Proof.Machine.execLaneClzL32 o s
  | .laneCtzL32 o => Sys2Proof.Machine.execLaneCtzL32 o s
  | .lanePopcL32 o => Sys2Proof.Machine.execLanePopcL32 o s
  | .laneAbsL32 o => Sys2Proof.Machine.execLaneAbsL32 o s
  | .laneNegL32 o => Sys2Proof.Machine.execLaneNegL32 o s
  | .faddL32 o => Sys2Proof.Machine.execFaddL32 o s
  | .fsubL32 o => Sys2Proof.Machine.execFsubL32 o s
  | .fmulL32 o => Sys2Proof.Machine.execFmulL32 o s
  | .fminL32 o => Sys2Proof.Machine.execFminL32 o s
  | .fmaxL32 o => Sys2Proof.Machine.execFmaxL32 o s
  | .fabsL32 o => Sys2Proof.Machine.execFabsL32 o s
  | .fnegL32 o => Sys2Proof.Machine.execFnegL32 o s
  | .cmpEqL32 o => Sys2Proof.Machine.execCmpEqL32 o s
  | .cmpNeL32 o => Sys2Proof.Machine.execCmpNeL32 o s
  | .cmpLtL32 o => Sys2Proof.Machine.execCmpLtL32 o s
  | .cmpLeL32 o => Sys2Proof.Machine.execCmpLeL32 o s
  | .cmpLtwL32 o => Sys2Proof.Machine.execCmpLtwL32 o s
  | .cmpLewL32 o => Sys2Proof.Machine.execCmpLewL32 o s
  | .fcmpEqL32 o => Sys2Proof.Machine.execFcmpEqL32 o s
  | .fcmpNeL32 o => Sys2Proof.Machine.execFcmpNeL32 o s
  | .fcmpLtL32 o => Sys2Proof.Machine.execFcmpLtL32 o s
  | .fcmpLeL32 o => Sys2Proof.Machine.execFcmpLeL32 o s
  | .fcmpUnL32 o => Sys2Proof.Machine.execFcmpUnL32 o s
  | .fclsL32 o => Sys2Proof.Machine.execFclsL32 o s
  | .lidL32 o => Sys2Proof.Machine.execLidL32 o s
  | .vshapeL32 o => Sys2Proof.Machine.execVshapeL32 o s
  | .laneNop o => Sys2Proof.Machine.execLaneNop o s
  | .laneMov o => Sys2Proof.Machine.execLaneMov o s
  | .laneAdd o => Sys2Proof.Machine.execLaneAdd o s
  | .laneSub o => Sys2Proof.Machine.execLaneSub o s
  | .laneMul o => Sys2Proof.Machine.execLaneMul o s
  | .laneMulh o => Sys2Proof.Machine.execLaneMulh o s
  | .laneMulhw o => Sys2Proof.Machine.execLaneMulhw o s
  | .laneMin o => Sys2Proof.Machine.execLaneMin o s
  | .laneMax o => Sys2Proof.Machine.execLaneMax o s
  | .laneMinw o => Sys2Proof.Machine.execLaneMinw o s
  | .laneMaxw o => Sys2Proof.Machine.execLaneMaxw o s
  | .laneAnd o => Sys2Proof.Machine.execLaneAnd o s
  | .laneOr o => Sys2Proof.Machine.execLaneOr o s
  | .laneXor o => Sys2Proof.Machine.execLaneXor o s
  | .laneAndn o => Sys2Proof.Machine.execLaneAndn o s
  | .laneNot o => Sys2Proof.Machine.execLaneNot o s
  | .laneShl o => Sys2Proof.Machine.execLaneShl o s
  | .laneShr o => Sys2Proof.Machine.execLaneShr o s
  | .laneSar o => Sys2Proof.Machine.execLaneSar o s
  | .laneRot o => Sys2Proof.Machine.execLaneRot o s
  | .laneClz o => Sys2Proof.Machine.execLaneClz o s
  | .laneCtz o => Sys2Proof.Machine.execLaneCtz o s
  | .lanePopc o => Sys2Proof.Machine.execLanePopc o s
  | .laneAbs o => Sys2Proof.Machine.execLaneAbs o s
  | .laneNeg o => Sys2Proof.Machine.execLaneNeg o s
  | .fadd o => Sys2Proof.Machine.execFadd o s
  | .fsub o => Sys2Proof.Machine.execFsub o s
  | .fmul o => Sys2Proof.Machine.execFmul o s
  | .fmin o => Sys2Proof.Machine.execFmin o s
  | .fmax o => Sys2Proof.Machine.execFmax o s
  | .fabs o => Sys2Proof.Machine.execFabs o s
  | .fneg o => Sys2Proof.Machine.execFneg o s
  | .cmpEq o => Sys2Proof.Machine.execCmpEq o s
  | .cmpNe o => Sys2Proof.Machine.execCmpNe o s
  | .cmpLt o => Sys2Proof.Machine.execCmpLt o s
  | .cmpLe o => Sys2Proof.Machine.execCmpLe o s
  | .cmpLtw o => Sys2Proof.Machine.execCmpLtw o s
  | .cmpLew o => Sys2Proof.Machine.execCmpLew o s
  | .fcmpEq o => Sys2Proof.Machine.execFcmpEq o s
  | .fcmpNe o => Sys2Proof.Machine.execFcmpNe o s
  | .fcmpLt o => Sys2Proof.Machine.execFcmpLt o s
  | .fcmpLe o => Sys2Proof.Machine.execFcmpLe o s
  | .fcmpUn o => Sys2Proof.Machine.execFcmpUn o s
  | .fcls o => Sys2Proof.Machine.execFcls o s
  | .lid o => Sys2Proof.Machine.execLid o s
  | .vshape o => Sys2Proof.Machine.execVshape o s
  | .mad o => Sys2Proof.Machine.execMad o s
  | .fma o => Sys2Proof.Machine.execFma o s
  | .sel o => Sys2Proof.Machine.execSel o s
  | .bfe o => Sys2Proof.Machine.execBfe o s
  | .bfi o => Sys2Proof.Machine.execBfi o s
  | .cvt o => Sys2Proof.Machine.execCvt o s
  | .frnd o => Sys2Proof.Machine.execFrnd o s
  | .fscale o => Sys2Proof.Machine.execFscale o s
  | .hadd2 o => Sys2Proof.Machine.execHadd2 o s
  | .hmul2 o => Sys2Proof.Machine.execHmul2 o s
  | .hfma2 o => Sys2Proof.Machine.execHfma2 o s
  | .dqE4 o => Sys2Proof.Machine.execDqE4 o s
  | .dqE5 o => Sys2Proof.Machine.execDqE5 o s
  | .dqE3m2 o => Sys2Proof.Machine.execDqE3m2 o s
  | .dqE2m3 o => Sys2Proof.Machine.execDqE2m3 o s
  | .dqFp4 o => Sys2Proof.Machine.execDqFp4 o s
  | .dqI8 o => Sys2Proof.Machine.execDqI8 o s
  | .dqI4 o => Sys2Proof.Machine.execDqI4 o s
  | .dqPs8 o => Sys2Proof.Machine.execDqPs8 o s
  | .dqPs4 o => Sys2Proof.Machine.execDqPs4 o s
  | .frcp o => Sys2Proof.Machine.execFrcp o s
  | .frsq o => Sys2Proof.Machine.execFrsq o s
  | .fsqrt o => Sys2Proof.Machine.execFsqrt o s
  | .flog2 o => Sys2Proof.Machine.execFlog2 o s
  | .fexp2 o => Sys2Proof.Machine.execFexp2 o s
  | .ftanh o => Sys2Proof.Machine.execFtanh o s
  | .shfl o => Sys2Proof.Machine.execShfl o s
  | .vote o => Sys2Proof.Machine.execVote o s
  | .red o => Sys2Proof.Machine.execRed o s
  | .scan o => Sys2Proof.Machine.execScan o s
  | .vtos o => Sys2Proof.Machine.execVtos o s
  | .xpr o => Sys2Proof.Machine.execXpr o s
  | .rng o => Sys2Proof.Machine.execRng o s
  | .ldG o => Sys2Proof.Machine.execLdG o s
  | .stG o => Sys2Proof.Machine.execStG o s
  | .ldS o => Sys2Proof.Machine.execLdS o s
  | .stS o => Sys2Proof.Machine.execStS o s
  | .ldC o => Sys2Proof.Machine.execLdC o s
  | .stC o => Sys2Proof.Machine.execStC o s
  | .atomG o => Sys2Proof.Machine.execAtomG o s
  | .atomS o => Sys2Proof.Machine.execAtomS o s
  | .atomC o => Sys2Proof.Machine.execAtomC o s
  | .lres o => Sys2Proof.Machine.execLres o s
  | .scond o => Sys2Proof.Machine.execScond o s
  | .futRd o => Sys2Proof.Machine.execFutRd o s
  | .futWr o => Sys2Proof.Machine.execFutWr o s
  | .stag o => Sys2Proof.Machine.execStag o s
  | .stagW o => Sys2Proof.Machine.execStagW o s
  | .prf o => Sys2Proof.Machine.execPrf o s
  | .recput o => Sys2Proof.Machine.execRecput o s
  | .accrd o => Sys2Proof.Machine.execAccrd o s
  | .accwr o => Sys2Proof.Machine.execAccwr o s
  | .accerm o => Sys2Proof.Machine.execAccerm o s
  | .glean o => Sys2Proof.Machine.execGlean o s
  | .rsAdd o => Sys2Proof.Machine.execRsAdd o s
  | .rsSub o => Sys2Proof.Machine.execRsSub o s
  | .rsMul o => Sys2Proof.Machine.execRsMul o s
  | .rsDiv o => Sys2Proof.Machine.execRsDiv o s
  | .rsNeg o => Sys2Proof.Machine.execRsNeg o s
  | .rsRcp o => Sys2Proof.Machine.execRsRcp o s
  | .rsUni o => Sys2Proof.Machine.execRsUni o s
  | .rsIsc o => Sys2Proof.Machine.execRsIsc o s
  | .rsHas o => Sys2Proof.Machine.execRsHas o s
  | .rsEq o => Sys2Proof.Machine.execRsEq o s
  | .rsFromf o => Sys2Proof.Machine.execRsFromf o s
  | .rsLo o => Sys2Proof.Machine.execRsLo o s
  | .rsHi o => Sys2Proof.Machine.execRsHi o s
  | .rsWid o => Sys2Proof.Machine.execRsWid o s
  | .rsPack o => Sys2Proof.Machine.execRsPack o s
  | .rsUnp o => Sys2Proof.Machine.execRsUnp o s
  | .fpctlWrite k d a => Sys2Proof.Machine.execFpctlWrite k d a s
  | .fpstatRead d => Sys2Proof.Machine.execFpstatRead d s
  | .fpstatWrite k d a => Sys2Proof.Machine.execFpstatWrite k d a s
  | .registerWrite k d a n => Sys2Proof.Machine.execRegisterWrite k d a n s
  | .phaseMessageArrival owner bar member => Sys2Proof.Machine.execPhaseMessageArrival owner bar member s
  | .thresherJobRun core bar => Sys2Proof.Machine.execThresherJobRun core bar s
  | .engineCommandComplete core cmd => Sys2Proof.Machine.execEngineCommandComplete core cmd s
  | .clauseStart g sp => Sys2Proof.Machine.execClauseStart g sp s
  | .longLatencyCompletion g acc => Sys2Proof.Machine.execLongLatencyCompletion g acc s
  | .vsetPerform g sp => Sys2Proof.Machine.execVsetPerform g sp s
  | .msetPerform g sp => Sys2Proof.Machine.execMsetPerform g sp s
  | .fpctlWritePerform g sp => Sys2Proof.Machine.execFpctlWritePerform g sp s
  | .scalarAccessReturn g acc => Sys2Proof.Machine.execScalarAccessReturn g acc s
  | .splitQuantumExpiry g => Sys2Proof.Machine.execSplitQuantumExpiry g s
  | .currentSplitChange g => Sys2Proof.Machine.execCurrentSplitChange g s
  | .activeSetSwap core sector => Sys2Proof.Machine.execActiveSetSwap core sector s
  | .swapComplete core sector g => Sys2Proof.Machine.execSwapComplete core sector g s
  | .waitRelease g => Sys2Proof.Machine.execWaitRelease g s
  | .joinMerge g => Sys2Proof.Machine.execJoinMerge g s
  | .groupExitComplete g => Sys2Proof.Machine.execGroupExitComplete g s
  | .trapDelivery g => Sys2Proof.Machine.execTrapDelivery g s
  | .faultRecordAppend rec => Sys2Proof.Machine.execFaultRecordAppend rec s
  | .faultReplay rec => Sys2Proof.Machine.execFaultReplay rec s
  | .fleetAccessArrival m => Sys2Proof.Machine.execFleetAccessArrival m s
  | .clusterPlacement => Sys2Proof.Machine.execClusterPlacement s
  | .preemptDeadline launch => Sys2Proof.Machine.execPreemptDeadline launch s
  | .groupSaveComplete g => Sys2Proof.Machine.execGroupSaveComplete g s
  | .teamRestore team => Sys2Proof.Machine.execTeamRestore team s
  | .nodeCompletion run node => Sys2Proof.Machine.execNodeCompletion run node s
  | .recordBinEntry g acc => Sys2Proof.Machine.execRecordBinEntry g acc s
  | .stageTimerExpiry run node => Sys2Proof.Machine.execStageTimerExpiry run node s
  | .sailEntryFire entry => Sys2Proof.Machine.execSailEntryFire entry s
  | .svcAnswerRelease g sp => Sys2Proof.Machine.execSvcAnswerRelease g sp s
  | .svcPing call => Sys2Proof.Machine.execSvcPing call s
  | .svcNote call => Sys2Proof.Machine.execSvcNote call s
  | .svcMap call => Sys2Proof.Machine.execSvcMap call s
  | .svcUnmap call => Sys2Proof.Machine.execSvcUnmap call s
  | .svcDeliver call => Sys2Proof.Machine.execSvcDeliver call s
  | .serviceCoreTrap core cause info => Sys2Proof.Machine.execServiceCoreTrap core cause info s
  | .ringReportPost ring => Sys2Proof.Machine.execRingReportPost ring s
  | .trootWrite k d a => Sys2Proof.Machine.execTrootWrite k d a s
  | .fqbaseWrite k d a => Sys2Proof.Machine.execFqbaseWrite k d a s
  | .ringsWrite k d a => Sys2Proof.Machine.execRingsWrite k d a s
  | .pfxbaseWrite k d a => Sys2Proof.Machine.execPfxbaseWrite k d a s
  | .wpdataWrite k d a => Sys2Proof.Machine.execWpdataWrite k d a s
  | .reqLoad r => Sys2Proof.Machine.execReqLoad r s
  | .reqOpen r => Sys2Proof.Machine.execReqOpen r s
  | .reqAppend r => Sys2Proof.Machine.execReqAppend r s
  | .reqGenerate r tokens fin => Sys2Proof.Machine.execReqGenerate r tokens fin s
  | .reqCancel r => Sys2Proof.Machine.execReqCancel r s
  | .reqClose r => Sys2Proof.Machine.execReqClose r s
  | .reqSail r => Sys2Proof.Machine.execReqSail r s
  | .reqStats r => Sys2Proof.Machine.execReqStats r s
  | .reqJournalRead r => Sys2Proof.Machine.execReqJournalRead r s
  | .reqJournalReplay r => Sys2Proof.Machine.execReqJournalReplay r s
  | .reqAttest r => Sys2Proof.Machine.execReqAttest r s
  | .reqPower r => Sys2Proof.Machine.execReqPower r s
  | .pennantJob => Sys2Proof.Machine.execPennantJob s
  | .linkTraining link port => Sys2Proof.Machine.execLinkTraining link port s
  | .linkDown link => Sys2Proof.Machine.execLinkDown link s
  | .ptpOffsetUpdate ns => Sys2Proof.Machine.execPtpOffsetUpdate ns s
  | .powerSample mw islands points => Sys2Proof.Machine.execPowerSample mw islands points s
  | .thermalTrip island temp => Sys2Proof.Machine.execThermalTrip island temp s
  | .regulatorFault island word => Sys2Proof.Machine.execRegulatorFault island word s
  | .i3cHoldReset hold => Sys2Proof.Machine.execI3cHoldReset hold s
  | .i3cRecoveryBoot => Sys2Proof.Machine.execI3cRecoveryBoot s
  | .boot ok => Sys2Proof.Machine.execBoot ok s
  | .capstanAnswer g sp => Sys2Proof.Machine.execCapstanAnswer g sp s
  | .scalarStorePerformed g acc => Sys2Proof.Machine.execScalarStorePerformed g acc s
  | .ethernetPortDown port => Sys2Proof.Machine.execEthernetPortDown port s
  | .ethernetPortUp port => Sys2Proof.Machine.execEthernetPortUp port s

end Sys2Proof.Machine
end

