-- ==== Sys2Proof/Machine/Upset.lean ====
section
/-! DEFINITION. Errors that arise in the memories of the package (R19, R220, R238), and the islands they are counted for (R12). -/

namespace Sys2Proof.Machine

/-- The island of a compute core (R12). -/
def coreIsland (c : Nat) : Nat := c / 96 * 8 + c % 96 / 8 / 3 * 2 + c % 8 / 4

/-- The island of a stack's controllers and cache slices (R12). -/
def stackIsland (j : Nat) : Nat := 16 + j / 2

/-- The stack that holds a physical address (R219). -/
def stackOf (pa : Nat) : Nat := pa / 256 % 8

/-- The island of the I/O die's units (R12). -/
def ioIsland : Nat := 22

/-- Counts a corrected error, or an entry invalidated for an error: by island, and for HBM by stack from key 24 on (R220, R238, R432). -/
def State.countCorrected (s : State) (k : Nat) : State := { s with corrected := s.corrected.put k (s.corrected.get 0 k + 1) }

/-- Adds an element to a list that holds it at most once. -/
def addOnce {α : Type} [DecidableEq α] (l : List α) (x : α) : List α := if l.contains x then l else l ++ [x]

/-- Takes the entry at a position out. -/
def dropAt {α : Type} (l : List α) (i : Nat) : List α := l.take i ++ l.drop (i + 1)

/-- AN ERROR ARISES (R220, R238): the next access that reads the place meets it; an entry of a tag table or a TLB is invalidated and
counted. -/
def State.upset (s : State) (u : Upset) : State :=
  match u with
  | .corrected i => if i < 24 then s.countCorrected i else s
  | .correctedHbm j => if j < 8 then s.countCorrected (24 + j) else s
  | .hbm n => if n * 32 < hbmEnd then { s with hbmBad := addOnce s.hbmBad n } else s
  | .writeBack n => if n * 64 < hbmEnd then { s with hbmBad := addOnce (addOnce s.hbmBad (2 * n)) (2 * n + 1) } else s
  | .spad c n => if c < 192 ∧ n < 65536 then s.modCore c (fun k => { k with spadBad := addOnce k.spadBad n }) else s
  | .scale c n => if c < 192 ∧ n < 65536 then s.modCore c (fun k => { k with scaleBad := addOnce k.scaleBad n }) else s
  | .tile c t e => if c < 192 ∧ t < 8 ∧ e < 16388 then s.modCore c (fun k => { k with tileBad := addOnce k.tileBad (t, e) }) else s
  | .glean c n => if c < 192 then s.modCore c (fun k => { k with
      gleanBad := if k.gcache.any (fun p => p.1 == n / 2) then addOnce k.gleanBad n else k.gleanBad }) else s
  | .reg g n => if (s.groups.find g).isSome ∧ n < 640 then s.modGrp g (fun x => { x with vBad := addOnce x.vBad n }) else s
  | .tagSlot c k => if c < 192 ∧ k < 1024 then
      (s.modCore c (fun d => { d with tags := d.tags.put k { d.tags.get { valid := false, tag := 0, used := 0 } k with valid := false } })).countCorrected
        (coreIsland c) else s
  | .tlb c i => (s.setTlb c (dropAt (s.tlbOf c) i)).countCorrected (c.elim ioIsland coreIsland)

end Sys2Proof.Machine
end

