-- ==== Sys2Proof/Machine/Issue.lean ====
section
/-! DEFINITION. The course of a clock: the order of its events, who may issue in it, and its end (R46, R47, R231, R272, R278, R304, R353,
R360, R369, R371, R372, R443 to R448). -/

namespace Sys2Proof.Machine

/-! The order of a clock's events (log 94). -/

/-- The place of a choice in the order of a clock, where the manual gives it one: records of RECPUTs by core and slot, completions and GDECs
by run and node, bin tests, sail entries by index, placement (R360); then service cores, whose SAIL.W follows the firings (R353) and whose
CAP.CTL a YIELDP of the clock sees (R278), and SAIL and LOAD requests, which write the plan too; then Halyard words, whose guards a GSET
follows (R371); then scalar words by core and sector (R304, R324); then commands that come to the prefix unit, by core (R423). -/
def State.rankOf (s : State) (t : Turn) : Option (Nat × Nat × Nat) :=
  match t with
  | .event (.recordBinEntry g _) => some (1, (s.grp g).core, (s.grp g).slotNo)
  | .event (.nodeCompletion r n) => some (2, r, n)
  | .event (.capstanAnswer g sp) =>
    match (s.split g sp).stall with
    | some (.gdec n _) => some (2, (s.runOf g).getD 0, n)
    | _ => none
  | .event (.stageTimerExpiry r n) => some (3, r, n)
  | .event (.sailEntryFire k) => some (4, k, 0)
  | .event .clusterPlacement => some (5, 0, 0)
  | .run (.service _) | .event (.reqSail _) | .event (.reqLoad _) => some (6, 0, 0)
  | .run (.halyard _ _) => some (7, 0, 0)
  | .run (.scalar g _) => some (8, (s.grp g).core, (s.grp g).sector)
  | .run (.engine c 5) => some (9, c, 0)
  | .run _ | .event _ | .elapse _ _ | .upset _ => none

/-- Lexicographic order of places. -/
def rankLe (a b : Nat × Nat × Nat) : Bool :=
  decide (a.1 < b.1) || (a.1 == b.1 && (decide (a.2.1 < b.2.1) || (a.2.1 == b.2.1 && decide (a.2.2 ≤ b.2.2))))

/-- The sail entries below index `k` that are due fire, in ascending index (R353). -/
def State.fireBelow (s : State) (k : Nat) : State :=
  s.sail.foldl (fun t p => if p.1 < k ∧ t.sailDue p.1 then t.sailFire p.1 else t) s

/-- The clock comes to a place in its order: bins are tested after its records and completions, and due sail entries fire after that. -/
def State.reach (s : State) (r : Nat × Nat × Nat) : State :=
  let t := if s.phase.1 < 3 ∧ 3 ≤ r.1 then s.testDue else s
  let u := if t.phase.1 ≤ 4 ∧ 4 ≤ r.1 then t.fireBelow (if r.1 = 4 then r.2.1 else 4096) else t
  { u with phase := r }

/-- The choice at the head of the agenda, or, when the agenda is empty, the one Config gives for this step (log 1). -/
def State.choice (s : State) : Option Turn × State :=
  match s.turns with
  | t :: rest => (some t, { s with turns := rest })
  | [] => (Config.nextTurn s.turnNo, { s with turnNo := s.turnNo + 1 })

/-- What can happen to a package that is held in reset (R445). -/
def Turn.inReset (t : Turn) : Bool :=
  match t with
  | .event (.i3cHoldReset _) | .event .i3cRecoveryBoot | .upset _ => true
  | .run _ | .event _ | .elapse _ _ => false

/-- THE NEXT CHOICE, and the state at its place in the clock; a choice whose place has passed, and one that a package held in reset cannot
make, is none. -/
def State.nextTurn (s : State) : Option Turn × State :=
  match s.choice with
  | (none, u) => (none, u)
  | (some t, u) =>
    if u.heldInReset && !t.inReset then (none, u)
    else
      match u.rankOf t with
      | none => (some t, u)
      | some r => if rankLe u.phase r then (some t, u.reach r) else (none, u)

/-! Who issues (R46, R47, R372). -/

/-- The stall of a split whose instruction has issued. -/
def stallIssued (w : Option Stall) : Bool :=
  match w with
  | none | some (.svc _ _) | some (.capstan _ _) | some (.gdec _ _) | some (.yieldp _ _ _) | some .trap => true
  | some (.waitc _ _) | some (.waitf _) | some (.barrier _ _ _) | some .join | some .exit | some (.gclr _) | some (.hstart _)
  | some .fence | some .queueFull | some .interlock | some .counterFull | some .engineFull | some .pop | some .held => false

/-- Between the fetch `u` and the outcome `v` the agent's instruction has issued. -/
def State.issuedBy (u v : State) (a : Agent) : Bool :=
  v.struck a ||
    (match a with
     | .scalar g sp => stallIssued (v.split g sp).stall
     | .lane g sp => (v.split g sp).issuing != (u.split g sp).issuing
     | .halyard c x => v.hal c x != u.hal c x
     | .device | .engine _ _ | .service _ => true)

/-- The instruction `i` of the agent would issue now. -/
noncomputable def State.goesNow (u : State) (i : Instr) (a : Agent) : Bool :=
  match exec i u with
  | .next v => u.issuedBy v a
  | .fault _ | .refused _ => false

/-- The agent has an instruction that would issue now. -/
noncomputable def State.canGo (s : State) (a : Agent) : Bool :=
  match s.nextInstr a with
  | (u, some i) => u.goesNow i a
  | (_, none) => false

/-- An older active group of the sector can issue on the stream; `agents` gives a group's agents on it (R47). -/
noncomputable def State.elderGoes (s : State) (g : Nat) (agents : Nat → Group → List Agent) : Bool :=
  let x := s.grp g
  x.st == .active && s.groups.any (fun p => p.2.st == .active && p.2.core == x.core && p.2.sector == x.sector && p.2.older x &&
    (agents p.1 p.2).any s.canGo)

/-- The agent may issue in this clock: its sector has issued nothing on the stream and no older group of it can (R46, R47), or its core's
Halyard has issued no word and no context that comes before it in turn can (R372). -/
noncomputable def State.mayIssue (s : State) (a : Agent) : Bool :=
  match a with
  | .scalar g _ =>
    decide ((s.sector (s.grp g).core (s.grp g).sector).scalarFree ≤ s.clock) && !s.elderGoes g (fun h x => [.scalar h x.cur])
  | .lane g _ =>
    decide ((s.sector (s.grp g).core (s.grp g).sector).laneFree ≤ s.clock) &&
      !s.elderGoes g (fun h _ => (List.range 4).map (.lane h))
  | .halyard c x =>
    decide ((s.core c).halFree ≤ s.clock) &&
      !(((List.range 8).map (fun i => ((s.core c).halLast + 1 + i) % 8)).takeWhile (· != x)).any (fun y => s.canGo (.halyard c y))
  | .device | .engine _ _ | .service _ => true

/-- The issue cycles of a lane instruction (R31). -/
def Group.issueCycles (x : Group) : Nat := if x.desc.w = 64 then 2 else 1

/-- An agent's instruction takes the issue slot of the clock (R31, R46, R372); no two lane instructions are fused into one slot (R191;
log 116). -/
def State.slotTaken (s : State) (a : Agent) : State :=
  match a with
  | .scalar g _ =>
    let x := s.grp g
    s.setSector x.core x.sector { s.sector x.core x.sector with scalarFree := s.clock + 1 }
  | .lane g _ =>
    let x := s.grp g
    s.setSector x.core x.sector { s.sector x.core x.sector with laneFree := s.clock + x.issueCycles }
  | .halyard c x => s.modCore c (fun k => { k with halFree := s.clock + 1, halLast := x })
  | .device | .engine _ _ | .service _ => s

/-- The instruction takes its issue slot, if it issues. -/
noncomputable def State.takeSlot (u : State) (i : Instr) (a : Agent) : State :=
  { u with cores := if u.goesNow i a then (u.slotTaken a).cores else u.cores }

/-- AN AGENT'S TURN: it fetches and runs its next instruction, where it may issue. -/
noncomputable def State.runAgent (s : State) (a : Agent) : Out :=
  if !s.mayIssue a then .next s
  else
    match s.nextInstr a with
    | (u, some i) => exec i (u.takeSlot i a)
    | (u, none) => .next u

/-! The end of a clock. -/

/-- Hundredths of the nominal clock at each point (R443). -/
def pointClock (p : Nat) : Nat :=
  match p with
  | 0 => 100
  | 1 => 92
  | 2 => 83
  | 3 => 75
  | 4 => 67
  | 5 => 54
  | _ => 42

/-- A core's CYCLE counts its island's own clock (R443). -/
def Core.tick (k : Core) (hundredths : Nat) : Core :=
  { k with cycle := k.cycle + BitVec.ofNat 64 ((k.cycleRem + hundredths) / 100), cycleRem := (k.cycleRem + hundredths) % 100 }

/-- A service core's CYCLE counts its 2.0 GHz clock while a compute core's runs at 1.2 GHz (R3, R9). -/
def SvcCore.tick (k : SvcCore) (clocks : Nat) : SvcCore :=
  { k with cycle := k.cycle + BitVec.ofNat 64 ((k.cycleRem + 5 * clocks) / 3), cycleRem := (k.cycleRem + 5 * clocks) % 3 }

/-- What slewing adds to TIME while `ns` nominal nanoseconds pass, `rem` of them carried: at most 500 ppm of them, until the offset is gone
(R448; log 35). -/
def slewPart (slew : Int) (rem ns : Nat) : Int :=
  let m : Int := ((rem + ns) / 2000 : Nat)
  max (-m) (min m slew)

/-- The rings loaded in a clock stand in their slots from the next on (R391). -/
def Core.land (k : Core) : Core :=
  { k with rings := k.landing.foldl (fun m p => m.put p.1 (.image p.2)) k.rings, landing := [] }

/-- A clock ends: the rest of its events take place, the traps raised in it are reported, releases are latched, loaded rings take their slots,
and a PLAN write takes effect (R50, R272, R353, R360, R369, R391). -/
def State.endClock (s : State) : State :=
  let t := ((if s.phase.1 < 4 then s.testDue.fireBelow 4096 else if s.phase.1 = 4 then s.fireBelow 4096 else s).testDue).settleTraps.latchReleases
  { t with
    phase := (0, 0, 0)
    cores := t.cores.map (fun p => (p.1, p.2.land))
    sailPeriod := t.planNext.elim t.sailPeriod (·.1)
    sailEpoch := t.planNext.elim t.sailEpoch (·.2.1)
    sailFrom := t.planNext.elim t.sailFrom (·.2.2)
    planNext := none }

/-- One clock, or a part of one, passes (R443, R448; log 3): the clock ends and the next begins, TIME goes on by `ns` and what slewing adds,
and every CYCLE counts its own clock. -/
def State.pass (s : State) (clocks ns : Nat) : State :=
  let t := if clocks = 0 then s else s.endClock
  let part := slewPart t.slew t.slewRem ns
  { t with
    clock := t.clock + clocks
    time := t.time + (Int.ofNat ns + part).toNat
    slew := t.slew - part
    slewRem := if t.slew - part = 0 then 0 else (t.slewRem + ns) % 2000
    cores := (List.range 192).foldl (fun m c => m.put c
      ((m.get Core.reset c).tick (clocks * pointClock (t.island (coreIsland c)).point))) t.cores
    services := t.services.map (fun p => (p.1, p.2.tick clocks)) }

/-- Time passes, clock by clock, with the nanoseconds spread over them, so that every bin is tested and every sail entry fires in its own
clock (R346, R353, R360; log 3). -/
def State.elapse (s : State) (clocks ns : Nat) : State :=
  match clocks with
  | 0 => s.pass 0 ns
  | 1 => s.pass 1 ns
  | k + 2 => (s.pass 1 (ns / (k + 2))).elapse (k + 1) (ns - ns / (k + 2))

end Sys2Proof.Machine
end

