-- ==== Sys2Proof/Machine/Step.lean ====
section
/-! DEFINITION. One step of the package: the agent whose turn it is fetches and runs one instruction, an event takes place, time passes,
or an error arises (log 1). -/

namespace Sys2Proof.Machine

/-- ONE STEP (log 1). -/
noncomputable def step (s : State) : Host.Outcome State Fault Refusal :=
  match s.nextTurn with
  | (none, t) => .next t
  | (some (.run a), t) => t.runAgent a
  | (some (.event i), t) => exec i { t with cur := .device }
  | (some (.elapse clocks ns), t) => .next (t.elapse clocks ns)
  | (some (.upset u), t) => .next (t.upset u)

/-! Placing an instruction where the next step fetches it (log 46). -/

/-- The bytes of an instruction, zero above its bits, for the longest instruction. -/
def fetchBytes (nbits w : Nat) : List Byte := leBytes 12 (w % 2 ^ nbits)

/-- The page that holds it: VA 0 at physical address 0x10000, with R, W and X. -/
def fetchPage : TlbEntry := { base := 0, size := 0, leaf := 0x1018F#64, slot := 0x10FF8 }

/-- Group 0 is Active on its core with split 0 current. -/
def State.withGroup (s : State) (f : Split → Split) : State :=
  let t := s.modGrp 0 (fun x =>
    { x with
      st := .active
      cur := 0
      splits := x.splits.put 0 (f { x.split 0 with live := true, traps := [], stall := none, inHandler := false }) })
  t.modCore (t.grp 0).core (fun k => { k with halted := false, tlb := fetchPage :: k.tlb })

/-- The scalar word of group 0 is the next instruction. -/
def State.withScalar (s : State) : State :=
  let t := s.withGroup (fun p => { p with spc := 0 })
  { t with turns := .run (.scalar 0 0) :: t.turns }

/-- The code is the first of a started clause of group 0, eight bytes after its header. -/
def State.withLane (s : State) : State :=
  let t := s.withGroup (fun p => { p with
    run := some { addr := 0 - 8#64, off := 4, len := 64, fa := 15, fb := 15, exec := BitVec.allOnes 64, fpctl := 0, no := 0, stopped := false } })
  { t with turns := .run (.lane 0 0) :: t.turns }

/-- The word is the next of Halyard context 0 of group 0's core. -/
def State.withHalyard (s : State) : State :=
  let t := s.withGroup id
  let h := (t.core (t.grp 0).core).hal.get HalCtx.reset 0
  let u := t.modCore (t.grp 0).core (fun k =>
    { k with hal := k.hal.put 0 { h with running := true, parked := false, owner := 0, pc := 0 } })
  { u with turns := .run (.halyard (t.grp 0).core 0) :: u.turns }

/-- The word is the next of service core 0. -/
def State.withService (s : State) : State :=
  { (s.setSvc 0 { s.svc 0 with halted := false, pc := 0 }) with
    ioTlb := fetchPage :: s.ioTlb
    turns := .run (.service 0) :: s.turns }

/-- PLACES AN INSTRUCTION: a supervisor word before service core 0, another scalar word or a lane code before group 0, a Halyard word before a
context, and gives that agent the next turn. -/
def State.withFetchWord (s : State) (nbits w : Nat) : State :=
  let t : State := { s with hbm := s.hbm.writeN 0x10000 (fetchBytes nbits w)
                            hbmBad := s.hbmBad.filter (fun u => u != 0x800) }
  if nbits ≤ 16 then t.withLane
  else if nbits ≤ 32 then
    match decodeScalar (BitVec.ofNat 32 w) with
    | .ok _ => if w / 2 ^ 26 % 64 = 0x39 then t.withService else t.withScalar
    | .error _ => t.withLane
  else if 2 ≤ w % 4 then t.withLane
  else t.withHalyard

end Sys2Proof.Machine
end

