-- ==== Sys2Proof/Safety.lean ====
section
/-! DEFINITION. What the claims are stated in: the canonical form of every memory, and a run that never stops. -/

namespace Sys2Proof.Machine

/-- A core's scratchpad and scale store are in canonical form. -/
def Core.memoryOk (k : Core) : Bool := k.spad.wf && k.scale.wf

/-- Every memory of the package is in canonical form. -/
def State.memoryOk (s : State) : Bool := s.hbm.wf && s.cores.all (fun p => p.2.memoryOk)

/-- Every service core's SRAM is in canonical form and lies within its size (R9). -/
def State.sramOk (s : State) : Bool := s.services.all (fun p => p.2.sram.wf && p.2.sram.all (fun q => decide (q.1 < sramBytes)))

/-- A run of `n` steps that meets no fault and no refusal. -/
def State.runsSafely (s : State) (n : Nat) : Prop := ∃ t, Host.Core.run Sys2Proof.core n s = .next t

/-! Who issues. -/

/-- The scalar stream of a live split of a compute core issues, and no register of `rs` awaits an earlier LDS or ATOMS (R153). -/
def State.ready (s : State) (g sp : Nat) (rs : List (BitVec 6)) : Prop :=
  s.cur = .scalar g sp ∧ (s.split g sp).live = true ∧ s.anyAwaited rs = false

/-- A scalar word that is legal on every core can issue: a live split with no awaited register, or a service core. -/
def State.issues (s : State) (rs : List (BitVec 6)) : Prop := s.scalarLive = true ∧ s.anyAwaited rs = false

/-! What stays. -/

/-- From `s` to `t` nothing changes but split `sp` of group `g`. -/
def State.onlySplit (s t : State) (g sp : Nat) : Prop := ∃ p, t = s.setSplit g sp p

/-- From `s` to `t` nothing changes but group `g`. -/
def State.onlyGroup (s t : State) (g : Nat) : Prop := ∃ x, t = s.setGrp g x

/-- From `s` to `t` nothing changes but service core `k`. -/
def State.onlyService (s t : State) (k : Nat) : Prop := ∃ x, t = s.setSvc k x

/-- Every byte of HBM and of every scratchpad reads as before. -/
def State.sameBytes (s t : State) : Prop :=
  (∀ a, t.hbm.read a = s.hbm.read a) ∧ (∀ c a, (t.core c).spad.read a = (s.core c).spad.read a)

/-- Every byte of HBM and of every scratchpad reads as before, but those of the journal entries written since (R439). -/
def State.sameButJournal (s t : State) : Prop :=
  (∀ a, (∀ j k, s.journalAt = some j → t.journalAt = some k → a < j ∨ k ≤ a) → t.hbm.read a = s.hbm.read a) ∧
  (∀ c a, (t.core c).spad.read a = (s.core c).spad.read a)

/-- The TLB holds an entry through which an access goes to `pa` with no walk: it maps the address and allows what is needed, and a write
finds it dirty (R226). -/
def State.hits (s : State) (tlb : Option Nat) (va : W64) (n : Need) (pa : Nat) : Prop :=
  ∃ e, (s.tlbOf tlb).find? (fun t => t.maps ((va.setWidth 56).setWidth 64)) = some e ∧ n.allows e.leaf = true ∧
    (n.w = true → pteD e.leaf = true) ∧ leafPa e.leaf ((va.setWidth 56).setWidth 64) = pa

end Sys2Proof.Machine
end

