-- ==== Sys2Proof/Certificates/Slice0/Obligations.lean ====
section
/-! DEFINITION. The statements for the provers. -/

open Sys2Proof Sys2Proof.Machine

/-! ## Scalar arithmetic -/

namespace Sys2Proof.Machine

/-- The two-source functions of R137: the instruction's registers and its Op. -/
def aluTwo (i : Instr) : Option (BitVec 6 × BitVec 6 × BitVec 6 × (W64 → W64 → W64)) :=
  match i with
  | .add d a b => some (d, a, b, fun x y => x + y)
  | .sub d a b => some (d, a, b, fun x y => x - y)
  | .mul d a b => some (d, a, b, fun x y => x * y)
  | .mulh d a b => some (d, a, b, fun x y => (x.signExtend 128 * y.signExtend 128).extractLsb' 64 64)
  | .mulhw d a b => some (d, a, b, fun x y => (x.setWidth 128 * y.setWidth 128).extractLsb' 64 64)
  | .div d a b => some (d, a, b, fun x y => if y = 0 then BitVec.allOnes 64 else x.sdiv y)
  | .divw d a b => some (d, a, b, fun x y => if y = 0 then BitVec.allOnes 64 else x / y)
  | .rem d a b => some (d, a, b, fun x y => if y = 0 then x else x - y * x.sdiv y)
  | .remw d a b => some (d, a, b, fun x y => if y = 0 then x else x - y * (x / y))
  | .and d a b => some (d, a, b, fun x y => x &&& y)
  | .or d a b => some (d, a, b, fun x y => x ||| y)
  | .xor d a b => some (d, a, b, fun x y => x ^^^ y)
  | .andn d a b => some (d, a, b, fun x y => x &&& ~~~y)
  | .shl d a b => some (d, a, b, fun x y => x <<< (y.extractLsb' 0 6).toNat)
  | .shr d a b => some (d, a, b, fun x y => x >>> (y.extractLsb' 0 6).toNat)
  | .sar d a b => some (d, a, b, fun x y => x.sshiftRight (y.extractLsb' 0 6).toNat)
  | .rot d a b => some (d, a, b, fun x y => x.rotateRight (y.extractLsb' 0 6).toNat)
  | .min d a b => some (d, a, b, fun x y => if y.slt x then y else x)
  | .max d a b => some (d, a, b, fun x y => if x.slt y then y else x)
  | .minw d a b => some (d, a, b, fun x y => if y.ult x then y else x)
  | .maxw d a b => some (d, a, b, fun x y => if x.ult y then y else x)
  | .seq d a b => some (d, a, b, fun x y => if x = y then 1 else 0)
  | .sne d a b => some (d, a, b, fun x y => if x = y then 0 else 1)
  | .slt d a b => some (d, a, b, fun x y => if x.slt y then 1 else 0)
  | .sltw d a b => some (d, a, b, fun x y => if x.ult y then 1 else 0)
  | .sge d a b => some (d, a, b, fun x y => if x.slt y then 0 else 1)
  | .sgew d a b => some (d, a, b, fun x y => if x.ult y then 0 else 1)
  | _ => none

/-- R137, the functions of two sources: each completes, on a compute core and on a service core, with s[D] := Op(FN, s[A], s[B]) and the stream
at the next word. -/
def scalarTwoSource : Prop :=
  ∀ (i : Instr) (d a b : BitVec 6) (f : W64 → W64 → W64) (s : State),
    aluTwo i = some (d, a, b, f) → s.issues [d, a, b] →
    exec i s = .next ((s.setSreg d (f (s.sreg a) (s.sreg b))).jumpTo (s.pc + 4))

/-- The functions of one source of R137, R138 and R139. -/
def aluOne (i : Instr) : Option (BitVec 6 × BitVec 6 × (W64 → W64)) :=
  match i with
  | .addi d a n => some (d, a, fun x => x + n.signExtend 64)
  | .andi d a n => some (d, a, fun x => x &&& n.signExtend 64)
  | .ori d a n => some (d, a, fun x => x ||| n.signExtend 64)
  | .xori d a n => some (d, a, fun x => x ^^^ n.signExtend 64)
  | .slti d a n => some (d, a, fun x => if x.slt (n.signExtend 64) then 1 else 0)
  | .sltiw d a n => some (d, a, fun x => if x.ult (n.signExtend 64) then 1 else 0)
  | .shli d a n => some (d, a, fun x => x <<< n.toNat)
  | .shri d a n => some (d, a, fun x => x >>> n.toNat)
  | .sari d a n => some (d, a, fun x => x.sshiftRight n.toNat)
  | .roti d a n => some (d, a, fun x => x.rotateRight n.toNat)
  | _ => none

/-- R138 and R139: the register–immediate instructions and the shifts by a constant. -/
def scalarImmediate : Prop :=
  ∀ (i : Instr) (d a : BitVec 6) (f : W64 → W64) (s : State),
    aluOne i = some (d, a, f) → s.issues [d, a] →
    exec i s = .next ((s.setSreg d (f (s.sreg a))).jumpTo (s.pc + 4))

/-- The next choice of the agenda is agent `a`'s turn, the agent may issue, and `u` is the state in which it fetches. -/
def State.takesTurn (s : State) (a : Agent) (u : State) : Prop :=
  ∃ t, s.nextTurn = (some (.run a), t) ∧ t.mayIssue a = true ∧ t.struck a = false ∧ u = { t with cur := a }

/-- A word that is no instruction: fetched by a scalar stream it is the illegal-instruction trap at its address (R111), and by a service core the trap
0x10 (R425). -/
def illegalWord (w : W32) : Prop :=
  (∀ (s u t : State) (g sp : Nat) (bs : List Byte), s.takesTurn (.scalar g sp) u → u.scalarMay g sp = true → (u.split g sp).spc.toNat % 4 = 0 →
    u.fetchHalves (some (u.grp g).core) (u.split g sp).spc 2 = (t, .ok bs) →
    BitVec.ofNat 32 (numAt bs 0 4) = w → step s = .next (t.fatal g 0x10 (u.split g sp).spc 0 0 sp)) ∧
  (∀ (s u t : State) (k : Nat) (bs : List Byte), s.takesTurn (.service k) u → (u.svc k).halted = false →
    (u.svc k).pc.toNat % 4 = 0 → u.fetchHalves none (u.svc k).pc 2 = (t, .ok bs) →
    BitVec.ofNat 32 (numAt bs 0 4) = w → step s = .next (t.serviceTrap k 0x10 0))

/-- R137 to R139, the words: OP, D, A, B and FN of the functions, B zero where there is one source; D, A and IMM14 with a constant; D, A, KIND, six zeros and
AMOUNT of a shift by a constant. FN 0x1E to 0xFF, a B of a function of one source and a bit of the six that is set make an illegal word. -/
def arithmeticWords : Prop :=
  (∀ p ∈ [(0x00, Instr.add), (0x01, .sub), (0x02, .mul), (0x03, .mulh), (0x04, .mulhw), (0x05, .div), (0x06, .divw), (0x07, .rem), (0x08, .remw),
      (0x09, .and), (0x0A, .or), (0x0B, .xor), (0x0C, .andn), (0x0D, .shl), (0x0E, .shr), (0x0F, .sar), (0x10, .rot), (0x11, .min), (0x12, .max),
      (0x13, .minw), (0x14, .maxw), (0x18, .seq), (0x19, .sne), (0x1A, .slt), (0x1B, .sltw), (0x1C, .sge), (0x1D, .sgew)],
    ∀ d a b : BitVec 6, decodeScalar (1#6 ++ d ++ a ++ b ++ BitVec.ofNat 8 p.1) = .ok (p.2 d a b)) ∧
  (∀ p ∈ [(0x15, Instr.clz), (0x16, .ctz), (0x17, .popc)], ∀ d a b : BitVec 6,
    if b = 0 then decodeScalar (1#6 ++ d ++ a ++ b ++ BitVec.ofNat 8 p.1) = .ok (p.2 d a)
    else illegalWord (1#6 ++ d ++ a ++ b ++ BitVec.ofNat 8 p.1)) ∧
  (∀ (d a b : BitVec 6) (f : BitVec 8), 0x1E ≤ f.toNat → illegalWord (1#6 ++ d ++ a ++ b ++ f)) ∧
  (∀ p ∈ [(2#6, Instr.addi), (3#6, .andi), (4#6, .ori), (5#6, .xori), (6#6, .slti), (7#6, .sltiw)], ∀ (d a : BitVec 6) (n : BitVec 14),
    decodeScalar (p.1 ++ d ++ a ++ n) = .ok (p.2 d a n)) ∧
  (∀ p ∈ [(0#2, Instr.shli), (1#2, .shri), (2#2, .sari), (3#2, .roti)], ∀ d a z n : BitVec 6,
    if z = 0 then decodeScalar (8#6 ++ d ++ a ++ p.1 ++ z ++ n) = .ok (p.2 d a n) else illegalWord (8#6 ++ d ++ a ++ p.1 ++ z ++ n))

/-- R137, the counts: CLZ, CTZ and POPC complete; the count of leading or trailing zeros says which bit is the highest or lowest one, and is 64
for 0; POPC counts the one bits. -/
def scalarCounts : Prop :=
  (∀ (d a : BitVec 6) (s : State), s.issues [d, a] →
    ∃ n, exec (.clz d a) s = .next ((s.setSreg d (BitVec.ofNat 64 n)).jumpTo (s.pc + 4)) ∧ n ≤ 64 ∧
      (s.sreg a = 0 → n = 64) ∧ (∀ k, k < n → (s.sreg a).getMsbD k = false) ∧ (n < 64 → (s.sreg a).getMsbD n = true)) ∧
  (∀ (d a : BitVec 6) (s : State), s.issues [d, a] →
    ∃ n, exec (.ctz d a) s = .next ((s.setSreg d (BitVec.ofNat 64 n)).jumpTo (s.pc + 4)) ∧ n ≤ 64 ∧
      (s.sreg a = 0 → n = 64) ∧ (∀ k, k < n → (s.sreg a).getLsbD k = false) ∧ (n < 64 → (s.sreg a).getLsbD n = true)) ∧
  (∀ (d a : BitVec 6) (s : State), s.issues [d, a] →
    exec (.popc d a) s =
      .next ((s.setSreg d (BitVec.ofNat 64 ((List.range 64).filter (fun k => (s.sreg a).getLsbD k)).length)).jumpTo (s.pc + 4)))

end Sys2Proof.Machine

/-- R137 to R139: the integer functions of scalar registers and constants, with their words. -/
def Obligations.ScalarArithmetic : Prop := scalarTwoSource ∧ scalarImmediate ∧ scalarCounts ∧ arithmeticWords

namespace Sys2Proof.Machine

/-- R140, the words: OP, D and IMM20. -/
def constantWords : Prop :=
  ∀ p ∈ [(0x09#6, Instr.limm), (0x0A#6, .lpc), (0x0B#6, .lcaddr)], ∀ (d : BitVec 6) (n : BitVec 20), decodeScalar (p.1 ++ d ++ n) = .ok (p.2 d n)

/-- R140: LIMM and LPC on every core, and LCADDR on a compute core; on a service core LCADDR is an illegal instruction. -/
def constantEffects : Prop :=
  (∀ (d : BitVec 6) (n : BitVec 20) (s : State), s.issues [d] →
    exec (.limm d n) s = .next ((s.setSreg d (n.signExtend 64 <<< 12)).jumpTo (s.pc + 4)) ∧
    exec (.lpc d n) s = .next ((s.setSreg d (s.pc + n.signExtend 64 * 4)).jumpTo (s.pc + 4))) ∧
  (∀ (d : BitVec 6) (n : BitVec 20) (s : State) (g sp : Nat), s.ready g sp [d] →
    exec (.lcaddr d n) s = .next ((s.setSreg d ((s.grp g).desc.lcb + n.setWidth 64 * 8)).jumpTo (s.pc + 4))) ∧
  (∀ (d : BitVec 6) (n : BitVec 20) (s : State) (k : Nat), s.cur = .service k →
    exec (.lcaddr d n) s = .next (s.serviceTrap k 0x10 0))

end Sys2Proof.Machine

/-- R140: LIMM, LPC and LCADDR, with their words. -/
def Obligations.ScalarConstants : Prop := constantEffects ∧ constantWords

/-- R62: a split's registers s0 to s63. s0 reads as zero and a write to it is discarded; any other register reads what was last written to it, and the
writes of others leave it alone; CALL writes its link to s63; at group start split 0 holds the launch arguments in s1 to s15, the group's numbers
in s16 to s19, and zero in every other. -/
def Obligations.ScalarRegisters : Prop :=
  (∀ (s : State) (v : W64), s.sreg 0 = 0 ∧ s.setSreg 0 v = s) ∧
  (∀ (s : State) (d r : BitVec 6) (v : W64), s.scalarLive = true →
    (s.setSreg d v).sreg r = if r = 0 then 0 else if r = d then v else s.sreg r) ∧
  (∀ (o : BitVec 26) (s : State), s.issues [63] → ∃ t, exec (.call o) s = .next t ∧ t.sreg 63 = s.pc + 4) ∧
  (∀ (l : Launch) (lno team cluster crank grank corner core age r : Nat) (p : Nat × Nat) (v : Option LaneReg) (x : Group),
    x = startGroup l lno team cluster crank grank corner core age p v → ((x.split 0).regs.get 0 r = if 1 ≤ r ∧ r ≤ 15 then l.args.getD (r - 1) 0
      else if r = 16 then BitVec.ofNat 64 x.gid else if r = 17 then BitVec.ofNat 64 grank else if r = 18 then BitVec.ofNat 64 crank
      else if r = 19 then BitVec.ofNat 64 cluster else 0) ∧ x.grank = grank ∧ x.crank = crank ∧ x.cluid = cluster)

namespace Sys2Proof.Machine

/-- The register-only instructions of the two statements above and of R140. -/
def registerOnly (i : Instr) : Option (BitVec 6) :=
  match aluTwo i, aluOne i, i with
  | some (d, _), _, _ => some d
  | none, some (d, _), _ => some d
  | none, none, .clz d _ => some d
  | none, none, .ctz d _ => some d
  | none, none, .popc d _ => some d
  | none, none, .limm d _ => some d
  | none, none, .lpc d _ => some d
  | none, none, .lcaddr d _ => some d
  | none, none, _ => none

end Sys2Proof.Machine

/-- FRAME of the scalar integer instructions: on a compute core only the executing split changes, and of it only s[D], the stream's place and
what it waits for; every byte of memory reads as before. -/
def Obligations.ScalarFrame : Prop :=
  ∀ (i : Instr) (d : BitVec 6) (s t : State) (g sp : Nat),
    registerOnly i = some d → s.cur = .scalar g sp → exec i s = .next t →
    (∃ (regs : Map W64) (pc : W64) (w : Option Stall),
      t = s.setSplit g sp { s.split g sp with regs := regs, spc := pc, stall := w }) ∧
    (∀ r, r ≠ d → t.sreg r = s.sreg r) ∧ s.sameBytes t

/-! ## Branches, jumps, divergence -/

namespace Sys2Proof.Machine

/-- The compare-and-branch instructions of R141 with the condition each branches on. -/
def branchOf (i : Instr) : Option (BitVec 6 × BitVec 6 × BitVec 14 × (W64 → W64 → Bool)) :=
  match i with
  | .beq a b o => some (a, b, o, fun x y => decide (x = y))
  | .bne a b o => some (a, b, o, fun x y => decide (x ≠ y))
  | .blt a b o => some (a, b, o, fun x y => decide (x.toInt < y.toInt))
  | .bge a b o => some (a, b, o, fun x y => decide (y.toInt ≤ x.toInt))
  | .bltw a b o => some (a, b, o, fun x y => decide (x.toNat < y.toNat))
  | .bgew a b o => some (a, b, o, fun x y => decide (y.toNat ≤ x.toNat))
  | _ => none

/-- R141, and the exec branches of R143: the stream goes on at the word's address + offset × 4 when the condition holds, else at the next
word, and nothing else changes. -/
def scalarBranches : Prop :=
  (∀ (i : Instr) (a b : BitVec 6) (o : BitVec 14) (c : W64 → W64 → Bool) (s : State),
    branchOf i = some (a, b, o, c) → s.issues [a, b] →
    exec i s = .next (s.jumpTo (if c (s.sreg a) (s.sreg b) = true then s.pc + o.signExtend 64 * 4 else s.pc + 4))) ∧
  (∀ (o : BitVec 26) (s : State) (g sp : Nat), s.ready g sp [] → (∀ l, l < (s.grp g).desc.w → (s.split g sp).exec.getLsbD l = false) →
    exec (.bexz o) s = .next (s.jumpTo (s.pc + o.signExtend 64 * 4)) ∧ exec (.bexnz o) s = .next (s.jumpTo (s.pc + 4))) ∧
  (∀ (o : BitVec 26) (s : State) (g sp l : Nat), s.ready g sp [] → l < (s.grp g).desc.w → (s.split g sp).exec.getLsbD l = true →
    exec (.bexz o) s = .next (s.jumpTo (s.pc + 4)) ∧ exec (.bexnz o) s = .next (s.jumpTo (s.pc + o.signExtend 64 * 4)))

/-- R142: JMP; CALL, which writes the return address to s63; JR to a multiple of 4; and a JR to any other address is the misaligned-fetch trap at the
JR, whatever a service core's SINFO then holds. -/
def scalarJumps : Prop :=
  (∀ (o : BitVec 26) (s : State), s.issues [] → exec (.jmp o) s = .next (s.jumpTo (s.pc + o.signExtend 64 * 4))) ∧
  (∀ (o : BitVec 26) (s : State), s.issues [63] →
    exec (.call o) s = .next ((s.setSreg 63 (s.pc + 4)).jumpTo (s.pc + o.signExtend 64 * 4))) ∧
  (∀ (a : BitVec 6) (s : State), s.issues [a] → (s.sreg a).toNat % 4 = 0 → exec (.jr a) s = .next (s.jumpTo (s.sreg a))) ∧
  (∀ (a : BitVec 6) (s : State) (g sp : Nat), s.ready g sp [a] → (s.sreg a).toNat % 4 ≠ 0 →
    exec (.jr a) s = .next (s.fatal g 0x12 (s.split g sp).spc 0 0 sp)) ∧
  (∀ (a : BitVec 6) (s : State) (k : Nat), s.cur = .service k → (s.sreg a).toNat % 4 ≠ 0 →
    ∃ v, exec (.jr a) s = .next (s.serviceTrap k 0x12 v))

/-- R141 to R143, the words: OP, A, B and OFF14; OP and OFF26; JR with A alone, any other bit of whose word makes it illegal. -/
def controlWords : Prop :=
  (∀ p ∈ [(0x10#6, Instr.beq), (0x11#6, .bne), (0x12#6, .blt), (0x13#6, .bge), (0x14#6, .bltw), (0x15#6, .bgew)], ∀ (a b : BitVec 6) (o : BitVec 14),
    decodeScalar (p.1 ++ a ++ b ++ o) = .ok (p.2 a b o)) ∧
  (∀ p ∈ [(0x16#6, Instr.jmp), (0x17#6, .call), (0x1C#6, .bexz), (0x1D#6, .bexnz)], ∀ o : BitVec 26, decodeScalar (p.1 ++ o) = .ok (p.2 o)) ∧
  (∀ (d a : BitVec 6) (z : BitVec 14), if d = 0 ∧ z = 0 then decodeScalar (0x18#6 ++ d ++ a ++ z) = .ok (.jr a)
    else illegalWord (0x18#6 ++ d ++ a ++ z))

end Sys2Proof.Machine

/-- R141 to R143: branches and jumps, with their words. -/
def Obligations.ScalarControl : Prop := scalarBranches ∧ scalarJumps ∧ controlWords

namespace Sys2Proof.Machine

/-- The lane register that a BRX reads: the head of an operand queue that its field pops, or a register that nothing earlier is still to write,
with no uncorrectable error in it. -/
def State.brxSource (s : State) (g sp : Nat) (v : BitVec 10) : Option LaneReg :=
  match (s.grp g).popOf v.toNat with
  | some q => ((s.grp g).oq.get [] q).head?
  | none => if s.regAwaited g sp v.toNat || (s.grp g).vBad.contains v.toNat then none else some ((s.grp g).reg v.toNat)

/-- A BRX that can run: its lane register can be read and its table is fetched. -/
def State.brxRuns (s : State) (g sp : Nat) (v : BitVec 10) (o : BitVec 16) (r : LaneReg) (t : State) (table : List Byte) : Prop :=
  s.ready g sp [] ∧ v.toNat < 640 ∧ (s.split g sp).inHandler = false ∧ (s.split g sp).tags.length < 4 ∧ sp < 4 ∧
  s.brxSource g sp v = some r ∧ s.fetchHalves (some (s.grp g).core) (s.pc + o.signExtend 64 * 4) 8 = (t, .ok table)

/-- The entry of a BRX table that lane `l` selects: a signed word offset from the table (R43). -/
def brxGoal (s : State) (o : BitVec 16) (table : List Byte) (r : LaneReg) (l : Nat) : W64 :=
  s.pc + o.signExtend 64 * 4 + (BitVec.ofNat 32 (numAt table (4 * ((r.lane l).toNat % 4)) 4)).signExtend 64 * 4

/-- R43: with one live split, BRX leaves every active lane in a live split that stands at the target the lane's index selects, with the registers
of the split that branched and one more tag on its stack; a live split holds no lane that was not active; and at most four splits live. One whose
lanes part waits while an LDS or ATOMS of its split has a register to write (log 111). -/
def brxDiverges : Prop :=
  ∀ (v : BitVec 10) (o : BitVec 16) (s u : State) (g sp : Nat) (r : LaneReg) (table : List Byte),
    s.brxRuns g sp v o r u table → (s.grp g).liveSplits = [sp] →
    ((s.grp g).regsAwaited sp = true → ∀ m l, m < (s.grp g).desc.w → l < (s.grp g).desc.w → (s.split g sp).exec.getLsbD m = true →
      (s.split g sp).exec.getLsbD l = true → (r.lane m).toNat % 4 ≠ (r.lane l).toNat % 4 →
      ∃ t, exec (.brx v o) s = .next t ∧ t.split g sp = { s.split g sp with stall := some .interlock }) ∧
    ((s.grp g).regsAwaited sp = false → ∃ t, exec (.brx v o) s = .next t ∧ (t.grp g).liveSplits.length ≤ 4 ∧ (t.split g sp).live = true ∧
      (∀ l, l < (s.grp g).desc.w → (s.split g sp).exec.getLsbD l = true →
        ∃ k, k < 4 ∧ (t.split g k).live = true ∧ (t.split g k).exec.getLsbD l = true ∧ (t.split g k).spc = brxGoal s o table r l ∧
          (t.split g k).regs = (s.split g sp).regs ∧ (t.split g k).tags.length = (s.split g sp).tags.length + 1) ∧
      (∀ k l, k < 4 → (t.split g k).live = true → (t.split g k).exec.getLsbD l = true → l < (s.grp g).desc.w →
        (s.split g sp).exec.getLsbD l = true))

/-- R45: with four live splits a BRX whose active lanes select several targets runs them one after the other in the same split: the lowest index
first, and no split is created. -/
def brxSerial : Prop :=
  ∀ (v : BitVec 10) (o : BitVec 16) (s u : State) (g sp m l : Nat) (r : LaneReg) (table : List Byte),
    s.brxRuns g sp v o r u table → (s.grp g).liveSplits = [0, 1, 2, 3] → m < (s.grp g).desc.w → l < (s.grp g).desc.w →
    (s.split g sp).exec.getLsbD m = true → (s.split g sp).exec.getLsbD l = true →
    (r.lane m).toNat % 4 < (r.lane l).toNat % 4 →
    (∀ k, k < (s.grp g).desc.w → (s.split g sp).exec.getLsbD k = true → (r.lane m).toNat % 4 ≤ (r.lane k).toNat % 4) →
    ∃ t, exec (.brx v o) s = .next t ∧ (t.grp g).liveSplits = [0, 1, 2, 3] ∧ (t.split g sp).spc = brxGoal s o table r m ∧
      (∀ k, k < (s.grp g).desc.w → ((t.split g sp).exec.getLsbD k = true ↔
        (s.split g sp).exec.getLsbD k = true ∧ (r.lane k).toNat % 4 = (r.lane m).toNat % 4)) ∧
      (∀ j, j ≠ sp → (t.split g j).spc = (s.split g j).spc ∧ (t.split g j).exec = (s.split g j).exec ∧ (t.split g j).tags = (s.split g j).tags)

end Sys2Proof.Machine

/-- R43, R45: BRX, with room for its splits and without. -/
def Obligations.BrxSplits : Prop := brxDiverges ∧ brxSerial

namespace Sys2Proof.Machine

/-- R44, R45: a JOIN with an empty tag stack does nothing; one whose tag no other live split carries takes the tag off; one that another live split
still carries waits where it stands; the last part of a serial record gives the split its lanes back. -/
def joinGoesOn : Prop :=
  (∀ (s : State) (g sp : Nat), s.ready g sp [] → (s.split g sp).inHandler = false → (s.split g sp).tags = [] →
    exec .join s = .next (s.jumpTo (s.pc + 4))) ∧
  (∀ (s : State) (g sp id : Nat) (rest : List JoinEntry), s.ready g sp [] → (s.split g sp).inHandler = false →
    (s.split g sp).tags = rest ++ [.tag id] → (s.split g sp).drained = true →
    (∀ k, k < 4 → k ≠ sp → (s.split g k).live = true → .tag id ∉ (s.split g k).tags) →
    exec .join s = .next (s.setSplit g sp { s.split g sp with spc := s.pc + 4, tags := rest, stall := none })) ∧
  (∀ (s : State) (g sp id k : Nat) (rest : List JoinEntry), s.ready g sp [] → (s.split g sp).inHandler = false →
    (s.split g sp).tags = rest ++ [.tag id] → k < 4 → k ≠ sp → (s.split g k).live = true → .tag id ∈ (s.split g k).tags →
    exec .join s = .next (s.setSplit g sp { s.split g sp with stall := some .join })) ∧
  (∀ (s : State) (g sp : Nat) (rest : List JoinEntry) (part : Nat) (union table : W64), s.ready g sp [] →
    (s.split g sp).inHandler = false → (s.split g sp).tags = rest ++ [.serial part union table 0 0 0] → (s.split g sp).drained = true →
    exec .join s = .next (s.setSplit g sp { s.split g sp with spc := s.pc + 4, tags := rest, exec := union, stall := none }))

/-- R44: when two live splits are all that carry a tag and both wait with it on top at one address, JOIN_MERGE leaves the lower-numbered one, with
both sets of lanes, past the JOIN, and the other is dead; at two different addresses the group takes the illegal-instruction trap. -/
def joinMerges : Prop :=
  ∀ (s : State) (g j k id : Nat) (p q : List JoinEntry), j < k → k < 4 → (s.grp g).liveSplits = [j, k] →
    (s.split g j).tags = p ++ [.tag id] → (s.split g k).tags = q ++ [.tag id] →
    (s.split g j).stall = some .join → (s.split g k).stall = some .join →
    (s.split g j).drained = true → (s.split g k).drained = true →
    if (s.split g j).spc = (s.split g k).spc then
      ∃ t, exec (.joinMerge g) s = .next t ∧ (t.split g j).live = true ∧ (t.split g k).live = false ∧
        (t.split g j).exec = (s.split g j).exec ||| (s.split g k).exec ∧ (t.split g j).tags = p ∧
        (t.split g j).spc = (s.split g j).spc + 4 ∧ (t.split g j).regs = (s.split g j).regs
    else exec (.joinMerge g) s = .next (s.fatal g 0x10 (s.split g j).spc 0 0 j)

/-- R146: an EXIT whose split has no clause left ends the split, and with another live split that is all, but that its scalar
accesses in flight write no register any more; GROUP_EXIT_COMPLETE then makes an Active group whose splits have all ended, with every flag clear, every counter zero and no scalar access out, Exited. -/
def exitEnds : Prop :=
  (∀ (s : State) (g sp : Nat), s.ready g sp [] → (s.split g sp).inHandler = false → (s.split g sp).drained = true →
    ∃ t, exec .exit s = .next t ∧ (t.split g sp).live = false ∧ (∀ k, k ≠ sp → t.split g k = s.split g k) ∧
      (1 < (s.grp g).liveSplits.length → ∃ p, t = (s.setSplit g sp p).modGrp g (fun y => y.orphan sp)) ∧ s.sameBytes t) ∧
  (∀ (s : State) (g : Nat), (s.grp g).st = .active → (s.grp g).liveSplits = [] → (s.grp g).acc = [] →
    (∀ f, (s.grp g).flagCount f = 0) → (∀ c, (s.grp g).counter c = 0) →
    ∃ t, exec (.groupExitComplete g) s = .next t ∧ (t.grp g).st = .exited)

end Sys2Proof.Machine

/-- R44 to R46, R52, R146: JOIN, JOIN_MERGE and EXIT. -/
def Obligations.JoinsAndExits : Prop := joinGoesOn ∧ joinMerges ∧ exitEnds

/-! ## Clauses and waits -/

namespace Sys2Proof.Machine

/-- A clause that passes the checks of R103 stands at `target`: its header and instructions are fetched, their length codes end with it. -/
def State.clauseFetched (s : State) (g : Nat) (target : W64) (h : Header) (t : State) : Prop :=
  target.toNat % 8 = 0 ∧ ∃ (u : State) (hb bs : List Byte),
    s.fetchHalves (some (s.grp g).core) target 4 = (u, .ok hb) ∧ headerOf hb = some h ∧
    u.fetchHalves (some (s.grp g).core) (target + 8) (h.len * 4 - 4) = (t, .ok bs) ∧ lengthsEnd 256 bs = true

/-- The two LRUN forms and the address of the clause that each enqueues (R147). -/
def lrunOf (i : Instr) (s : State) (g : Nat) : Option (List (BitVec 6) × W64) :=
  match i with
  | .lrun o => some ([], (s.grp g).desc.lcb + o.setWidth 64 * 8)
  | .lrunr a o => some ([a], (s.grp g).desc.lcb + s.sreg a + o.setWidth 64 * 8)
  | _ => none

/-- R147, R33: an LRUN with room in the lane queue puts the clause at the queue's tail, with the exec mask of this moment, and the scalar stream goes
on; in a split's handler it enters the handler's queue (R59). -/
def lrunEnqueues : Prop :=
  ∀ (i : Instr) (rs : List (BitVec 6)) (target : W64) (s u : State) (g sp : Nat) (h : Header),
    lrunOf i s g = some (rs, target) → s.ready g sp rs → (s.split g sp).target.length < 8 → s.clauseFetched g target h u →
    ∃ t n, exec i s = .next t ∧
      (t.split g sp).target = (s.split g sp).target ++
        [{ kind := .clause (target &&& 0x00FFFFFFFFFFFFFF#64) 0, val := (s.split g sp).exec &&& low64 (s.grp g).desc.w, no := n, pc := s.pc }] ∧
      (t.split g sp).spc = s.pc + 4 ∧ (t.split g sp).regs = (s.split g sp).regs ∧ (t.split g sp).exec = (s.split g sp).exec

/-- R147: a clause address that is not a multiple of 8 is the misaligned-fetch trap, once the queue has room. -/
def lrunMisaligned : Prop :=
  ∀ (i : Instr) (rs : List (BitVec 6)) (target : W64) (s : State) (g sp : Nat),
    lrunOf i s g = some (rs, target) → s.ready g sp rs → (s.split g sp).target.length < 8 → target.toNat % 8 ≠ 0 →
    exec i s = .next (s.fatal g 0x12 (s.split g sp).spc 0 0 sp)

/-- A clause as it starts. -/
def startedClause (addr exec0 fpctl : W64) (h : Header) (no : Nat) : Running :=
  { addr := addr, off := 4, len := h.len * 4, fa := h.fa, fb := h.fb, exec := exec0, fpctl := fpctl, no := no, stopped := false }

/-- R35, R79: CLAUSE_START starts the head clause of the split's queue when every flag of its WAIT is clear: at its first instruction, with the
exec mask captured at its LRUN and the FPCTL in force now; while a flag of WAIT is set it starts nothing. -/
def clauseStarts : Prop :=
  ∀ (s u : State) (g sp : Nat) (addr exec0 pc : W64) (no : Nat) (rest : List QEntry) (hb : List Byte) (h : Header),
    s.laneMay g sp = true → (s.split g sp).inHandler = false → (s.split g sp).run = none → (s.split g sp).hrun = none →
    (s.split g sp).queue = { kind := .clause addr 0, val := exec0, no := no, pc := pc } :: rest →
    s.fetchHalves (some (s.grp g).core) addr 4 = (u, .ok hb) → headerOf hb = some h →
    if (s.grp g).flagsClear h.wait = true then
      exec (.clauseStart g sp) s = .next (u.modSplit g sp (fun q => { q with
        run := some (startedClause addr exec0 (s.grp g).fpctl h no) }))
    else exec (.clauseStart g sp) s = .next u

end Sys2Proof.Machine

/-- R147, R33, R38: LRUN and LRUNR, and the start of a clause. -/
def Obligations.Clauses : Prop := lrunEnqueues ∧ lrunMisaligned ∧ clauseStarts

namespace Sys2Proof.Machine

/-- The counter that each WAITC form waits for (R149). -/
def waitcOf (i : Instr) : Option (BitVec 6 × Nat) :=
  match i with
  | .waitcGld a => some (a, 0)
  | .waitcGst a => some (a, 1)
  | .waitcSpd a => some (a, 2)
  | .waitcGln a => some (a, 3)
  | .waitcEng a => some (a, 4)
  | .waitcRem a => some (a, 5)
  | _ => none

/-- R148, R149, the words: WAITF's mask of 12 flags, WAITC's A and FN; a field that must be zero, and FN 6 to 255, make an illegal word. -/
def waitWords : Prop :=
  (∀ (d : BitVec 6) (z : BitVec 8) (f : BitVec 12), if d = 0 ∧ z = 0 then decodeScalar (0x22#6 ++ d ++ z ++ f) = .ok (.waitf f)
    else illegalWord (0x22#6 ++ d ++ z ++ f)) ∧
  (∀ p ∈ [(0#8, Instr.waitcGld), (1#8, .waitcGst), (2#8, .waitcSpd), (3#8, .waitcGln), (4#8, .waitcEng), (5#8, .waitcRem)], ∀ d a b : BitVec 6,
    if d = 0 ∧ b = 0 then decodeScalar (0x23#6 ++ d ++ a ++ b ++ p.1) = .ok (p.2 a) else illegalWord (0x23#6 ++ d ++ a ++ b ++ p.1)) ∧
  (∀ (d a b : BitVec 6) (f : BitVec 8), 6 ≤ f.toNat → illegalWord (0x23#6 ++ d ++ a ++ b ++ f))

/-- R39, R148, R149: WAITF goes on once every clause before it has started and every flag it names is clear, WAITC once every clause before it has issued
and its counter is at or below s[A]; until then the stream stays at the instruction. -/
def waitEffects : Prop :=
  (∀ (f : BitVec 12) (s : State) (g sp : Nat), s.ready g sp [] → (s.split g sp).clausesStarted = true →
    (∀ k, k < 12 → f.getLsbD k = true → (s.grp g).flagCount k = 0) → exec (.waitf f) s = .next (s.jumpTo (s.pc + 4))) ∧
  (∀ (f : BitVec 12) (s : State) (g sp : Nat), s.ready g sp [] → ((s.split g sp).clausesStarted = false ∨
      ∃ k, k < 12 ∧ f.getLsbD k = true ∧ (s.grp g).flagCount k ≠ 0) →
    exec (.waitf f) s = .next (s.modSplit g sp (fun p => { p with stall := some (.waitf f.toNat) }))) ∧
  (∀ (i : Instr) (a : BitVec 6) (c : Nat) (s : State) (g sp : Nat), waitcOf i = some (a, c) → s.ready g sp [a] →
    (s.split g sp).clausesDone = true → ((s.grp g).counter c).toNat ≤ (s.sreg a).toNat → exec i s = .next (s.jumpTo (s.pc + 4))) ∧
  (∀ (i : Instr) (a : BitVec 6) (c : Nat) (s : State) (g sp : Nat), waitcOf i = some (a, c) → s.ready g sp [a] →
    ((s.split g sp).clausesDone = false ∨ (s.sreg a).toNat < ((s.grp g).counter c).toNat) →
    ∃ t, exec i s = .next t ∧ (t.split g sp).spc = s.pc ∧ (t.split g sp).stall = some (.waitc c (s.sreg a).toNat) ∧ s.sameBytes t)

end Sys2Proof.Machine

/-- R39, R148, R149: WAITF and WAITC, with their words. -/
def Obligations.ScalarWaits : Prop := waitEffects ∧ waitWords

/-! ## Exec, masks and single lanes -/

namespace Sys2Proof.Machine

/-- The EXEC functions that write exec (R150): the scalar register and the mask register each reads, and the new exec from exec, s[A] and the
mask. -/
def execWriter (i : Instr) : Option (Option (BitVec 6) × Option (BitVec 6) × (W64 → W64 → W64 → W64)) :=
  match i with
  | .execSet a => some (some a, none, fun _ v _ => v)
  | .execAnd a => some (none, some a, fun e _ m => e &&& m)
  | .execAndn a => some (none, some a, fun e _ m => e &&& ~~~m)
  | .execOr a => some (none, some a, fun e _ m => e ||| m)
  | .execNot a => some (some a, none, fun e v _ => v &&& ~~~e)
  | .execAll => some (none, none, fun _ _ _ => BitVec.allOnes 64)
  | _ => none

/-- R150, the words: FN with A, D or neither; any other field set, and FN 7 to 255, make an illegal word. -/
def execWords : Prop :=
  (∀ p ∈ [(0#8, Instr.execSet), (2#8, .execAnd), (3#8, .execAndn), (4#8, .execOr), (5#8, .execNot)], ∀ d a b : BitVec 6,
    if d = 0 ∧ b = 0 then decodeScalar (0x24#6 ++ d ++ a ++ b ++ p.1) = .ok (p.2 a) else illegalWord (0x24#6 ++ d ++ a ++ b ++ p.1)) ∧
  (∀ d a b : BitVec 6, if a = 0 ∧ b = 0 then decodeScalar (0x24#6 ++ d ++ a ++ b ++ 1#8) = .ok (.execGet d)
    else illegalWord (0x24#6 ++ d ++ a ++ b ++ 1#8)) ∧
  (∀ d a b : BitVec 6, if d = 0 ∧ a = 0 ∧ b = 0 then decodeScalar (0x24#6 ++ d ++ a ++ b ++ 6#8) = .ok .execAll
    else illegalWord (0x24#6 ++ d ++ a ++ b ++ 6#8)) ∧
  (∀ (d a b : BitVec 6) (f : BitVec 8), 7 ≤ f.toNat → illegalWord (0x24#6 ++ d ++ a ++ b ++ f))

/-- R150: each EXEC function leaves exec with its function's value below bit W, and changes nothing else of the machine but the stream's place. A mask register
of 16 or more, and EXEC.ALL with more than one live split, are illegal instructions; a mask register that something earlier is still to write
holds the stream. EXEC.GET reads exec. -/
def execWrites : Prop :=
  (∀ (i : Instr) (a m : Option (BitVec 6)) (f : W64 → W64 → W64 → W64) (s : State) (g sp : Nat),
    execWriter i = some (a, m, f) → s.ready g sp a.toList → (i = .execAll → (s.grp g).liveSplits.length ≤ 1) →
    (∀ r, m = some r → r.toNat < 16 ∧ s.maskAwaited g sp r.toNat = false) →
    exec i s = .next (s.modSplit g sp (fun p => { p with
      exec := f p.exec ((a.map s.sreg).getD 0) ((m.map (fun r => (s.grp g).mask r.toNat)).getD 0) &&& low64 (s.grp g).desc.w
      spc := p.spc + 4
      stall := none }))) ∧
  (∀ (i : Instr) (r : BitVec 6) (f : W64 → W64 → W64 → W64) (s : State) (g sp : Nat), execWriter i = some (none, some r, f) → s.ready g sp [] →
    (16 ≤ r.toNat → exec i s = .next (s.fatal g 0x10 (s.split g sp).spc 0 0 sp)) ∧
    (r.toNat < 16 → s.maskAwaited g sp r.toNat = true → exec i s = .next (s.modSplit g sp (fun p => { p with stall := some .interlock })))) ∧
  (∀ (s : State) (g sp : Nat), s.ready g sp [] → 1 < (s.grp g).liveSplits.length →
    exec .execAll s = .next (s.fatal g 0x10 (s.split g sp).spc 0 0 sp)) ∧
  (∀ (d : BitVec 6) (s : State) (g sp : Nat), s.ready g sp [d] →
    exec (.execGet d) s = .next ((s.setSreg d (s.split g sp).exec).jumpTo (s.pc + 4)))

/-- R151, R152: MSAV, MCNT, MFFS and SGET write s[D]: the mask; how many lanes below W its bits name; the lowest of them, or 64;
one lane of a lane register, zero-extended. -/
def maskReads : Prop :=
  (∀ (d a : BitVec 6) (s : State) (g sp : Nat), s.ready g sp [d] → a.toNat < 16 → s.maskAwaited g sp a.toNat = false →
    exec (.msav d a) s = .next ((s.setSreg d ((s.grp g).mask a.toNat)).jumpTo (s.pc + 4)) ∧
    exec (.mcnt d a) s = .next ((s.setSreg d (BitVec.ofNat 64
      ((List.range 64).filter (fun l => decide (l < (s.grp g).desc.w) && ((s.grp g).mask a.toNat).getLsbD l)).length)).jumpTo (s.pc + 4)) ∧
    ∃ n, exec (.mffs d a) s = .next ((s.setSreg d (BitVec.ofNat 64 n)).jumpTo (s.pc + 4)) ∧ n ≤ 64 ∧
      (∀ l, l < n → l < (s.grp g).desc.w → ((s.grp g).mask a.toNat).getLsbD l = false) ∧
      (n < 64 → n < (s.grp g).desc.w ∧ ((s.grp g).mask a.toNat).getLsbD n = true)) ∧
  (∀ (d : BitVec 6) (v : BitVec 10) (l : BitVec 6) (s : State) (g sp : Nat), s.ready g sp [d] → v.toNat < 640 →
    l.toNat < (s.grp g).desc.w → (s.grp g).popOf v.toNat = none → s.regAwaited g sp v.toNat = false → v.toNat ∉ (s.grp g).vBad →
    exec (.sget d v l) s = .next ((s.setSreg d ((((s.grp g).reg v.toNat).lane l.toNat).setWidth 64)).jumpTo (s.pc + 4)))

end Sys2Proof.Machine

/-- R150 to R152: exec written and read, with its words, and the masks read. -/
def Obligations.ExecAndMasks : Prop := execWrites ∧ maskReads ∧ execWords

namespace Sys2Proof.Machine

/-- R151, R152, R33: MSET and VSET enter the lane queue in program order with the value of s[A] or of s[D]; the lane state does not change yet. -/
def laneWritesEnqueue : Prop :=
  (∀ (d a : BitVec 6) (s : State) (g sp : Nat), s.ready g sp [a] → d.toNat < 16 → (s.split g sp).target.length < 8 →
    ∃ t n, exec (.mset d a) s = .next t ∧
      (t.split g sp).target = (s.split g sp).target ++
        [{ kind := .mset (d.setWidth 4), val := s.sreg a &&& low64 (s.grp g).desc.w, no := n, pc := s.pc }] ∧
      (t.split g sp).spc = s.pc + 4 ∧ (t.grp g).m = (s.grp g).m) ∧
  (∀ (d : BitVec 6) (v : BitVec 10) (l : BitVec 6) (s : State) (g sp : Nat), s.ready g sp [d] → v.toNat < 640 →
    l.toNat < (s.grp g).desc.w → (s.grp g).popOf v.toNat = none → (s.split g sp).target.length < 8 →
    ∃ t n, exec (.vset d v l) s = .next t ∧
      (t.split g sp).target = (s.split g sp).target ++
        [{ kind := .vset v l, val := ((s.sreg d).setWidth 32).setWidth 64, no := n, pc := s.pc }] ∧
      (t.split g sp).spc = s.pc + 4 ∧ (t.grp g).v = (s.grp g).v)

/-- The head of the split's queue is `e`, with nothing started. -/
def State.headIs (s : State) (g sp : Nat) (e : QEntry) (rest : List QEntry) : Prop :=
  s.laneMay g sp = true ∧ (s.split g sp).inHandler = false ∧ (s.split g sp).run = none ∧ (s.split g sp).hrun = none ∧
  (s.split g sp).queue = e :: rest

/-- R151, R152, R67, R79: the queued writes perform at the head of the queue: MSET writes its mask register; VSET writes one lane of a register below
GCOUNT, which becomes G with its other lanes as they were, and at or above GCOUNT it is the shape trap; an FPCTL write, first in the group's issue
order, changes FPCTL. -/
def laneWritesPerform : Prop :=
  (∀ (m : BitVec 4) (v pc : W64) (no : Nat) (rest : List QEntry) (s : State) (g sp : Nat),
    s.headIs g sp { kind := .mset m, val := v, no := no, pc := pc } rest → (s.grp g).maskBusy m.toNat = false →
    ∃ t, exec (.msetPerform g sp) s = .next t ∧ (t.split g sp).queue = rest ∧
      ∀ k, (t.grp g).mask k = if k = m.toNat then v &&& low64 (s.grp g).desc.w else (s.grp g).mask k) ∧
  (∀ (v : BitVec 10) (l : BitVec 6) (x pc : W64) (no : Nat) (rest : List QEntry) (s : State) (g sp : Nat),
    s.headIs g sp { kind := .vset v l, val := x, no := no, pc := pc } rest → (s.grp g).regBusy v.toNat 1 = false →
    v.toNat ∉ s.heldRegs g → l.toNat < (s.grp g).desc.w →
    if v.toNat < (s.grp g).desc.gcount then
      ∃ t, exec (.vsetPerform g sp) s = .next t ∧ (t.split g sp).queue = rest ∧ ((t.grp g).reg v.toNat).isG = true ∧
        (∀ k, k < (s.grp g).desc.w →
          ((t.grp g).reg v.toNat).lane k = if k = l.toNat then x.setWidth 32 else ((s.grp g).reg v.toNat).lane k) ∧
        (∀ n, n ≠ v.toNat → (t.grp g).reg n = (s.grp g).reg n)
    else exec (.vsetPerform g sp) s = .next (({ s with cur := .lane g sp } : State).fatal g 0x14 pc 0 0 sp)) ∧
  (∀ (n : Nat) (v w pc : W64) (no : Nat) (rest : List QEntry) (later : List (Nat × W64)) (s : State) (g sp : Nat),
    s.headIs g sp { kind := .fpctl n, val := v, no := no, pc := pc } rest → (s.grp g).fpctlQ = (n, w) :: later →
    ∃ t, exec (.fpctlWritePerform g sp) s = .next t ∧ (t.split g sp).queue = rest ∧ (t.grp g).fpctl = v ∧ (t.grp g).fpctlQ = later)

end Sys2Proof.Machine

/-- R151, R152, R79: MSET, VSET and FPCTL writes, as they enter the lane queue and as they perform. -/
def Obligations.LaneWrites : Prop := laneWritesEnqueue ∧ laneWritesPerform

/-! ## Scalar memory -/

namespace Sys2Proof.Machine

/-- The address of a scalar access: its low three bits are cleared and bits 63:56 are ignored (R153). -/
def doubleword (ea : W64) : W64 := ea &&& 0x00FFFFFFFFFFFFF8#64

/-- The ATOMS functions by number (R155): the new value from the old one, s[B] and s[D]. -/
def atomsOp (fn : Nat) (old b d : W64) : W64 :=
  match fn with
  | 0 => old + b
  | 1 => old &&& b
  | 2 => old ||| b
  | 3 => b
  | 4 => if old = d then b else old
  | 5 => if b.toInt < old.toInt then b else old
  | _ => if old.toInt < b.toInt then b else old

/-- An ATOMS instruction: its function's number and registers (R155). -/
def atomsOf (i : Instr) : Option (Nat × BitVec 6 × BitVec 6 × BitVec 6) :=
  match i with
  | .atomsAdd d a b => some (0, d, a, b)
  | .atomsAnd d a b => some (1, d, a, b)
  | .atomsOr d a b => some (2, d, a, b)
  | .atomsXchg d a b => some (3, d, a, b)
  | .atomsCas d a b => some (4, d, a, b)
  | .atomsMin d a b => some (5, d, a, b)
  | .atomsMax d a b => some (6, d, a, b)
  | _ => none

/-- A scalar access: the registers it names, what it does, its address, the register it returns to, and its two data values. -/
def scalarAccessOf (i : Instr) (s : State) : Option (List (BitVec 6) × AccOp × W64 × BitVec 6 × W64 × W64) :=
  match i, atomsOf i with
  | .lds d a n, _ => some ([d, a], .lds, s.sreg a + n.signExtend 64, d, 0, 0)
  | .sts d a n, _ => some ([d, a], .sts, s.sreg a + n.signExtend 64, 0, s.sreg d, 0)
  | _, some (fn, d, a, b) => some ([d, a, b], .atoms fn, s.sreg a, d, s.sreg b, s.sreg d)
  | _, none => none

/-- A translated scalar access of 8 bytes at physical address `pa`. -/
def scalarAccess (id sp life : Nat) (op : AccOp) (va : W64) (pa dst : Nat) (data cmp : W64) (pc : W64) : Access :=
  { id := id, split := sp, op := op, lanes := [{ lane := 0, va := va, place := some (.hbm, pa), size := 8, data := wordsOf 2 data.toNat,
                                                 cmp := wordsOf 2 cmp.toNat, result := none, fault := none }],
    dst := dst, dcount := 0, mreg := 0, flag := none, ctr := none, acq := false, rel := false, scope := 0, addr := pc, no := id, life := life }

/-- R153 to R156: LDS, STS and ATOMS of a group, once every clause before them has issued and no ACQ command holds them, translate their address with
the access they need and are in flight, in program order behind the others; the scalar stream goes on. -/
def scalarAccessIssues : Prop :=
  ∀ (i : Instr) (rs : List (BitVec 6)) (op : AccOp) (ea : W64) (d : BitVec 6) (x y : W64) (s u : State) (g sp pa : Nat),
    scalarAccessOf i s = some (rs, op, ea, d, x, y) → s.ready g sp rs → s.scalarHeld g sp = false →
    (s.fresh.2).translate (some (s.grp g).core) (doubleword ea) op.need = (u, .ok pa) →
    exec i s = .next ((u.modGrp g (fun z => { z with
      acc := z.acc ++ [scalarAccess s.nextId sp (s.split g sp).life op (doubleword ea) pa d.toNat x y s.pc] })).jumpTo (s.pc + 4))

/-- R153, R155, R156: the events that end them. An LDS returns the 8 bytes of its address to its register; an ATOMS returns the old value and leaves
the new one in memory; an STS leaves its value; every other byte of memory reads as before, and the access is no longer in flight. -/
def scalarAccessEnds : Prop :=
  ∀ (s : State) (g pa : Nat) (a : Access) (sp life d : Nat) (va x y pc : W64) (id : Nat), s.hbm.wf = true →
    (s.grp g).acc.find? (fun b => b.id == id) = some a → (s.grp g).mayPerform a = true → s.hbmBadIn pa 8 = false →
    (a = scalarAccess id sp life .lds va pa d x y pc →
      ∃ t, exec (.scalarAccessReturn g id) s = .next t ∧ (∀ r, (t.split g sp).regs.get 0 r =
          if d ≠ 0 ∧ r = d then BitVec.ofNat 64 (s.hbmNat pa 8) else (s.split g sp).regs.get 0 r) ∧
        (∀ c, t.hbm.read c = s.hbm.read c) ∧ (∀ b ∈ (t.grp g).acc, b.id ≠ id)) ∧
    (a = scalarAccess id sp life .sts va pa 0 x y pc →
      ∃ t, exec (.scalarStorePerformed g id) s = .next t ∧
        (∀ c, t.hbm.read c = if pa ≤ c ∧ c < pa + 8 then (leBytes 8 x.toNat).getD (c - pa) 0 else s.hbm.read c) ∧
        (∀ b ∈ (t.grp g).acc, b.id ≠ id)) ∧
    (∀ fn, fn < 7 → a = scalarAccess id sp life (.atoms fn) va pa d x y pc →
      ∃ t, exec (.scalarAccessReturn g id) s = .next t ∧ (∀ r, (t.split g sp).regs.get 0 r =
          if d ≠ 0 ∧ r = d then BitVec.ofNat 64 (s.hbmNat pa 8) else (s.split g sp).regs.get 0 r) ∧
        (∀ c, t.hbm.read c = if pa ≤ c ∧ c < pa + 8 then
          (leBytes 8 (atomsOp fn (BitVec.ofNat 64 (s.hbmNat pa 8)) x y).toNat).getD (c - pa) 0 else s.hbm.read c) ∧
        (∀ b ∈ (t.grp g).acc, b.id ≠ id))

end Sys2Proof.Machine

/-- R153 to R155: LDS, STS and ATOMS, as they issue and as they end (log 7: an access is performed and returned by one event). -/
def Obligations.ScalarAccess : Prop := scalarAccessIssues ∧ scalarAccessEnds

/-- R425, R92: a service core performs LDS, STS and ATOMS at once; an address that does not translate is its trap 0x20 with the address in SINFO. -/
def Obligations.ServiceAccess : Prop :=
  ∀ (i : Instr) (rs : List (BitVec 6)) (op : AccOp) (ea : W64) (d : BitVec 6) (x y : W64) (s u : State) (k : Nat),
    scalarAccessOf i s = some (rs, op, ea, d, x, y) → s.cur = .service k →
    (∀ pa, s.translate none (doubleword ea) op.need = (u, .ok pa) → u.hbmBadIn pa 8 = false →
      exec i s = .next ((match op with
        | .lds => u.setSreg d (BitVec.ofNat 64 (u.hbmNat pa 8))
        | .sts => u.hbmWrite none pa (leBytes 8 x.toNat)
        | .atoms fn => (u.hbmWrite none pa (leBytes 8 (atomsOp fn (BitVec.ofNat 64 (u.hbmNat pa 8)) x y).toNat)).setSreg d
            (BitVec.ofNat 64 (u.hbmNat pa 8))
        | _ => u).jumpTo (s.pc + 4))) ∧
    (∀ c, s.translate none (doubleword ea) op.need = (u, .fault c) → exec i s = .next (u.serviceTrap k 0x20 (doubleword ea)))

/-! ## Special registers -/

namespace Sys2Proof.Machine

/-- R157, R77, R424: a CSR read of a group writes the register's value to s[D], for FPSTAT once nothing enqueued earlier has yet to issue; the FPCTL that it
reads is the last one written in the group's issue order; CORE gives die, x and y of the core, and SPBASE the team's allocation. A service core reads its
own registers and those of the device, and any other number is its illegal-instruction trap. -/
def csrReads : Prop :=
  (∀ (d : BitVec 6) (n : BitVec 12) (v : W64) (s : State) (g sp : Nat), s.ready g sp [d, 0] → s.csrValue g sp n.toNat = some v →
    (n.toNat = 0x021 → (s.split g sp).drained = true) → exec (.csrr d n) s = .next ((s.setSreg d v).jumpTo (s.pc + 4))) ∧
  (∀ (d : BitVec 6) (s : State) (g sp : Nat), s.ready g sp [d, 0] → (s.split g sp).drained = true →
    exec (.fpstatRead d) s = .next ((s.setSreg d (s.grp g).fpstat).jumpTo (s.pc + 4))) ∧
  (∀ (s : State) (g sp : Nat),
    s.csrValue g sp 0x000 = some (BitVec.ofNat 64 (s.grp g).desc.w) ∧ s.csrValue g sp 0x001 = some (BitVec.ofNat 64 (s.grp g).gid) ∧
    s.csrValue g sp 0x002 = some (BitVec.ofNat 64 (s.grp g).grank) ∧ s.csrValue g sp 0x003 = some (BitVec.ofNat 64 (s.grp g).crank) ∧
    s.csrValue g sp 0x004 = some (BitVec.ofNat 64 (s.grp g).cluid) ∧ s.csrValue g sp 0x006 = some (BitVec.ofNat 64 sp) ∧
    s.csrValue g sp 0x010 = some (s.grp g).utvec ∧ s.csrValue g sp 0x011 = some (s.split g sp).utcause ∧
    s.csrValue g sp 0x012 = some (s.split g sp).utmask ∧ s.csrValue g sp 0x013 = some (s.split g sp).utpc ∧
    s.csrValue g sp 0x014 = some (s.split g sp).utinfo ∧
    s.csrValue g sp 0x020 = some (match (s.grp g).fpctlQ.getLast? with
      | some q => q.2
      | none => (s.grp g).fpctl) ∧ s.csrValue g sp 0x021 = some (s.grp g).fpstat ∧
    s.csrValue g sp 0x030 = some (BitVec.ofNat 64 (s.grp g).recn) ∧ s.csrValue g sp 0x031 = some (BitVec.ofNat 64 (s.grp g).recdepth) ∧
    s.csrValue g sp 0x040 = some (BitVec.ofNat 64 s.time) ∧ s.csrValue g sp 0x041 = some (s.core (s.grp g).core).cycle ∧
    s.csrValue g sp 0x050 = some (s.grp g).skips) ∧
  (∀ (s : State) (g sp die x y : Nat), x < 8 → y < 12 → (s.grp g).core = 96 * die + 8 * y + x →
    s.csrValue g sp 0x005 = some (BitVec.ofNat 64 (65536 * die + 256 * x + y))) ∧
  (∀ (s : State) (g sp : Nat) (m : Team), s.teams.find (s.grp g).team = some m → s.csrValue g sp 0x007 = some (BitVec.ofNat 64 m.spbase)) ∧
  (∀ (d : BitVec 6) (n : BitVec 12) (v : W64) (s : State) (k : Nat), s.cur = .service k → s.csrServiceValue k n.toNat = some v →
    exec (.csrr d n) s = .next ((s.setSreg d v).jumpTo (s.pc + 4))) ∧
  (∀ (s : State) (k : Nat), [0x040, 0x041, 0x800, 0x801, 0x802, 0x803, 0x804, 0x805, 0x810, 0x811, 0x812, 0x813, 0x814, 0x815].map (s.csrServiceValue k) =
    [BitVec.ofNat 64 s.time, (s.svc k).cycle, BitVec.ofNat 64 k, (s.svc k).serr, (s.svc k).stvec, (s.svc k).scause, (s.svc k).sepc, (s.svc k).sinfo,
      s.troot, s.fqbase, s.ringsReg, s.pfxbase, s.wpaddr, 0].map some) ∧
  (∀ (d : BitVec 6) (n : BitVec 12) (s : State) (k : Nat), s.cur = .service k →
    n.toNat ∉ [0x040, 0x041, 0x800, 0x801, 0x802, 0x803, 0x804, 0x805, 0x810, 0x811, 0x812, 0x813, 0x814, 0x815] →
    exec (.csrr d n) s = .next (s.serviceTrap k 0x10 0))

/-- The forms that write a special register: OPN 1 to 3, s[D], s[A] and the register's number. -/
def csrWriter (i : Instr) : Option (Nat × BitVec 6 × BitVec 6 × Nat) :=
  let form := fun (k : BitVec 2) (d a : BitVec 6) (n : Nat) => if k = 0 then none else some (k.toNat, d, a, n)
  match i with
  | .csrw d a n => some (1, d, a, n.toNat)
  | .csrs d a n => some (2, d, a, n.toNat)
  | .csrc d a n => some (3, d, a, n.toNat)
  | .registerWrite k d a n => form k d a n.toNat
  | .fpctlWrite k d a => form k d a 0x020
  | .fpstatWrite k d a => form k d a 0x021
  | .trootWrite k d a => form k d a 0x810
  | .fqbaseWrite k d a => form k d a 0x811
  | .ringsWrite k d a => form k d a 0x812
  | .pfxbaseWrite k d a => form k d a 0x813
  | .wpdataWrite k d a => form k d a 0x815
  | _ => none

/-- What a write (1), a set (2) or a clear (3) stores (R157). -/
def csrNew (k : Nat) (old v : W64) : W64 := if k = 1 then v else if k = 2 then old ||| v else old &&& ~~~v

/-- R157, R79: a group's write of UTVEC or SKIPS takes effect at once, of FPSTAT once nothing enqueued earlier has yet to issue, and s[D] takes the
old value; a write of FPCTL enters the lane queue and FPCTL stays; a write of any other number is an illegal instruction. -/
def csrGroupWrites : Prop :=
  ∀ (i : Instr) (k : Nat) (d a : BitVec 6) (n : Nat) (s : State) (g sp : Nat), csrWriter i = some (k, d, a, n) → s.ready g sp [d, a] →
    (n = 0x010 → exec i s = .next (((s.modGrp g (fun x => { x with utvec := csrNew k x.utvec (s.sreg a) })).setSreg d
      (s.grp g).utvec).jumpTo (s.pc + 4))) ∧
    (n = 0x050 → exec i s = .next (((s.modGrp g (fun x => { x with skips := csrNew k x.skips (s.sreg a) })).setSreg d
      (s.grp g).skips).jumpTo (s.pc + 4))) ∧
    (n = 0x021 → (s.split g sp).drained = true →
      exec i s = .next (((s.modGrp g (fun x => { x with fpstat := csrNew k x.fpstat (s.sreg a) &&& 0x3F })).setSreg d
        (s.grp g).fpstat).jumpTo (s.pc + 4))) ∧
    (n = 0x020 → (s.split g sp).target.length < 8 →
      ∃ t no, exec i s = .next t ∧ (t.grp g).fpctl = (s.grp g).fpctl ∧
        (t.split g sp).target = (s.split g sp).target ++
          [{ kind := .fpctl (s.grp g).fpctlNo, val := csrNew k (s.grp g).fpctlNow (s.sreg a) &&& 7, no := no, pc := s.pc }] ∧
        (t.split g sp).spc = s.pc + 4 ∧ (d ≠ 0 → (t.split g sp).regs.get 0 d.toNat = (s.grp g).fpctlNow)) ∧
    (n ≠ 0x010 → n ≠ 0x020 → n ≠ 0x021 → n ≠ 0x050 → exec i s = .next (s.fatal g 0x10 (s.split g sp).spc 0 0 sp))

/-- The rule of R424 for a value of TROOT, FQBASE, RINGS or PFXBASE. -/
def bringUpRule (n : Nat) (v : W64) : Prop :=
  (n = 0x810 → v.toNat % 0x100000 = 0 ∧ v.toNat + 0x100000 ≤ 0x6000000000) ∧ (n = 0x811 → v.toNat % 0x1000 = 0) ∧
  (n = 0x812 → v.toNat % 64 = 0) ∧ (n = 0x813 → 10 ≤ v.toNat % 32 ∧ v.toNat % 32 ≤ 20 ∧ v.getLsbD 5 = false ∧ v.toNat < 2 ^ 56)

/-- From `s` to `t` nothing changes but bring-up register `n`, with the ring directory for RINGS, and service core `c`. -/
def State.onlyBringUp (s t : State) (n c : Nat) : Prop :=
  t = { s with
    troot := if n = 0x810 then t.troot else s.troot
    fqbase := if n = 0x811 then t.fqbase else s.fqbase
    ringsReg := if n = 0x812 then t.ringsReg else s.ringsReg
    ringDescs := if n = 0x812 then t.ringDescs else s.ringDescs
    pfxbase := if n = 0x813 then t.pfxbase else s.pfxbase
    services := s.services.put c (t.svc c) }

/-- R157, R424, R410: a service core's writes. SERR, STVEC and WPADDR keep their fields; WPDATA stores a word of a Winnow program at WPADDR and moves its
word field on; TROOT, FQBASE, RINGS and PFXBASE take a value that their rules allow while the ports are closed, otherwise the write changes only SERR
(the directory that a write of RINGS has the device read stands in memory without error, log 101);
a read-only register or an unknown number is the illegal-instruction trap. -/
def csrServiceWrites : Prop :=
  ∀ (i : Instr) (k : Nat) (d a : BitVec 6) (n : Nat) (s : State) (c : Nat), csrWriter i = some (k, d, a, n) → s.cur = .service c →
    (n = 0x801 → exec i s = .next (((s.setSvc c { s.svc c with
        serr := csrNew k (s.svc c).serr (s.sreg a) &&& 0x1FF }).setSreg d (s.svc c).serr).jumpTo (s.pc + 4))) ∧
    (n = 0x802 → exec i s = .next (((s.setSvc c { s.svc c with
        stvec := csrNew k (s.svc c).stvec (s.sreg a) }).setSreg d (s.svc c).stvec).jumpTo (s.pc + 4))) ∧
    (n = 0x814 → exec i s = .next ((({ s with
        wpaddr := csrNew k s.wpaddr (s.sreg a) &&& 0xFF3F } : State).setSreg d s.wpaddr).jumpTo (s.pc + 4))) ∧
    (n = 0x815 → ∃ t, exec i s = .next t ∧
      (∀ j, t.wprogs.get 0 j = if j = (s.wpaddr.toNat / 256 % 256) * 64 + s.wpaddr.toNat % 64 then
        (csrNew k 0 (s.sreg a)).setWidth 32 else s.wprogs.get 0 j) ∧
      t.wpaddr.toNat = s.wpaddr.toNat / 256 % 256 * 256 + (s.wpaddr.toNat % 64 + 1) % 64) ∧
    (∀ old, n ∈ [0x810, 0x811, 0x812, 0x813] → s.csrServiceValue c n = some old →
      (s.portsOpen = true → exec i s = .next (((s.setSvc c { s.svc c with serr := 0x140 }).setSreg d old).jumpTo (s.pc + 4))) ∧
      (s.portsOpen = false → ¬ bringUpRule n (csrNew k old (s.sreg a)) →
        exec i s = .next (((s.setSvc c { s.svc c with serr := 0x141 }).setSreg d old).jumpTo (s.pc + 4))) ∧
      (s.portsOpen = false → bringUpRule n (csrNew k old (s.sreg a)) →
        (n = 0x812 → s.hbmBadIn (csrNew k old (s.sreg a)).toNat 48 = false) → ∃ t, exec i s = .next t ∧
        s.onlyBringUp t n c ∧ t.csrServiceValue c n = some (csrNew k old (s.sreg a)))) ∧
    (n ∉ [0x801, 0x802, 0x810, 0x811, 0x812, 0x813, 0x814, 0x815] → exec i s = .next (s.serviceTrap c 0x10 0))

end Sys2Proof.Machine

/-- R77 to R79, R157, R424: the special registers of a group and of a service core. -/
def Obligations.SpecialRegisters : Prop := csrReads ∧ csrGroupWrites ∧ csrServiceWrites

/-! ## Barriers -/

namespace Sys2Proof.Machine

/-- A barrier instruction of a group that can run: its scope is the team's (1) or the cluster's (2), its number is below 128, and no other register it
reads is awaited. -/
def State.barRuns (s : State) (g sp : Nat) (rs : List (BitVec 6)) (a : BitVec 6) (c : BitVec 3) (k n : Nat) : Prop :=
  s.ready g sp (a :: rs) ∧ (c = 1 ∨ c = 2) ∧ k = (s.grp g).barCore c.toNat ∧ n = (s.sreg a).toNat ∧ n < 128

/-- A barrier instruction: the registers that it reads besides the one with the barrier's number, that one, and its scope. -/
def barOf (i : Instr) : Option (List (BitVec 6) × BitVec 6 × BitVec 3) :=
  match i with
  | .barInit a b c => some ([b], a, c)
  | .barExpect a b c => some ([b], a, c)
  | .barArrive a c => some ([], a, c)
  | .barWait a b c => some ([b], a, c)
  | .barTest a b c => some ([b], a, c)
  | _ => none

/-- From `s` to `t` barrier `n` of core `k` completes as many phases as `arr` arrivals hold expected counts: the phase bit flips each time, the counts
fall back, a message is on its way to each other core of the cluster, and every other split but (g, sp) keeps its state, except that one of core `k`
which waits there goes past its BAR.WAIT. -/
def State.phaseEnds (s t : State) (g sp k n : Nat) (arr : BitVec 16) (eb : BitVec 32) : Prop :=
  (t.bar k n).phase = (if arr.toNat / (s.bar k n).expect.toNat % 2 = 1 then !(s.bar k n).phase else (s.bar k n).phase) ∧
  (t.bar k n).arrivals.toNat = arr.toNat % (s.bar k n).expect.toNat ∧ (t.bar k n).nbytes = (s.bar k n).nbytes - eb ∧
  (t.bar k n).ebytes = 0 ∧ (t.bar k n).expect = (s.bar k n).expect ∧ (∀ m ∈ s.clusterCores k, (m, !(s.bar k n).phase) ∈ (t.bar k n).msgs) ∧
  (∀ h j, (h, j) ≠ (g, sp) → (s.grp h).core = k → (s.split h j).stall = some (.barrier k n 0) →
    (t.split h j).stall = none ∧ (t.split h j).spc = (s.split h j).spc + 4) ∧
  (∀ h j, (h, j) ≠ (g, sp) → ((s.grp h).core ≠ k ∨ ∀ m, (s.split h j).stall ≠ some (.barrier k n m)) → t.split h j = s.split h j)

/-- R158, R159: BAR.INIT sets the expectations and clears the counts and the phase; BAR.TEST reads the phase; BAR.EXPECT adds to the expected bytes, a
barrier whose arrivals or bytes still fall short keeps its phase, and one that has both completes it. A scope other than 1 and 2, a number above 127,
and expectations with bits above bit 47 are illegal. A barrier that expects nothing completes at neither BAR.INIT nor an arrival it did not expect
(log 25). -/
def barrierSets : Prop :=
  (∀ (a b : BitVec 6) (c : BitVec 3) (s : State) (g sp k n : Nat), s.barRuns g sp [b] a c k n →
    exec (.barInit a b c) s = .next (if (s.sreg b).toNat < 2 ^ 48 then (s.setBar k n { s.bar k n with
      expect := (s.sreg b).extractLsb' 0 16
      ebytes := (s.sreg b).extractLsb' 16 32
      arrivals := 0
      nbytes := 0
      phase := false }).jumpTo (s.pc + 4) else s.fatal g 0x10 (s.split g sp).spc 0 0 sp)) ∧
  (∀ (a b : BitVec 6) (c : BitVec 3) (s : State) (g sp k n : Nat), s.barRuns g sp [b] a c k n →
    exec (.barTest a b c) s = .next ((s.setSreg b (if (s.bar k n).phase = true then 1 else 0)).jumpTo (s.pc + 4))) ∧
  (∀ (a b : BitVec 6) (c : BitVec 3) (s : State) (g sp k n : Nat), s.barRuns g sp [b] a c k n →
    ((s.bar k n).arrivals < (s.bar k n).expect ∨ (s.bar k n).nbytes < (s.bar k n).ebytes + (s.sreg b).setWidth 32 →
      exec (.barExpect a b c) s = .next ((s.setBar k n { s.bar k n with
        ebytes := (s.bar k n).ebytes + (s.sreg b).setWidth 32 }).jumpTo (s.pc + 4))) ∧
    ((s.bar k n).expect ≠ 0 → (s.bar k n).expect ≤ (s.bar k n).arrivals → (s.bar k n).ebytes + (s.sreg b).setWidth 32 ≤ (s.bar k n).nbytes →
      (∀ m, (s.split g sp).stall ≠ some (.barrier k n m)) → ∃ t, exec (.barExpect a b c) s = .next t ∧ (t.split g sp).spc = s.pc + 4 ∧
        s.phaseEnds t g sp k n (s.bar k n).arrivals ((s.bar k n).ebytes + (s.sreg b).setWidth 32))) ∧
  (∀ (i : Instr) (rs : List (BitVec 6)) (a : BitVec 6) (c : BitVec 3) (s : State) (g sp : Nat), barOf i = some (rs, a, c) →
    s.ready g sp (a :: rs) → ((c ≠ 1 ∧ c ≠ 2) ∨ 128 ≤ (s.sreg a).toNat) → exec i s = .next (s.fatal g 0x10 (s.split g sp).spc 0 0 sp))

/-- R159, R160, R250, R253: an arrival waits for what its release covers, and then counts; where the expected bytes are there and the arrivals meet the
expected count or pass it, it completes the phases that they hold, and what is left over counts for the next. -/
def barrierArrives : Prop :=
  ∀ (a : BitVec 6) (c : BitVec 3) (s : State) (g sp k n : Nat), s.barRuns g sp [] a c k n →
    (s.arriveHeld g sp = true → exec (.barArrive a c) s = .next (s.modSplit g sp (fun p => { p with stall := some .held }))) ∧
    (s.arriveHeld g sp = false → (s.bar k n).arrivals.toNat + 1 < 2 ^ 16 → (∀ m, (s.split g sp).stall ≠ some (.barrier k n m)) →
      ((s.bar k n).arrivals + 1 < (s.bar k n).expect ∨ (s.bar k n).nbytes < (s.bar k n).ebytes →
        exec (.barArrive a c) s = .next ((s.setBar k n { s.bar k n with arrivals := (s.bar k n).arrivals + 1 }).jumpTo (s.pc + 4))) ∧
      ((s.bar k n).expect ≠ 0 → (s.bar k n).expect ≤ (s.bar k n).arrivals + 1 → (s.bar k n).ebytes ≤ (s.bar k n).nbytes →
        ∃ t, exec (.barArrive a c) s = .next t ∧ (t.split g sp).spc = s.pc + 4 ∧
          s.phaseEnds t g sp k n ((s.bar k n).arrivals + 1) (s.bar k n).ebytes))

/-- R159, R160: BAR.WAIT passes when the phase differs from s[B][0], and otherwise waits for the change that follows the messages on their way to its
core; the message that tells another member core of a completed phase releases that core's waiters, or brings one that waits for a later message
nearer, and changes no other split (log 25). -/
def barrierWaits : Prop :=
  (∀ (a b : BitVec 6) (c : BitVec 3) (s : State) (g sp k n : Nat), s.barRuns g sp [b] a c k n → (s.split g sp).waitsAt k n = false →
    ((s.bar k n).phase ≠ (s.sreg b).getLsbD 0 → exec (.barWait a b c) s = .next (s.jumpTo (s.pc + 4))) ∧
    ((s.bar k n).phase = (s.sreg b).getLsbD 0 → ∃ t, exec (.barWait a b c) s = .next t ∧ (t.split g sp).spc = s.pc ∧
      (t.split g sp).stall = some (.barrier k n ((s.bar k n).msgs.filter (fun m => m.1 == (s.grp g).core)).length))) ∧
  (∀ (a b : BitVec 6) (c : BitVec 3) (s : State) (g sp k n m : Nat), s.barRuns g sp [b] a c k n → (s.split g sp).stall = some (.barrier k n m) →
    ∃ t, exec (.barWait a b c) s = .next t ∧ t.split g sp = s.split g sp) ∧
  (∀ (s : State) (k n m : Nat) (ph : Bool) (rest : List (Nat × Bool)), (s.bar k n).msgs = (m, ph) :: rest →
    ∃ t, exec (.phaseMessageArrival k n m) s = .next t ∧ (t.bar k n).msgs = rest ∧ (t.bar k n).phase = (s.bar k n).phase ∧
      (∀ h j, (s.grp h).core = m → (s.split h j).stall = some (.barrier k n 0) →
        (t.split h j).stall = none ∧ (t.split h j).spc = (s.split h j).spc + 4) ∧
      (∀ h j l, (s.grp h).core = m → (s.split h j).stall = some (.barrier k n (l + 1)) →
        t.split h j = { s.split h j with stall := some (.barrier k n l) }) ∧
      (∀ h j, (s.grp h).core ≠ m → t.split h j = s.split h j))

end Sys2Proof.Machine

/-- R158 to R160: barriers set up, arrivals, and waiting and testing. -/
def Obligations.Barriers : Prop := barrierSets ∧ barrierArrives ∧ barrierWaits

/-! ## The system family -/

namespace Sys2Proof.Machine

/-- The two flags of each FENCE form: ACQ and REL. -/
def fenceOf (i : Instr) : Option (Bool × Bool × BitVec 3) :=
  match i with
  | .fenceAcq c => some (true, false, c)
  | .fenceRel c => some (false, true, c)
  | .fenceAcqRel c => some (true, true, c)
  | _ => none

end Sys2Proof.Machine

/-- R162: a FENCE goes on once every clause before it has issued, and every access in flight that it covers has been performed: those that return a value
for ACQ, all for REL, the group's engine commands too for both; while a covered access is not performed it waits. The set it covers is the whole
group's, other splits' accesses included: the model's reading of R162 (log 71). A service core passes at once. -/
def Obligations.FenceWaits : Prop :=
  (∀ (i : Instr) (acq rel : Bool) (c : BitVec 3) (s : State) (g sp : Nat), fenceOf i = some (acq, rel, c) → s.ready g sp [] → c.toNat ≤ 4 →
    (s.split g sp).clausesDone = true → (∀ a ∈ (s.grp g).acc, a.performed = true ∨ (rel = false ∧ a.op.returns = false)) →
    ((acq && rel) = true → s.anyCmd g = false) → exec i s = .next (s.jumpTo (s.pc + 4))) ∧
  (∀ (i : Instr) (acq rel : Bool) (c : BitVec 3) (s : State) (g sp : Nat) (a : Access), fenceOf i = some (acq, rel, c) → s.ready g sp [] →
    c.toNat ≤ 4 → a ∈ (s.grp g).acc → a.performed = false → (rel = true ∨ a.op.returns = true) →
    exec i s = .next (s.modSplit g sp (fun p => { p with stall := some .fence }))) ∧
  (∀ (i : Instr) (acq rel : Bool) (c : BitVec 3) (s : State) (k : Nat), fenceOf i = some (acq, rel, c) → s.cur = .service k → c.toNat ≤ 4 →
    exec i s = .next (s.jumpTo (s.pc + 4)))

namespace Sys2Proof.Machine

/-- R163, R274, R271, R425: TRAP. Outside a handler with UTVEC set it leaves a trap of code 2 to be delivered, with the active lanes, the TRAP's
address and s[A]; with UTVEC zero it is fatal and UNHANDLED; inside a handler it is an illegal instruction; a service core traps with cause
0x02 and s[A]. -/
def trapRaises : Prop :=
  (∀ (a : BitVec 6) (s : State) (g sp : Nat), s.ready g sp [a] → (s.split g sp).inHandler = false → (s.grp g).utvec ≠ 0 →
    exec (.trap a) s = .next (s.modSplit g sp (fun p => { p with
      traps := p.traps ++ [{ code := 2, mask := p.exec &&& low64 (s.grp g).desc.w, pc := p.spc, info := s.sreg a, clock := s.clock }]
      stall := some .trap }))) ∧
  (∀ (a : BitVec 6) (s : State) (g sp : Nat), s.ready g sp [a] → (s.split g sp).inHandler = false → (s.grp g).utvec = 0 →
    exec (.trap a) s = .next (s.fatal g 2 (s.split g sp).spc 0 (s.sreg a) (sp + 4))) ∧
  (∀ (a : BitVec 6) (s : State) (g sp : Nat), s.ready g sp [a] → (s.split g sp).inHandler = true →
    exec (.trap a) s = .next (s.fatal g 0x10 (s.split g sp).spc 0 0 sp)) ∧
  (∀ (a : BitVec 6) (s : State) (k : Nat), s.cur = .service k → exec (.trap a) s = .next (s.serviceTrap k 0x02 (s.sreg a)))

/-- R273, R275: delivering a trap saves its code, lanes, address and information in the split's trap registers, marks the handler, and goes on at UTVEC;
UTRET leaves the handler at UTPC + 4 after a TRAP, and at the place the stream had reached after any other trap; outside a handler UTRET is an illegal
instruction. -/
def trapEntersAndReturns : Prop :=
  (∀ (s : State) (g sp : Nat) (u : UTrap), (s.grp g).st = .active → (s.grp g).cur = sp → (s.grp g).trapSplit = some sp →
    (s.split g sp).traps = [u] →
    exec (.trapDelivery g) s = .next (s.setSplit g sp { s.split g sp with
      traps := []
      utcause := u.code.setWidth 64
      utmask := u.mask
      utpc := u.pc
      utinfo := u.info
      inHandler := true
      retSpc := (s.split g sp).spc
      stall := none
      spc := (s.grp g).utvec })) ∧
  (∀ (s : State) (g sp : Nat), s.ready g sp [] → (s.split g sp).inHandler = true → (s.split g sp).handlerDone = true →
    ∃ t, exec .utret s = .next t ∧ (t.split g sp).inHandler = false ∧
      (t.split g sp).spc = (if (s.split g sp).utcause = 2 then (s.split g sp).utpc + 4 else (s.split g sp).retSpc) ∧
      (t.split g sp).regs = (s.split g sp).regs ∧ (t.split g sp).exec = (s.split g sp).exec ∧ s.onlySplit t g sp) ∧
  (∀ (s : State) (g sp : Nat), s.ready g sp [] → (s.split g sp).inHandler = false →
    exec .utret s = .next (s.fatal g 0x10 (s.split g sp).spc 0 0 sp))

end Sys2Proof.Machine

/-- R163, R273 to R275: user-level traps, raised, entered and returned from. Where the stream goes on after UTRET of a future-empty trap is the
model's reading (log 10). -/
def Obligations.UserTraps : Prop := trapRaises ∧ trapEntersAndReturns

namespace Sys2Proof.Machine

/-- The order of reports within a clock: core, linear group id, split (R104, R272). -/
def State.reportedBefore (s : State) (a b : Dying) : Prop :=
  (s.grp a.group).core < (s.grp b.group).core ∨ ((s.grp a.group).core = (s.grp b.group).core ∧
    ((s.grp a.group).gid < (s.grp b.group).gid ∨ ((s.grp a.group).gid = (s.grp b.group).gid ∧ a.split ≤ b.split)))

/-- R270, R272: what the traps of a clock report: of every split that raised one, one record, its highest-priority cause's, in order of core, linear
group id and split; the priorities of the fatal causes are R270's. -/
def trapsOfClock : Prop :=
  [0x19#8, 0x12, 0x11, 0x10, 0x14, 0x15, 0x16, 0x17, 0x18].map causePrio = List.range 9 ∧
  ∀ s : State, (∀ f ∈ s.trapsDue, f ∈ s.fatals ∧ ∀ k ∈ s.fatals, k.group = f.group → k.split = f.split → f.prio ≤ k.prio) ∧
    (∀ k ∈ s.fatals, ∃ f ∈ s.trapsDue, f.group = k.group ∧ f.split = k.split) ∧
    (s.trapsDue.map (fun f => (f.group, f.split))).Nodup ∧ s.trapsDue.Pairwise s.reportedBefore

end Sys2Proof.Machine

/-- R272, R53, R425: TAKING A FATAL TRAP. On a compute core it raises a record: address, lane mask, information, core, cause, flags, slot and linear
group id. At the end of the clock every group of the launch that was placed and had not Exited, a Saved one too, is Killed, with its registers as they
stood; the launch is killed and none of its clusters waits to be placed; and the trap ring, if it is in use, takes the records of the clock in their
order. On a service core SCAUSE, SEPC and SINFO take the cause, the address and the information, and the core goes on at STVEC, or halts there with
STVEC zero. -/
def Obligations.FatalTrapKills : Prop :=
  trapsOfClock ∧
  (∀ (s : State) (g : Nat) (cause : BitVec 8) (addr mask info : W64) (flags : Nat),
    ∃ f, s.fatal g cause addr mask info flags = { s with fatals := s.fatals ++ [f] } ∧ f.launch = (s.grp g).launch ∧ f.group = g ∧
      f.split = flags % 4 ∧ f.prio = causePrio cause ∧ f.by_ = s.cur ∧
      f.body = leBytes 8 addr.toNat ++ leBytes 8 mask.toNat ++ leBytes 8 info.toNat ++ leBytes 1 (s.grp g).core ++ leBytes 1 cause.toNat ++
        leBytes 1 flags ++ leBytes 1 (s.grp g).slotNo ++ leBytes 4 (s.grp g).gid) ∧
  (∀ (s : State) (f : Dying) (h : Nat), f ∈ s.trapsDue → s.groups.find? (fun p => p.1 == h) = some (h, s.grp h) → (s.grp h).launch = f.launch →
    (s.grp h).st ≠ .exited → (s.grp h).st ≠ .unplaced →
    (s.settleTraps.grp h).st = .killed ∧ ∀ k, (s.settleTraps.split h k).regs = (s.split h k).regs) ∧
  (∀ (s : State) (f : Dying) (l : Launch), f ∈ s.trapsDue → s.launch f.launch = some l → f.launch < s.nextLaunch →
    (∃ m, s.settleTraps.launch f.launch = some m ∧ m.killed = true) ∧ ∀ q ∈ s.settleTraps.placeQ, q.launch ≠ f.launch) ∧
  (∀ (s : State) (d : RingDesc), s.ringDescs.find 0 = some d →
    ∃ more, s.settleTraps.reports.get [] 0 = s.reports.get [] 0 ++ s.trapsDue.map (fun f => (none, f.body)) ++ more) ∧
  (∀ (s : State) (clocks ns : Nat), 0 < clocks → (s.elapse clocks ns).fatals = []) ∧
  (∀ (s : State) (k : Nat) (cause : BitVec 8) (info : W64),
    ((s.serviceTrap k cause info).svc k).scause = cause.setWidth 64 ∧ ((s.serviceTrap k cause info).svc k).sepc = (s.svc k).pc ∧
    ((s.serviceTrap k cause info).svc k).sinfo = info ∧ ((s.serviceTrap k cause info).svc k).regs = (s.svc k).regs ∧
    ((s.svc k).stvec ≠ 0 → ((s.serviceTrap k cause info).svc k).pc = (s.svc k).stvec ∧
      ((s.serviceTrap k cause info).svc k).halted = (s.svc k).halted) ∧
    ((s.svc k).stvec = 0 → ((s.serviceTrap k cause info).svc k).halted = true))

namespace Sys2Proof.Machine

/-- The pending set of a group's sector. -/
def State.pendingSet (s : State) (g : Nat) : List Nat := ((s.core (s.grp g).core).sectors.get Sector.empty (s.grp g).sector).pending

/-- R164, R165: NOP goes on; YIELD goes on while no other group of its sector is ready, and otherwise leaves the active set, Pending and ready behind the
ready groups of the pending set and ahead of those that wait; YIELDP goes on while its launch has no pending request, and otherwise stops, a group with one live split going on to be saved. -/
def yieldsGoOn : Prop :=
  (∀ (s : State), s.issues [] → exec .nop s = .next (s.jumpTo (s.pc + 4))) ∧
  (∀ (s : State) (g sp : Nat), s.ready g sp [] → (s.otherReady g = false → exec .yield s = .next (s.jumpTo (s.pc + 4))) ∧
    (s.otherReady g = true → ∃ t, exec .yield s = .next t ∧ (t.grp g).st = .pending ∧ (t.grp g).ready = true ∧ (t.split g sp).spc = s.pc + 4 ∧
      g ∉ (((t.core (s.grp g).core).sectors.get Sector.empty (s.grp g).sector).active) ∧
      t.pendingSet g = (s.pendingSet g).filter (fun h => h != g && (s.grp h).ready) ++ [g] ++
        (s.pendingSet g).filter (fun h => h != g && !(s.grp h).ready))) ∧
  (∀ (a b : BitVec 6) (s : State) (g sp : Nat), s.ready g sp [a, b, b + 1] → b.getLsbD 0 = false →
    s.yieldpOk g (s.sreg a) (s.sreg b) (s.sreg (b + 1)) = true →
    (((s.launch (s.grp g).launch).bind (·.req)) = none → exec (.yieldp a b) s = .next (s.jumpTo (s.pc + 4))) ∧
    (((s.launch (s.grp g).launch).bind (·.req)) ≠ none → (s.grp g).liveSplits = [sp] → (s.grp g).st = .active →
      ∃ t, exec (.yieldp a b) s = .next t ∧ (t.grp g).st = .yielding ∧ (t.grp g).ltm = (s.sreg a).setWidth 8 ∧
        (t.grp g).range1 = s.sreg b ∧ (t.grp g).range2 = s.sreg (b + 1) ∧ (t.split g sp).spc = s.pc))

/-- Event `i` brings the answer `v` of the call at which split `sp` of group `g` waits: register `d` takes it, s0 nothing, the stream goes on at the
next word, and `more` holds of the state. -/
def State.answers (s : State) (g sp : Nat) (i : Instr) (d : Nat) (v : W64) (more : State → Prop) : Prop :=
  ∃ t, exec i s = .next t ∧ (t.split g sp).spc = (s.split g sp).spc + 4 ∧ (t.split g sp).stall = none ∧
    (∀ r, (t.split g sp).regs.get 0 r = if r = d ∧ d ≠ 0 then v else (s.split g sp).regs.get 0 r) ∧ more t

/-- R165, R368, R427, R428: SVC posts its code and argument as a service call and the split waits; the answer, read from the call's ring entry, comes
back in s[B] and the stream goes on past the SVC. CAPSTAN_ANSWER does the same for GLAUNCH, and for GDEC, which lowers its node's counter and answers 0,
or answers 1 at a counter that is 0 and 2 for no node. -/
def callsAnswer : Prop :=
  (∀ (a b : BitVec 6) (s : State) (g sp : Nat), s.ready g sp [a, b] → (s.sreg a).toNat < 2 ^ 32 →
    ∃ t, exec (.svc a b) s = .next t ∧ (t.split g sp).spc = s.pc ∧ (t.split g sp).stall = some (.svc s.nextId b.toNat) ∧
      t.calls.find s.nextId = some { group := g, split := sp, launch := (s.grp g).launch, code := (s.sreg a).setWidth 32, arg := s.sreg b,
                                     entry := none } ∧
      (t.split g sp).regs = (s.split g sp).regs) ∧
  (∀ (s : State) (g sp d : Nat) (v : W64), (s.split g sp).stall = some (.capstan v d) →
    s.answers g sp (.capstanAnswer g sp) d v (fun t => s.onlySplit t g sp)) ∧
  (∀ (s : State) (g sp n d pa : Nat) (c : SvcCall), (s.split g sp).stall = some (.svc n d) → s.calls.find n = some c → c.entry = some pa →
    s.hbmBadIn (pa + 0x10) 16 = false → (s.hbm.read (pa + 0x1F)).getLsbD 7 = true → c.answer = none →
    s.answers g sp (.svcAnswerRelease g sp) d (BitVec.ofNat 64 (s.hbmNat (pa + 0x10) 8)) (fun t => t.calls.find n = none)) ∧
  (∀ (s : State) (g sp n d : Nat) (v : W64) (c : SvcCall), (s.split g sp).stall = some (.svc n d) → s.calls.find n = some c → c.answer = some v →
    s.answers g sp (.svcAnswerRelease g sp) d v (fun t => t.calls.find n = none)) ∧
  (∀ (s : State) (g sp n d r c : Nat) (x : Run) (m : Node), (s.split g sp).stall = some (.gdec n d) → s.runOf g = some r → s.run r = some x →
    s.node x.graph n = some m → (x.nodeSt n).counter = c →
    (c = 0 → s.answers g sp (.capstanAnswer g sp) d 1 (fun t => t.run r = some x)) ∧
    (0 < c → s.answers g sp (.capstanAnswer g sp) d 0 (fun t => 1 < c → ∃ y, t.run r = some y ∧ (y.nodeSt n).counter = c - 1))) ∧
  (∀ (s : State) (g sp n d r : Nat) (x : Run), (s.split g sp).stall = some (.gdec n d) → s.runOf g = some r → s.run r = some x →
    s.node x.graph n = none → s.answers g sp (.capstanAnswer g sp) d 2 (fun t => t.run r = some x))

end Sys2Proof.Machine

/-- R164, R165, R368: yields, service calls and the Capstan's answers. -/
def Obligations.CallsAndYields : Prop := yieldsGoOn ∧ callsAnswer

/-! ## Privilege and the supervisor family -/

namespace Sys2Proof.Machine

/-- The words that only compute cores run (R92, R161, R424). -/
def groupWord (i : Instr) : Option Unit :=
  match i with
  | .lcaddr _ _ | .bexz _ | .bexnz _ | .brx _ _ | .join | .exit | .lrun _ | .lrunr _ _ | .waitf _ | .waitcGld _ | .waitcGst _ | .waitcSpd _
  | .waitcGln _ | .waitcEng _ | .waitcRem _ | .execSet _ | .execGet _ | .execAnd _ | .execAndn _ | .execOr _ | .execNot _ | .execAll
  | .msav _ _ | .mset _ _ | .mcnt _ _ | .mffs _ _ | .sget _ _ _ | .vset _ _ _ | .barInit _ _ _ | .barExpect _ _ _ | .barArrive _ _
  | .barWait _ _ _ | .barTest _ _ _ | .utret | .yield | .yieldp _ _ | .svc _ _ | .copy _ | .copyLbl _ | .copyScl _ | .fill _ | .put _
  | .get _ | .signal _ | .mma _ | .mmaz _ | .mma2 _ | .mma2z _ | .relld _ | .tokToM _ | .tokToV _ | .accz _ | .acclblStore _
  | .acclblLoad _ | .tfset _ | .tfsum _ | .hstart _ _ | .hstop _ | .hpermit _ _ | .gset _ _ | .gclr _ | .gcond _ _ | .glaunch _ _
  | .gdec _ _ | .wbind _ | .wstrip _ | .wpart _ | .wdraw _ | .waccept _ | .wcommit _ | .kvsplice _ | .pfxlk _ | .pfxins _ | .pin _
  | .unpin _ | .rsload _ | .gldesc _ | .glinv _ | .thresh _ => some ()
  | _ => none

/-- The supervisor family (R166). -/
def supervisorWord (i : Instr) : Option Unit :=
  match i with
  | .pteW _ _ | .tlbi _ _ | .fqPop _ _ | .fqRes _ | .fqKill _ | .capCtlLoad _ _ | .capCtlUnload _ _ | .capCtlPlan _ _ | .capCtlStart _ _
  | .capCtlPreempt _ _ | .capCtlKill _ _ | .capCtlStatus _ _ | .capCtlResume _ _ | .sailW _ _ | .coreCtlHalt _ _ | .coreCtlResume _ _
  | .coreCtlReset _ _ => some ()
  | _ => none

end Sys2Proof.Machine

/-- R92, R166: PRIVILEGE. A word that only compute cores run is the illegal-instruction trap on a service core, and a supervisor word is the
illegal-instruction trap on a compute core. -/
def Obligations.Privilege : Prop :=
  (∀ (i : Instr) (s : State) (k : Nat), groupWord i = some () → s.cur = .service k → exec i s = .next (s.serviceTrap k 0x10 0)) ∧
  (∀ (i : Instr) (s : State) (g sp : Nat), supervisorWord i = some () → s.ready g sp [] →
    exec i s = .next (s.fatal g 0x10 (s.split g sp).spc 0 0 sp))

namespace Sys2Proof.Machine

/-- R166, R237, R226: PTE.W writes the 8 bytes of s[B] at physical address s[A], a multiple of 8 inside HBM; TLBI takes the entries that map s[A] out of
one core's TLB, or out of every TLB; any other operand changes only SERR. -/
def tableWrites : Prop :=
  ∀ (a b : BitVec 6) (s : State) (k : Nat), s.cur = .service k →
    ((s.sreg a).toNat % 8 = 0 → (s.sreg a).toNat + 8 ≤ 0x6000000000 →
      exec (.pteW a b) s = .next ((s.hbmWrite none (s.sreg a).toNat (leBytes 8 (s.sreg b).toNat)).jumpTo (s.pc + 4))) ∧
    (((s.sreg a).toNat % 8 ≠ 0 ∨ 0x6000000000 < (s.sreg a).toNat + 8) →
      exec (.pteW a b) s = .next ((s.setSvc k { s.svc k with serr := 0x101 }).jumpTo (s.pc + 4))) ∧
    ((s.sreg b).toNat < 192 →
      exec (.tlbi a b) s = .next ((s.modCore (s.sreg b).toNat (fun c => { c with
        tlb := c.tlb.filter (fun e => !e.maps (s.sreg a)) })).jumpTo (s.pc + 4))) ∧
    (s.sreg b = 0xFFFF → ∃ t, exec (.tlbi a b) s = .next t ∧ (∀ c, ∀ e ∈ (t.core c).tlb, e.maps (s.sreg a) = false) ∧
      (∀ e ∈ t.ioTlb, e.maps (s.sreg a) = false) ∧ s.sameBytes t) ∧
    (192 ≤ (s.sreg b).toNat → s.sreg b ≠ 0xFFFF →
      exec (.tlbi a b) s = .next ((s.setSvc k { s.svc k with serr := 0x102 }).jumpTo (s.pc + 4)))

/-- R166, R235, R236: FQ.POP moves the oldest entry's 32 bytes to s[A] and says 1, or says 0 of an empty queue; FQ.RES resolves an unresolved live record
by its sequence number; FQ.KILL of a group's record is fatal to the group, with cause 0x1A; a number that names no such record changes only
SERR. -/
def faultQueueRequests : Prop :=
  (∀ (a b : BitVec 6) (s : State) (k : Nat), s.cur = .service k → s.oldest = none →
    exec (.fqPop a b) s = .next ((s.setSreg b 0).jumpTo (s.pc + 4))) ∧
  (∀ (a b : BitVec 6) (s u : State) (k : Nat) (r : FRec), s.cur = .service k → s.oldest = some r → s.hbmBadIn (s.fqSlot r.seq) 32 = false →
    s.writeVirt none none (s.sreg a) (s.hbmRead (s.fqSlot r.seq) 32) = (u, .ok ()) →
    exec (.fqPop a b) s = .next (((u.popEntry r.id).setSreg b 1).advance)) ∧
  (∀ (a : BitVec 6) (s : State) (k : Nat) (r : FRec), s.cur = .service k → s.liveRecord (s.sreg a) = some r →
    ∃ t, exec (.fqRes a) s = .next t ∧ (∀ q ∈ t.frecs, q.id = r.id → q.resolved = true) ∧ t.frecs.length = s.frecs.length ∧ s.sameBytes t) ∧
  (∀ (a : BitVec 6) (s : State) (k g : Nat) (r : FRec), s.cur = .service k → s.liveRecord (s.sreg a) = some r → s.ownerGroup r.owner = some g →
    exec (.fqKill a) s = .next ((s.fatal g 0x1A r.addr r.lanes r.seq (r.split + if r.kind = 5 ∨ r.kind = 6 then 16 else 0)).advance)) ∧
  (∀ (a : BitVec 6) (s : State) (k : Nat) (r : FRec) (m : FleetAccess), s.cur = .service k → s.liveRecord (s.sreg a) = some r →
    r.owner = .remote m → ∃ t, exec (.fqKill a) s = .next t ∧ (∀ q ∈ t.frecs, q.id ≠ r.id) ∧ t.fatals = s.fatals ∧
      t.fleetOut = s.fleetOut ++ [{ device := m.source, message := m.message, msg := .killed m.va r.seq }] ∧ s.sameBytes t) ∧
  (∀ (a : BitVec 6) (s : State) (k : Nat), s.cur = .service k → s.liveRecord (s.sreg a) = none →
    exec (.fqRes a) s = .next ((s.setSvc k { s.svc k with serr := 0x103 }).jumpTo (s.pc + 4)) ∧
    exec (.fqKill a) s = .next ((s.setSvc k { s.svc k with serr := 0x103 }).jumpTo (s.pc + 4)))

end Sys2Proof.Machine

/-- R166, R226, R236: the service's writes of table entries and its requests to the fault queue. -/
def Obligations.TablesAndFaults : Prop := tableWrites ∧ faultQueueRequests

namespace Sys2Proof.Machine

/-- The CORE.CTL rows, whose command stands in s[B] (R166). -/
def coreCtlOf (i : Instr) : Option (BitVec 6 × BitVec 6) :=
  match i with
  | .coreCtlHalt a b | .coreCtlResume a b | .coreCtlReset a b => some (a, b)
  | _ => none

end Sys2Proof.Machine

/-- R166, R352: CORE.CTL halts (0), resumes (1) or resets (2) core s[A], or every core for 0xFFFF; SAIL.W puts the entry that stands at s[B] into the
sail plan with no skips; an operand out of range, or an image that R352 does not allow, changes only SERR (log 26: what a reset of a core keeps). -/
def Obligations.CoreControl : Prop :=
  (∀ (i : Instr) (a b : BitVec 6) (s : State) (k : Nat), coreCtlOf i = some (a, b) → s.cur = .service k →
    ((s.sreg a).toNat < 192 → (s.sreg b).toNat ≤ 1 → exec i s = .next ((s.modCore (s.sreg a).toNat (fun c => { c with
      halted := decide (s.sreg b = 0) })).jumpTo (s.pc + 4))) ∧
    ((s.sreg a).toNat < 192 → s.sreg b = 2 → ∃ t, exec i s = .next t ∧ (t.core (s.sreg a).toNat).cycle = 0 ∧
      (∀ n, t.bar (s.sreg a).toNat n = Barrier.reset) ∧ (∀ x, (t.hal (s.sreg a).toNat x).running = false) ∧
      (t.core (s.sreg a).toNat).spad = (s.core (s.sreg a).toNat).spad ∧ (∀ c, c ≠ (s.sreg a).toNat → t.core c = s.core c)) ∧
    (s.sreg a = 0xFFFF → (s.sreg b).toNat ≤ 1 → ∃ t, exec i s = .next t ∧ (∀ c, c < 192 → (t.core c).halted = decide (s.sreg b = 0)) ∧
      s.sameBytes t) ∧
    (s.sreg a = 0xFFFF → s.sreg b = 2 → ∃ t, exec i s = .next t ∧ (∀ c, c < 192 → (t.core c).cycle = 0 ∧ (∀ n, t.bar c n = Barrier.reset) ∧
      (∀ x, (t.hal c x).running = false) ∧ (t.core c).spad = (s.core c).spad) ∧ s.sameBytes t) ∧
    (2 < (s.sreg b).toNat ∨ (192 ≤ (s.sreg a).toNat ∧ s.sreg a ≠ 0xFFFF) →
      exec i s = .next ((s.setSvc k { s.svc k with serr := 0x106 }).jumpTo (s.pc + 4)))) ∧
  (∀ (a b : BitVec 6) (s u : State) (k : Nat) (bs : List Byte) (e : SailEntry), s.cur = .service k → (s.sreg a).toNat < 4096 →
    s.readVirt none { r := true } (s.sreg b) 32 = (u, .ok bs) → sailOf bs u.time = some e →
    ∃ t x, exec (.sailW a b) s = .next t ∧ t.sail.find (s.sreg a).toNat = some x ∧ x.offset = e.offset ∧ x.graph = e.graph ∧
      x.stream = e.stream ∧ x.valid = e.valid ∧ x.policy = e.policy ∧ x.prio = e.prio ∧ x.deadline = e.deadline ∧ x.noarg = e.noarg ∧ x.arg = e.arg ∧ x.skips = 0) ∧
  (∀ (a b : BitVec 6) (s : State) (k : Nat), s.cur = .service k → 4095 < (s.sreg a).toNat →
    exec (.sailW a b) s = .next ((s.setSvc k { s.svc k with serr := 0x105 }).jumpTo (s.pc + 4))) ∧
  (∀ (a b : BitVec 6) (s u : State) (k : Nat) (bs : List Byte), s.cur = .service k → (s.sreg a).toNat < 4096 →
    s.readVirt none { r := true } (s.sreg b) 32 = (u, .ok bs) → sailOf bs u.time = none →
    exec (.sailW a b) s = .next ((u.setSvc k { u.svc k with serr := 0x105 }).jumpTo (s.pc + 4))) ∧
  (∀ (bs : List Byte) (now : Nat), sailOf bs now = none ↔ 63 < numAt bs 0x0A 1 ∨ numAt bs 0x0B 1 / 16 % 4 = 3 ∨ numAt bs 0x0B 1 / 8 % 2 = 1 ∨
    numAt bs 0x1C 4 ≠ 0)

namespace Sys2Proof.Machine

/-- The CAP.CTL rows, whose code stands in s[A] (R369). -/
def capCtlOf (i : Instr) : Option (BitVec 6 × BitVec 6) :=
  match i with
  | .capCtlLoad a b | .capCtlUnload a b | .capCtlPlan a b | .capCtlStart a b | .capCtlPreempt a b | .capCtlKill a b | .capCtlStatus a b
  | .capCtlResume a b => some (a, b)
  | _ => none

/-- R369: CAP.CTL reads the 64-byte request block at s[B], performs the request of its code, writes its answer and RESULT into the block, and goes on;
a code above 7 or a block that is not 8-byte aligned changes only SERR. -/
def capRequestRuns : Prop :=
  ∀ (i : Instr) (a b : BitVec 6) (s u v : State) (k : Nat) (bs : List Byte) (r : CapAnswer), capCtlOf i = some (a, b) → s.cur = .service k →
    ((s.sreg a).toNat < 8 → (s.sreg b).toNat % 8 = 0 → s.readVirt none { r := true } (s.sreg b) 64 = (u, .ok bs) →
      r = capRequest (s.sreg a).toNat u (fun j => BitVec.ofNat 64 (numAt bs (8 * j) 8)) →
      r.s.writeWords (s.sreg b) (r.words ++ [(0x38, BitVec.ofNat 64 r.result)]) = (v, .ok ()) → exec i s = .next v.advance) ∧
    (8 ≤ (s.sreg a).toNat ∨ (s.sreg b).toNat % 8 ≠ 0 →
      exec i s = .next ((s.setSvc k { s.svc k with serr := 0x104 }).jumpTo (s.pc + 4)))

/-- R349 to R352, R369: what the requests do. START of a loaded graph on an idle stream, with the graph idle too, makes a run of it; KILL ends a run that
had not ended; STATUS tells a run's state and how many of its nodes have completed; UNLOAD takes out a graph
that no run is running on or held for; PLAN sets the period and the epoch from the next core clock on; LOAD stores a graph under an id that was free, or says
why its image is refused, or that there is no room; RESUME and PREEMPT of a run in a state that they do not allow, and a request about no run, change nothing
and say so. -/
def capRequestEffects : Prop :=
  ∀ (s : State) (b : Nat → W64),
    ((s.graphs.find (b 0).toNat).isSome = true → (b 1).toNat ≤ 63 → (b 2).toNat ≤ 7 → b 5 = 0 → s.streamBusy (b 1).toNat = false →
      s.graphBusy (b 0).toNat = false → ∃ x, (capRequest 3 s b).result = 0 ∧
        (0x20, BitVec.ofNat 64 s.nextRun) ∈ (capRequest 3 s b).words ∧ (capRequest 3 s b).s.run s.nextRun = some x ∧
        x.graph = (b 0).toNat ∧ x.stream = (b 1).toNat ∧ x.prio = (b 2).toNat ∧ x.arg = some (b 3)) ∧
    (∀ x, s.run (b 0).toNat = some x →
      (x.st ≠ .ended → (capRequest 5 s b).result = 0 ∧ ∃ y, (capRequest 5 s b).s.run (b 0).toNat = some y ∧ y.st = .ended) ∧
      (x.st = .ended → (capRequest 5 s b).result = 8 ∧ (capRequest 5 s b).s = s ∧ (capRequest 4 s b).result = 8 ∧ (capRequest 4 s b).s = s) ∧
      (x.st ≠ .suspended → (capRequest 7 s b).result = 6 ∧ (capRequest 7 s b).s = s) ∧ (x.st = .suspended → (capRequest 7 s b).result = 0) ∧
      (x.st = .held ∨ x.st = .suspended → (capRequest 4 s b).result = 9 ∧ (capRequest 4 s b).s = s) ∧
      (x.st = .running ∨ x.st = .saving → (capRequest 4 s b).result = 0) ∧
      (capRequest 6 s b).s = s ∧ (capRequest 6 s b).words = [(0x08, BitVec.ofNat 64 (match x.st with
        | .held => 0
        | .running => 1
        | .saving => 2
        | .suspended => 3
        | .ended => 4)), (0x10, BitVec.ofNat 64 x.completed)]) ∧
    ((s.graphs.find (b 0).toNat).isSome = true → (∀ p ∈ s.runs, p.2.graph = (b 0).toNat → p.2.st = .ended ∨ p.2.st = .suspended) →
      (capRequest 1 s b).result = 0 ∧ (capRequest 1 s b).s.graphs.find (b 0).toNat = none) ∧
    ((s.graphs.find (b 0).toNat).isSome = true → (∃ p ∈ s.runs, p.2.graph = (b 0).toNat ∧ p.2.st ∈ [.held, .running, .saving]) →
      (capRequest 1 s b).result = 3 ∧ (capRequest 1 s b).s = s) ∧
    (s.graphs.find (b 0).toNat = none → (capRequest 1 s b).result = 7 ∧ (capRequest 1 s b).s = s) ∧
    (s.run (b 0).toNat = none → ∀ c ∈ [4, 5, 6, 7], (capRequest c s b).result = 5 ∧ (capRequest c s b).s = s) ∧
    (∀ t n, s.readGraph (b 0) = (t, .refused n) → (capRequest 0 s b).result = 1 ∧ (capRequest 0 s b).words = [(0x10, BitVec.ofNat 64 n)] ∧
      (capRequest 0 s b).s = t ∧ t.graphs = s.graphs) ∧
    (∀ t g bs, s.readGraph (b 0) = (t, .ok g bs) → (t.graphRoom g = false → (capRequest 0 s b).result = 2 ∧ (capRequest 0 s b).s = t) ∧
      (t.graphRoom g = true → ∃ n, (capRequest 0 s b).result = 0 ∧ (capRequest 0 s b).words = [(0x08, BitVec.ofNat 64 n)] ∧
        t.graphs.find n = none ∧ (capRequest 0 s b).s.graphs.find n = some g)) ∧
    (1000 ≤ (b 0).toNat → (b 0).toNat ≤ 10000000000 → (capRequest 2 s b).result = 0 ∧
      (capRequest 2 s b).s.sailPeriod = s.sailPeriod ∧ (∀ clocks ns, 0 < clocks →
        ((capRequest 2 s b).s.elapse clocks ns).sailPeriod = (b 0).toNat ∧ ((capRequest 2 s b).s.elapse clocks ns).sailEpoch = (b 1).toNat)) ∧
    ((b 0).toNat < 1000 ∨ 10000000000 < (b 0).toNat → (capRequest 2 s b).result = 4 ∧ (capRequest 2 s b).s = s)

end Sys2Proof.Machine

/-- R369: CAP.CTL and what its requests do (log 78: UNLOAD of a graph whose runs have all ended or are suspended answers 0, and one with a run that is saving is refused). -/
def Obligations.CapstanControl : Prop := capRequestRuns ∧ capRequestEffects

/-! ## Guards, the Halyard's scalar side, the Capstan -/

namespace Sys2Proof.Machine

/-- R371, R373: GSET resolves a guard slot to true or false, GCLR makes one that no queued command names unresolved again and otherwise waits, a slot above 15 is an illegal instruction for both, HSTOP stops a context of the
group, once an hl.str that has pushed some of its entries is done, or leaves an idle one alone, and HPERMIT sets how many commands of a queue a context may have out. -/
def guardsAndPermits : Prop :=
  (∀ (a b : BitVec 6) (s : State) (g sp : Nat), s.ready g sp [a, b] → (s.sreg a).toNat < 16 →
    exec (.gset a b) s = .next ((s.modGrp g (fun x => { x with
      guards := x.guards.put (s.sreg a).toNat (if s.sreg b = 0 then .false else .true) })).jumpTo (s.pc + 4))) ∧
  (∀ (a : BitVec 6) (s : State) (g sp : Nat), s.ready g sp [a] → (s.sreg a).toNat < 16 → s.slotNamed g (s.sreg a).toNat = false →
    exec (.gclr a) s = .next ((s.modGrp g (fun x => { x with
      guards := x.guards.put (s.sreg a).toNat .unresolved })).jumpTo (s.pc + 4))) ∧
  (∀ (a b : BitVec 6) (s : State) (g sp : Nat), s.ready g sp [a, b] → 15 < (s.sreg a).toNat → ∀ i ∈ [Instr.gset a b, .gclr a],
    exec i s = .next (s.fatal g 0x10 (s.split g sp).spc 0 0 sp)) ∧
  (∀ (a : BitVec 6) (s : State) (g sp : Nat), s.ready g sp [a] → (s.sreg a).toNat < 16 → s.slotNamed g (s.sreg a).toNat = true →
    exec (.gclr a) s = .next (s.modSplit g sp (fun p => { p with stall := some (.gclr (s.sreg a).toNat) }))) ∧
  (∀ (a : BitVec 6) (s : State) (g sp : Nat), s.ready g sp [a] → (s.sreg a).toNat < 8 →
    (s.hal (s.grp g).core (s.sreg a).toNat).running = true → (s.hal (s.grp g).core (s.sreg a).toNat).owner = g →
    exec (.hstop a) s = .next (if (s.hal (s.grp g).core (s.sreg a).toNat).pushed = 0 then
      (s.setHal (s.grp g).core (s.sreg a).toNat { s.hal (s.grp g).core (s.sreg a).toNat with
        running := false
        parked := false }).jumpTo (s.pc + 4)
      else s.modSplit g sp (fun p => { p with stall := some .held }))) ∧
  (∀ (a : BitVec 6) (s : State) (g sp : Nat), s.ready g sp [a] → (s.sreg a).toNat < 8 →
    (s.hal (s.grp g).core (s.sreg a).toNat).running = false → exec (.hstop a) s = .next (s.jumpTo (s.pc + 4))) ∧
  (∀ (a b : BitVec 6) (s : State) (g sp c q : Nat), s.ready g sp [a, b] → c < 8 → q < 4 → s.sreg a = BitVec.ofNat 64 (c + 256 * q) →
    (s.sreg b).toNat ≤ 64 → ((s.hal (s.grp g).core c).running = true → (s.hal (s.grp g).core c).owner = g) →
    exec (.hpermit a b) s = .next ((s.setHal (s.grp g).core c { s.hal (s.grp g).core c with
      grants := (s.hal (s.grp g).core c).grants.put q (s.sreg b).toNat }).jumpTo (s.pc + 4)))

/-- R373: HSTART starts an idle context at HCB + offset × 8 with h0 to h3 from s[B] to s[B+3] and guard 31, for the group that issues it; a context that
another group runs holds the split, and one that the group itself runs is an illegal instruction. -/
def hstartStarts : Prop :=
  ∀ (a b : BitVec 6) (s : State) (g sp c o : Nat), s.ready g sp [a, b, b + 1, b + 2, b + 3] → b.toNat % 4 = 0 → c < 8 → o < 2 ^ 24 →
    s.sreg a = BitVec.ofNat 64 (c + 256 * o) →
    ((s.hal (s.grp g).core c).running = false → ∃ t, exec (.hstart a b) s = .next t ∧ (t.split g sp).spc = s.pc + 4 ∧
      (t.hal (s.grp g).core c).running = true ∧ (t.hal (s.grp g).core c).owner = g ∧
      (t.hal (s.grp g).core c).pc = (s.grp g).desc.hcb + BitVec.ofNat 64 o * 8 ∧ (t.hal (s.grp g).core c).guard = 31 ∧
      (∀ r : Nat, r < 4 → (t.hal (s.grp g).core c).h.get 0 r = s.sreg (b + BitVec.ofNat 6 r)) ∧
      (∀ x, x ≠ c → t.hal (s.grp g).core x = s.hal (s.grp g).core x) ∧ s.sameBytes t) ∧
    ((s.hal (s.grp g).core c).running = true → (s.hal (s.grp g).core c).owner ≠ g →
      exec (.hstart a b) s = .next (s.modSplit g sp (fun p => { p with stall := some (.hstart c) }))) ∧
    ((s.hal (s.grp g).core c).running = true → (s.hal (s.grp g).core c).owner = g →
      exec (.hstart a b) s = .next (s.fatal g 0x10 (s.split g sp).spc 0 0 sp))

end Sys2Proof.Machine

/-- R371, R373: guards, permits and the Halyard's contexts. -/
def Obligations.GuardsAndContexts : Prop := guardsAndPermits ∧ hstartStarts

/-- R368: GCOND stores s[B] at s[A], a multiple of 8, as an STS does, once what its release covers is performed; GLAUNCH has the Capstan start a run, and
the split waits with the answer on its way, the run's number, or 2^63 and the reason; GDEC goes to the Capstan, and the split waits for its answer (what it
answers, the statement of CAPSTAN_ANSWER says). While what the release covers is not performed, each of them waits. -/
def Obligations.GraphInstructions : Prop :=
  (∀ (a b : BitVec 6) (s u : State) (g sp pa : Nat), s.ready g sp [a, b] → s.relFenced g sp = true → s.scalarHeld g sp = false →
    (s.sreg a).toNat % 8 = 0 → (s.fresh.2).translate (some (s.grp g).core) (doubleword (s.sreg a)) { w := true } = (u, .ok pa) →
    exec (.gcond a b) s = .next ((u.modGrp g (fun z => { z with
      acc := z.acc ++ [scalarAccess s.nextId sp (s.split g sp).life .sts (doubleword (s.sreg a)) pa 0 (s.sreg b) 0 s.pc] })).jumpTo (s.pc + 4))) ∧
  (∀ (a b : BitVec 6) (s : State) (g sp : Nat), s.ready g sp [a, b] → s.relFenced g sp = true → (s.sreg a).toNat < 2 ^ 20 →
    (s.graphs.find ((s.sreg a).toNat % 256) = none → ∃ t, exec (.glaunch a b) s = .next t ∧ (t.split g sp).spc = s.pc ∧
      (t.split g sp).stall = some (.capstan 0x8000000000000001 b.toNat)) ∧
    ((s.graphs.find ((s.sreg a).toNat % 256)).isSome = true → s.streamBusy ((s.sreg a).toNat / 256 % 64) = false →
      s.graphBusy ((s.sreg a).toNat % 256) = false → ∃ t x, exec (.glaunch a b) s = .next t ∧ (t.split g sp).spc = s.pc ∧
        (t.split g sp).stall = some (.capstan ((BitVec.ofNat 32 s.nextRun).setWidth 64) b.toNat) ∧ t.run s.nextRun = some x ∧
        x.graph = (s.sreg a).toNat % 256 ∧ x.stream = (s.sreg a).toNat / 256 % 64 ∧ x.prio = (s.sreg a).toNat / 65536 % 8)) ∧
  (∀ (a b : BitVec 6) (s : State) (g sp : Nat), s.ready g sp [a, b] → s.relFenced g sp = true →
    exec (.gdec a b) s = .next (s.modSplit g sp (fun p => { p with stall := some (.gdec (s.sreg a).toNat b.toNat) }))) ∧
  (∀ (i : Instr) (a b : BitVec 6) (s : State) (g sp : Nat), i ∈ [Instr.gcond a b, .glaunch a b, .gdec a b] → s.ready g sp [a, b] →
    (i = .gcond a b → (s.sreg a).toNat % 8 = 0) → (i = .glaunch a b → (s.sreg a).toNat < 2 ^ 20) → s.relFenced g sp = false →
    exec i s = .next (s.modSplit g sp (fun p => { p with stall := some .fence })))

/-! ## Engine commands -/

namespace Sys2Proof.Machine

/-- The engine commands as their rows fix them: the queue, the counter, the widest scope and the registers read (R323, R335, R411, R422), the checks at
issue, and the lane registers read later. -/
def engineOf (i : Instr) : Option (SeOps × Issue) :=
  match i with
  | .wbind o => some (o, { shape := winnowShape 1, legal := legalWbind o, held := noHeld })
  | .wstrip o => some (o, { shape := winnowShape 1, legal := legalWstrip o, held := noHeld })
  | .wpart o => some (o, { shape := winnowShape 1, legal := legalWpart o, held := noHeld })
  | .wdraw o => some (o, { shape := winnowShape 1, legal := legalWdraw o, held := noHeld })
  | .wcommit o => some (o, { shape := winnowShape 1, legal := legalWcommit o, held := noHeld })
  | .waccept o => some (o, { shape := winnowShape 1, legal := legalWaccept o, held := noHeld })
  | .kvsplice o | .pfxlk o | .pfxins o | .pin o | .unpin o => some (o, { shape := sequenceShape, legal := legalSequence o, held := noHeld })
  | _ =>
    match issueOf i, seOpsOf i with
    | some u, some o => some (o, u)
    | _, _ => none

/-- The queue that each row's commands enter: 0 copy, 1 matrix, 2 Glean, 3 Thresher, 4 Winnow, 5 sequence; and the counter that it counts on: 4 `eng`,
5 `rem` (R232, R323, R339, R341, R343, R390, R411, R422). -/
def engineQueue (i : Instr) : Nat × Nat :=
  match i with
  | .copy _ | .copyLbl _ | .copyScl _ | .fill _ => (0, 4)
  | .put _ | .get _ | .signal _ => (0, 5)
  | .gldesc _ | .glinv _ | .rsload _ => (2, 4)
  | .thresh _ => (3, 4)
  | .wbind _ | .wstrip _ | .wpart _ | .wdraw _ | .wcommit _ | .waccept _ => (4, 4)
  | .kvsplice _ | .pfxlk _ | .pfxins _ | .pin _ | .unpin _ => (5, 4)
  | _ => (1, 4)

/-- The conditions under which a scalar engine command issues: its fields and operands are legal, and it meets neither a full counter, nor a full queue,
nor a lane register that something earlier is still to write; a paired command's follower has room too. -/
def State.engineIssues (s : State) (g sp : Nat) (i : Instr) (o : SeOps) (u : Issue) : Prop :=
  engineOf i = some (o, u) ∧ s.ready g sp (u.shape.regs o) ∧ seLegal o u.shape.maxScope = true ∧ u.legal s g (s.cmdVals u.shape o) = true ∧
  (s.grp g).counter u.shape.ctr ≠ 0xFFFF ∧ (s.queue (s.grp g).core u.shape.queue).length < 16 ∧
  (∀ r ∈ u.held (s.cmdVals u.shape o), s.regAwaited g sp r = false) ∧
  (∀ f, s.pairQueue g i = some f → f ≠ (s.grp g).core ∧ (s.queue f 1).length < 16)

end Sys2Proof.Machine

/-- R323, R324: an engine command that issues stands at the tail of its queue with the values its registers have now, has not started, and is counted on
its group's counter; the scalar stream goes on, and no memory changes. -/
def Obligations.EngineCommandIssues : Prop :=
  ∀ (i : Instr) (o : SeOps) (u : Issue) (s : State) (g sp : Nat), s.engineIssues g sp i o u →
    ∃ t m, exec i s = .next t ∧ t.queue (s.grp g).core (engineQueue i).1 = s.queue (s.grp g).core (engineQueue i).1 ++ [m] ∧
      m.row = i ∧ m.group = g ∧ m.split = sp ∧ m.vals = s.cmdVals u.shape o ∧ m.started = false ∧ m.parked = false ∧ m.addr = s.pc ∧
      (t.grp g).counter (engineQueue i).2 = (s.grp g).counter (engineQueue i).2 + 1 ∧ (t.split g sp).spc = s.pc + 4 ∧
      (∀ r, (t.split g sp).regs.get 0 r = (s.split g sp).regs.get 0 r) ∧ s.sameBytes t

namespace Sys2Proof.Machine

/-- The head command of queue `q` of core `c` is `m`, its row `i` with the fields `o`, and it may go on. -/
def State.engineHead (s : State) (c q : Nat) (i : Instr) (o : SeOps) (m : Cmd) : Prop :=
  s.cur = .engine c q ∧ nextCmd (s.queue c q) = some m ∧ m.row = i ∧ seOpsOf i = some o ∧ (s.grp m.group).core = c ∧ m.parked = false ∧
  m.finished = false

/-- R370, R263, R267: a command that has not started waits while its guard slot is unresolved; a false guard takes it out of its queue without performing it,
and with none of its pops (log 30); with its guard open, a release waits for what it covers. -/
def engineGuards : Prop :=
  ∀ (i : Instr) (o : SeOps) (s : State) (c q : Nat) (m : Cmd), s.engineHead c q i o m → m.started = false →
    (o.g.toNat < 16 → (s.grp m.group).guards.get .unresolved o.g.toNat = .unresolved → exec i s = .next s) ∧
    (o.g.toNat < 16 → (s.grp m.group).guards.get .unresolved o.g.toNat = .false → ∃ t, exec i s = .next t ∧
      (∀ d r, ∀ n ∈ t.queue d r, n.id ≠ m.id) ∧ (∀ x q, (t.grp x).oq.get [] q = (s.grp x).oq.get [] q) ∧ s.sameBytes t) ∧
    (o.g = 31 → o.rel = true → s.relReady m = false → exec i s = .next s)

/-- The command may start its work: its guard is open, and what its release covers is performed. -/
def State.engineOpen (s : State) (o : SeOps) (m : Cmd) : Prop :=
  (m.started = true ∨ o.g = 31 ∨ (o.g.toNat < 16 ∧ (s.grp m.group).guards.get .unresolved o.g.toNat = .true)) ∧
  (m.started = true ∨ o.rel = false ∨ s.relReady m = true)

/-- R264, R338: a command that has done its work completes at the head of its queue: it leaves the queue, and the oldest count of its counter falls; a
command that is not finished does not complete. -/
def engineCommandCompletes : Prop :=
  (∀ (s : State) (c q ctr : Nat) (m : Cmd), s.queueOf c m.id = some (q, m) → m.finished = true → m.parked = false → m.reads = [] →
    m.got = [] →
    (s.grp m.group).inflight = [{ ctr := ctr, id := m.id, returned := false }] → s.barrierOf m = none →
    ∃ t, exec (.engineCommandComplete c m.id) s = .next t ∧ (∀ d r, ∀ n ∈ t.queue d r, n.id ≠ m.id) ∧
      (t.grp m.group).counter ctr = (s.grp m.group).counter ctr - 1 ∧ (t.grp m.group).inflight = [] ∧ s.sameBytes t) ∧
  (∀ (s : State) (c q n : Nat) (m : Cmd), s.queueOf c n = some (q, m) → m.finished = false →
    exec (.engineCommandComplete c n) s = .next s)

end Sys2Proof.Machine

/-- R370, R263, R264: when a command starts, and its completion. -/
def Obligations.EngineOrder : Prop := engineGuards ∧ engineCommandCompletes

/-! ## The Halyard -/

namespace Sys2Proof.Machine

/-- A Halyard word of a running context that no fault parks. -/
def State.halRuns (s : State) (c x : Nat) : Prop := s.cur = .halyard c x ∧ (s.hal c x).running = true ∧ (s.hal c x).parked = false

/-- The words with no field set beside those that a form names (R376). -/
def hlPlain (o : HlOps) : Prop := o.b = 0 ∧ o.x = 0 ∧ o.y = 0

/-- R376: hl.set, hl.loop, hl.next, hl.guard and hl.end change only their context: a register, the guard, its pc; hl.end stops it. -/
def halyardRegisters : Prop :=
  ∀ (o : HlOps) (s : State) (c x : Nat) (h : HalCtx), s.halRuns c x → s.hal c x = h →
    (hlPlain o → exec (.hlSet o) s = .next (s.setHal c x { h with
      h := h.h.put o.d.toNat (h.h.get 0 o.a.toNat + o.imm.signExtend 64)
      pc := h.pc + 8 })) ∧
    (o.b = 0 → o.x = 1 → o.y = 0 → o.a = 0 → exec (.hlSet o) s = .next (s.setHal c x { h with
      h := h.h.put o.d.toNat (o.imm.signExtend 64)
      pc := h.pc + 8 })) ∧
    (hlPlain o → exec (.hlLoop o) s = .next (s.setHal c x { h with
      h := h.h.put o.d.toNat 0
      pc := if o.a = o.d ∨ h.h.get 0 o.a.toNat = 0 then h.pc + o.imm.signExtend 64 * 8 else h.pc + 8 })) ∧
    (hlPlain o → exec (.hlNext o) s = .next (s.setHal c x { h with
      h := h.h.put o.d.toNat (h.h.get 0 o.d.toNat + 1)
      pc := if (h.h.get 0 o.d.toNat + 1).toNat < (if o.a = o.d then h.h.get 0 o.d.toNat + 1 else h.h.get 0 o.a.toNat).toNat then
          h.pc + o.imm.signExtend 64 * 8
        else h.pc + 8 })) ∧
    (o.d = 0 → o.a = 0 → o.b = 0 → o.x.toNat < 16 ∨ o.x.toNat = 31 → o.y = 0 → o.imm = 0 →
      exec (.hlGuard o) s = .next (s.setHal c x { h with
        guard := o.x.toNat
        pc := h.pc + 8 })) ∧
    (hlPlain o → o.d = 0 → o.a = 0 → o.imm = 0 → exec (.hlEnd o) s = .next (s.setHal c x { h with running := false }))

/-- R376, R377: hl.str pushes its entries, affine registers, into an operand queue of the owning group, as many as fit, and
waits at the full queue with the rest; hl.guard.res resolves a guard slot
of the owning group by h[A]; hl.bar.expect and hl.bar.arrive act on a named barrier as BAR.EXPECT and BAR.ARRIVE do; hl.emit puts the command of
its template into its queue as the group would. -/
def halyardActs : Prop :=
  ∀ (o : HlOps) (s : State) (c x : Nat) (h : HalCtx), s.halRuns c x → s.hal c x = h →
    (∀ q, q < 8 → o.d = 0 → o.x.toNat = q → o.y = 0 → (s.grp h.owner).desc.qmap.getLsbD q = true →
      ∀ n, n = min (16 - ((s.grp h.owner).oq.get [] q).length) (o.imm.toNat - h.pushed) → ∃ t, exec (.hlStr o) s = .next t ∧
        (t.grp h.owner).oq.get [] q = (s.grp h.owner).oq.get [] q ++ (List.range n).map (fun i =>
          .a ((h.h.get 0 o.a.toNat).extractLsb' 0 32 + BitVec.ofNat 32 (h.pushed + i) * (h.h.get 0 o.b.toNat).extractLsb' 0 32)
            ((h.h.get 0 o.a.toNat).extractLsb' 32 32)) ∧
        t.hal c x = if h.pushed + n < o.imm.toNat then { h with pushed := h.pushed + n } else { h with pushed := 0, pc := h.pc + 8 }) ∧
    (o.d = 0 → o.b = 0 → o.x.toNat < 16 → o.y = 1 → o.imm = 0 → ∃ t, exec (.hlGuardRes o) s = .next t ∧
      (∀ k, (t.grp h.owner).guards.get .unresolved k = if k = o.x.toNat then (if h.h.get 0 o.a.toNat = 0 then .false else .true)
        else (s.grp h.owner).guards.get .unresolved k) ∧ (t.hal c x).pc = h.pc + 8) ∧
    (∀ k, o.d = 0 → o.b = 0 → o.imm = 0 → o.x.toNat < 128 → o.y.toNat < 2 → k = (s.grp h.owner).barCore (o.y.toNat + 1) →
      exec (.hlBarExpect o) s = .next ((s.expectBytes k o.x.toNat ((h.h.get 0 o.a.toNat).setWidth 32)).setHal c x { h with pc := h.pc + 8 })) ∧
    (∀ k, o.d = 0 → o.a = 0 → o.b = 0 → o.imm = 0 → o.x.toNat < 128 → o.y.toNat / 2 = 1 → k = (s.grp h.owner).barCore (o.y.toNat % 2 + 1) →
      s.halReleased c x h = true →
      exec (.hlBarArrive o) s = .next ((s.arrive k o.x.toNat).setHal c x { h with pc := h.pc + 8 })) ∧
    (∀ (u : State) (bs : List Byte) (row : Instr) (i : Issue) (e : SeOps), o.imm = 0 → o.x = 0 → o.y = 0 → o.b = 0 → o.d = 0 →
      (h.h.get 0 o.a.toNat).toNat % 64 = 0 →
      s.readVirt (some c) { r := true } (h.h.get 0 o.a.toNat) 64 = (u, .ok bs) →
      templateOk bs = true → (decodeScalar (templateWord bs h.guard)).toOption = some row → issueOf row = some i → seOpsOf row = some e →
      seLegal e i.shape.maxScope = true → i.legal u h.owner ((List.range 6).map (fun k => BitVec.ofNat 64 (numAt bs (0x10 + 8 * k) 8))) = true →
      (∀ m ∈ u.emitted c x h, acqOf m.row = false) → u.permitsUsed c x i.shape.queue < h.grants.get 64 i.shape.queue →
      (u.grp h.owner).counter i.shape.ctr ≠ 0xFFFF → (u.queue c i.shape.queue).length < 16 →
      (∀ r ∈ i.held ((List.range 6).map (fun k => BitVec.ofNat 64 (numAt bs (0x10 + 8 * k) 8))), u.regAwaited h.owner h.split r = false) →
      u.pairQueue h.owner row = none → (u.grp h.owner).core = c →
      ∃ t m, exec (.hlEmit o) s = .next t ∧ t.queue c i.shape.queue = u.queue c i.shape.queue ++ [m] ∧ m.row = row ∧ m.group = h.owner ∧
        m.ctx = some x ∧ m.vals = (List.range 6).map (fun k => BitVec.ofNat 64 (numAt bs (0x10 + 8 * k) 8)) ∧
        m.pops.toNat = numAt bs 4 1 ∧ (t.hal c x).pc = h.pc + 8)

/-- R375: a Halyard word with a field set that must be zero ends its group's launch as an illegal instruction at the word's address, with the context's
number. -/
def halyardIllegal : Prop :=
  ∀ (o : HlOps) (s : State) (c x : Nat), s.halRuns c x → o.y ≠ 0 → ∀ i ∈ [Instr.hlSet o, .hlLoop o, .hlNext o, .hlStr o, .hlEnd o],
    exec i s = .next (s.fatal (s.hal c x).owner 0x10 (s.hal c x).pc 0 (BitVec.ofNat 64 x) 16)

end Sys2Proof.Machine

/-- R375 to R377: the words of the Halyard: those of its registers, those that act outside their context, and the illegal ones. -/
def Obligations.HalyardWords : Prop := halyardRegisters ∧ halyardActs ∧ halyardIllegal

/-! ## What engine commands do -/

namespace Sys2Proof.Machine

/-- A byte of a space that is addressed by bytes. -/
def State.byteAt (s : State) (sp : Space) (a : Nat) : Byte :=
  match sp with
  | .hbm => s.hbm.read a
  | .spad c => (s.core c).spad.read a
  | .tile _ _ => 0

/-- A command has done its work, with so many bytes for its barrier (R338): only its completion is left. -/
def State.cmdDone (t : State) (c q : Nat) (m : Cmd) (bytes : Nat) : Prop :=
  ∃ n ∈ t.queue c q, n.id = m.id ∧ n.finished = true ∧ n.bytes = bytes

/-- The command ends its group's launch with a cause of its own. -/
def State.cmdTraps (s t : State) (m : Cmd) (cause : BitVec 8) : Prop :=
  ∃ f, t.fatals = s.fatals ++ [f] ∧ f.group = m.group ∧ f.prio = causePrio cause

/-- Byte `a` of a space as a command of group `x` of core `c` reaches it (R314, R333, R335): `p`, through the core's TLB, or in a window. -/
def State.reachesAt (s : State) (c : Nat) (x : Group) (space : Nat) (n : Need) (a : Nat) (p : Space × Nat) : Prop :=
  match space with
  | 0 => p.1 = .hbm ∧ s.hits (some c) (BitVec.ofNat 64 (a % 2 ^ 56)) n p.2
  | 1 => p = (.spad x.core, a % 2 ^ 21)
  | _ => p = (.spad (x.coreOf (a % (x.members * 2 ^ 21) / 128 % x.members)),
      a % (x.members * 2 ^ 21) / 128 / x.members * 128 + a % (x.members * 2 ^ 21) % 128)

/-- The bytes that hold the `w`-bit element at bit `b` (R334). -/
def elemBytes (b w : Nat) : List Nat := (List.range ((b + w - 1) / 8 - b / 8 + 1)).map (b / 8 + ·)

/-- The element at bit `b` of bytes `m`, each of them at its place. -/
def elemGet (m : Space → Nat → Byte) (p : Nat → Space × Nat) (b w : Nat) : Nat :=
  leNat ((elemBytes b w).map (fun a => m (p a).1 (p a).2)) / 2 ^ (b % 8) % 2 ^ w

/-- The bytes after the element at bit `b` is written; the other bits of its bytes stay (R334). -/
def elemPut (m : Space → Nat → Byte) (p : Nat → Space × Nat) (b w v : Nat) : Space → Nat → Byte :=
  let old := leNat ((elemBytes b w).map (fun a => m (p a).1 (p a).2))
  let new := leBytes (elemBytes b w).length (old % 2 ^ (b % 8) + 2 ^ (b % 8) * (v % 2 ^ w) + 2 ^ (b % 8 + w) * (old / 2 ^ (b % 8 + w)))
  ((elemBytes b w).zip new).foldl (fun m q sp a => if (sp, a) = p q.1 then q.2 else m sp a) m

/-- One element moved: its bit in the destination, its width there, and its value from the bytes as they stand. -/
structure Move where
  bit : Nat
  width : Nat
  value : (Space → Nat → Byte) → Nat

/-- Elements moved one after the other, each read before it is written (R336). -/
def movesDo (p : Nat → Space × Nat) (l : List Move) (m : Space → Nat → Byte) : Space → Nat → Byte :=
  l.foldl (fun m q => elemPut m p q.bit q.width (q.value m)) m

/-- The exact value of element `n` of a record, times its block's scale (R336). -/
def Layout.valueAt (a : Layout) (p : Nat → Space × Nat) (n : Nat) (m : Space → Nat → Byte) : Num :=
  let y := (elemOf a.fmt).read (elemGet m p (a.bit (a.index n)) a.width)
  if fmtBlock a.fmt = 0 then y else scaled y ((scaleOfFmt a.fmt).read (m (p (a.scaleAt (a.index n))).1 (p (a.scaleAt (a.index n))).2).toNat)

/-- The moves of a COPY into a format without blocks (R336, R297): raw bits between equal formats, else the exact value rounded to nearest even. -/
def copyMoves (a b : Layout) (p : Nat → Space × Nat) : List Move :=
  (List.range a.count).map (fun n =>
    { bit := b.bit (if b.t then swap01 (a.index n) else a.index n)
      width := b.width
      value := fun m => if a.fmt = b.fmt then elemGet m p (a.bit (a.index n)) a.width
        else ((elemOf b.fmt).write .rne false (a.valueAt p n m) 1).1 })

/-- The moves of the labels of a COPY.LBL (R317, R337). -/
def labelMoves (a b : Layout) (p : Nat → Space × Nat) : List Move :=
  (List.range (if a.count = 0 then 0 else a.e a.ldim)).map (fun j =>
    { bit := 8 * b.labelAt j, width := 32, value := fun m => elemGet m p (8 * a.labelAt j) 32 })

/-- The bytes that some moves write. -/
def moveBytes (l : List Move) : List Nat := l.flatMap (fun q => elemBytes q.bit q.width)

/-- Every byte that a record's elements, labels and block scales lie in. -/
def Layout.bytesUsed (a : Layout) (labels : Bool) : List Nat :=
  (List.range a.count).flatMap (fun n => elemBytes (a.bit (a.index n)) a.width ++ (if fmtBlock a.fmt = 0 then [] else [a.scaleAt (a.index n)])) ++
    (if labels then (List.range (a.e a.ldim)).flatMap (fun j => elemBytes (8 * a.labelAt j) 32) else [])

/-- The bytes of a record can be reached at the places `p`, and hold no error. -/
def State.reachesAll (s : State) (c : Nat) (x : Group) (space : Nat) (n : Need) (l : List Nat) (p : Nat → Space × Nat) : Prop :=
  ∀ a ∈ l, s.reachesAt c x space n a (p a) ∧ s.badPlace (p a) 1 = false

/-- The command has its records `bs`, read at its start or kept from it (R325). -/
def State.hasRecs (s u : State) (c : Nat) (m : Cmd) (vas : List W64) (bs : List Byte) : Prop :=
  ({ s with again := m.seen, read := [] } : State).cmdRecs c m vas 128 = (u, .ok bs)

/-- All memories are in their canonical form. -/
def State.canonical (s : State) : Prop := s.hbm.wf = true ∧ ∀ c, (s.core c).spad.wf = true ∧ (s.core c).scale.wf = true

/-- R336 to R338, R317: COPY, COPY.LBL, and PUT and GET on their own device, move the elements that they have not moved yet in element order, and COPY.LBL
then the labels; into one block of a block format the scale is chosen from all of its elements (R298). COPY.SCL fills the scale store, and FILL a slot of the tag table, packed. Each counts its
bytes. Records that break their rules are an illegal instruction of the command. -/
def copyCommands : Prop :=
  (∀ (i : Instr) (o : SeOps) (s u : State) (c q : Nat) (m : Cmd) (bs : List Byte) (a b : Layout) (ps pd : Nat → Space × Nat) (lbl : Bool),
    i ∈ [Instr.copy o, .copyLbl o, .put o, .get o] → (lbl = true ↔ i = .copyLbl o) → s.engineHead c q i o m → s.engineOpen o m →
    s.hasRecs u c m [m.val 0, m.val 1] bs → recPair bs = some (a, b) → s.ownDevice a.dev = true → s.ownDevice b.dev = true → copyOk a b = true →
    (lbl = true → a.l = true ∧ b.l = true ∧ b.ldim = swapDim b.t a.ldim) → u.canonical →
    u.reachesAll c (u.grp m.group) a.space { r := true } (a.bytesUsed lbl) ps →
    u.reachesAll c (u.grp m.group) b.space { w := true }
      (moveBytes (copyMoves a b ps ++ (if lbl then labelMoves a b ps else [])) ++ (if fmtBlock b.fmt = 0 then [] else [b.scaleAt (b.index 0)])) pd →
    (a.fmt = b.fmt ∨ fmtBlock b.fmt = 0 → ∃ t, exec i s = .next t ∧
      t.cmdDone c q m (if i = .copy o ∨ i = .copyLbl o then a.count * b.width / 8 else 0) ∧
      ∀ sp y, t.byteAt sp y = movesDo pd ((copyMoves a b ps ++ (if lbl then labelMoves a b ps else [])).drop m.progress) u.byteAt sp y) ∧
    (a.fmt ≠ b.fmt → fmtBlock b.fmt ≠ 0 → lbl = false → b.t = false → 0 < a.e 0 → a.e 0 ≤ b.sblk → a.e 1 = 1 → a.e 2 = 1 → a.e 3 = 1 → a.e 4 = 1 →
      m.progress = 0 → m.scales = [] → (∀ y ∈ a.bytesUsed false, ps y ≠ pd (b.scaleAt (b.index 0))) →
      ∃ t k, exec i s = .next t ∧ k = blockScale b.fmt ((List.range (a.e 0)).map (fun n => a.valueAt ps n u.byteAt)) ∧
        ∀ sp y, t.byteAt sp y = movesDo pd ((List.range (a.e 0)).map (fun n =>
          { bit := b.bit (b.index n), width := b.width, value := fun g => writeScaled b.fmt (a.valueAt ps n g) ((scaleOfFmt b.fmt).read k) }))
          (fun sp y => if (sp, y) = pd (b.scaleAt (b.index 0)) then BitVec.ofNat 8 k else u.byteAt sp y) sp y)) ∧
  (∀ (i : Instr) (o : SeOps) (s u : State) (c q : Nat) (m : Cmd) (bs : List Byte), i ∈ [Instr.copy o, .copyLbl o, .put o, .get o] →
    s.engineHead c q i o m → s.engineOpen o m → s.hasRecs u c m [m.val 0, m.val 1] bs → (∀ a b, recPair bs = some (a, b) → copyOk a b = false) →
    ∃ t, exec i s = .next t ∧ u.cmdTraps t m 0x10 ∧ u.sameBytes t) ∧
  (∀ (o : SeOps) (s u : State) (c q soff srp per : Nat) (m : Cmd) (bs : List Byte) (a : Layout) (ps : Nat → Space × Nat) (src : Nat → Nat),
    s.engineHead c q (.copyScl o) o m → s.engineOpen o m → s.hasRecs u c m [m.val 0] bs → layoutOf bs = some a → s.ownDevice a.dev = true → a.sc = true →
    m.progress = 0 → soff = (m.val 1).toNat % 4096 → srp = (m.val 1).toNat / 65536 % 4096 → per = (a.e 0 + a.sblk - 1) / a.sblk → srp % 16 = 0 → per ≤ srp →
    (a.rows * per = 0 ∨ soff * 16 + (a.rows - 1) * srp + per ≤ 65536) → u.canonical →
    (∀ n, src n = wrapAddr a.space 1 (a.sbase + (n / per : Nat) * a.sstr + (n % per : Nat))) →
    u.reachesAll c (u.grp m.group) a.space { r := true } ((List.range (a.rows * per)).map src) ps →
    ∃ t, exec (.copyScl o) s = .next t ∧ t.cmdDone c q m (a.rows * per) ∧ u.sameBytes t ∧
      (∀ n, n < a.rows * per → (t.core c).scale.read (soff * 16 + n / per * srp + n % per) = u.byteAt (ps (src n)).1 (ps (src n)).2) ∧
      (∀ y, (∀ n, n < a.rows * per → y ≠ soff * 16 + n / per * srp + n % per) → (t.core c).scale.read y = (u.core c).scale.read y)) ∧
  (∀ (o : SeOps) (s u : State) (c q : Nat) (m : Cmd) (bs : List Byte) (a : Layout) (ps : Nat → Space × Nat),
    s.engineHead c q (.fill o) o m → s.engineOpen o m → s.hasRecs u c m [m.val 0] bs → layoutOf bs = some a → s.ownDevice a.dev = true →
    a.count * a.width / 8 ≤ 2048 → u.canonical → u.reachesAll c (u.grp m.group) a.space { r := true } (a.bytesUsed false) ps →
    ∃ t, exec (.fill o) s = .next t ∧ t.cmdDone c q m (a.count * a.width / 8) ∧
      ∀ sp y, t.byteAt sp y = movesDo (fun y => (.spad c, y % 2 ^ 21)) (((List.range a.count).map (fun n =>
        { bit := (m.val 1).toNat % 1024 * 16384 + n * a.width, width := a.width, value := fun g => elemGet g ps (a.bit (a.index n)) a.width })).drop
          m.progress) u.byteAt sp y)

/-- The number that row `r` of a PUT sends: the elements from the source, packed (R339). -/
def putRowValue (a b : Layout) (p : Nat → Space × Nat) (m : Space → Nat → Byte) (r : Nat) : Nat :=
  (List.range (b.e 0)).foldr (fun k v => elemGet m p (a.bit (if b.t then swap01 (b.index (r * b.e 0 + k)) else b.index (r * b.e 0 + k))) a.width +
    2 ^ a.width * v) 0

/-- R234, R261, R339: between devices. SIGNAL writes its word here, or sends it; a GET asks for every row of its source; a PUT sends messages whose runs hold
its rows, each within 4 KiB of the destination (log 32); the command then waits for the answers. A device that no link reaches is a machine check. -/
def fleetCommands : Prop :=
  (∀ (o : SeOps) (s : State) (c q dev va : Nat) (m : Cmd) (p : Nat → Space × Nat), s.engineHead c q (.signal o) o m → s.engineOpen o m →
    dev = (m.val 0).toNat / 2 ^ 56 → va = (m.val 0).toNat % 2 ^ 56 →
    (s.ownDevice dev = true → s.canonical → s.reachesAll c (s.grp m.group) 0 { w := true } (elemBytes (8 * va) 64) p →
      ∃ t, exec (.signal o) s = .next t ∧ t.cmdDone c q m 0 ∧ ∀ sp y, t.byteAt sp y = elemPut s.byteAt p (8 * va) 64 (m.val 2).toNat sp y) ∧
    (s.ownDevice dev = false → (192 ≤ dev ∧ dev ≤ 254) → ∃ t, exec (.signal o) s = .next t ∧ s.cmdTraps t m 0x10 ∧ s.sameBytes t) ∧
    (s.ownDevice dev = false → ¬ (192 ≤ dev ∧ dev ≤ 254) → s.reaches dev = true → ∃ t, exec (.signal o) s = .next t ∧ t.cmdDone c q m 0 ∧ s.sameBytes t ∧
      t.fleetOut = s.fleetOut ++ [{ device := dev, message := m.id,
                                    msg := .write (BitVec.ofNat 64 va) [(BitVec.ofNat 64 va, leBytes 8 (m.val 2).toNat)] }]) ∧
    (s.ownDevice dev = false → ¬ (192 ≤ dev ∧ dev ≤ 254) → s.reaches dev = false → ∃ t, exec (.signal o) s = .next t ∧ s.cmdTraps t m 0x19)) ∧
  (∀ (o : SeOps) (s u : State) (c q : Nat) (m : Cmd) (bs : List Byte) (a b : Layout), s.engineHead c q (.get o) o m → s.engineOpen o m →
    s.hasRecs u c m [m.val 0, m.val 1] bs → recPair bs = some (a, b) → s.ownDevice a.dev = false → s.ownDevice b.dev = true → a.space = 0 → a.fmt = b.fmt →
    copyOk a b = true →
    (s.reaches a.dev = true → ∃ t, exec (.get o) s = .next t ∧ t.cmdDone c q m 0 ∧ u.sameBytes t ∧
      t.fleetOut = u.fleetOut ++ (List.range (if a.count = 0 then 0 else a.rows)).map (fun r =>
        { device := a.dev, message := m.id, msg := .read (BitVec.ofNat 64 (a.rowAt r)) (a.e 0 * a.width / 8) })) ∧
    (s.reaches a.dev = false → ∃ t, exec (.get o) s = .next t ∧ u.cmdTraps t m 0x19)) ∧
  (∀ (o : SeOps) (s u : State) (c q : Nat) (m : Cmd) (bs : List Byte) (a b : Layout) (p : Nat → Space × Nat), s.engineHead c q (.put o) o m →
    s.engineOpen o m → s.hasRecs u c m [m.val 0, m.val 1] bs → recPair bs = some (a, b) → s.ownDevice a.dev = true → s.ownDevice b.dev = false →
    b.space = 0 → a.fmt = b.fmt → copyOk a b = true → m.progress = 0 → m.got = [] → 0 < a.count →
    (s.reaches b.dev = true → u.reachesAll c (u.grp m.group) a.space { r := true, egress := true } (a.bytesUsed false) p →
      ∃ (t : State) (msgs : List (List (W64 × List Byte))), exec (.put o) s = .next t ∧ t.cmdDone c q m 0 ∧ u.sameBytes t ∧
        t.fleetOut = u.fleetOut ++ msgs.map (fun rs => { device := b.dev, message := m.id, msg := .write (rs.headD (0, [])).1 rs }) ∧
        (∀ rs ∈ msgs, ∃ page, ∀ r ∈ rs, r.1.toNat / 4096 = page ∧ (r.1.toNat + r.2.length - 1) / 4096 = page) ∧
        (∀ r k y, r < b.rows → k < b.e 0 * b.width / 8 → y = (b.rowAt r + k) % 2 ^ 56 →
          (∀ r' k', r < r' → r' < b.rows → k' < b.e 0 * b.width / 8 → (b.rowAt r' + k') % 2 ^ 56 ≠ y) →
          ∃ rs ∈ msgs, ∃ v ∈ rs, v.1.toNat ≤ y ∧ y < v.1.toNat + v.2.length ∧
            v.2.getD (y - v.1.toNat) 0 = (leBytes (b.e 0 * b.width / 8) (putRowValue a b p u.byteAt r)).getD k 0)) ∧
    (s.reaches b.dev = false → ∃ t, exec (.put o) s = .next t ∧ u.cmdTraps t m 0x19))

end Sys2Proof.Machine

/-- R234, R261, R298, R317, R336 to R339: what the commands of the copy queue do. -/
def Obligations.CopyCommands : Prop := copyCommands ∧ fleetCommands

/-! ### Tiles and the matrix queue -/

namespace Sys2Proof.Machine

/-- No scratchpad, scale store, tile or lane register that a command of the group may read holds an error. -/
def State.noErrors (s : State) (g : Nat) : Prop :=
  (∀ c, (s.core c).spadBad = [] ∧ (s.core c).scaleBad = [] ∧ (s.core c).tileBad = []) ∧ (s.grp g).vBad = []

/-- The group's tile of a command's word. -/
def State.wordTile (s : State) (c : Nat) (m : Cmd) : Tile := s.tile c (s.tileNo m.group (tileOfWord (m.val 0)))

/-- Word `n` of what ACCLBL moves (R331): the 128 row labels, then the ERM. -/
def Tile.words (t : Tile) (n : Nat) : W32 :=
  if n < 128 then (t.labels.dense voidLabel 0 128).getD n voidLabel else t.erm.extractLsb' (32 * (n - 128)) 32

/-- R331, R322, R318, R310: what the commands on a tile do once they start. TFSET sets its tile flag; ACCZ clears the elements of a tile whose token is at the
matrix side, and its labels too when its word says so; TOK moves the token to the side of its word, to the matrix side once the vector-side accesses before
it have completed; ACCLBL stores the labels and the ERM of a tile to memory, or loads them. -/
def tileCommands : Prop :=
  ∀ (i : Instr) (o : SeOps) (s : State) (c q : Nat) (m : Cmd), s.engineHead c q i o m → s.engineOpen o m →
    (i = .tfset o → ∃ t, exec i s = .next t ∧ t.cmdDone c q m 0 ∧
      (∀ n, (t.grp m.group).tflags.get false n =
        if n = (m.val 0).toNat % 16 then (m.val 0).getLsbD 8 else (s.grp m.group).tflags.get false n) ∧ s.sameBytes t) ∧
    (i = .accz o → (s.wordTile c m).tokenV = false → ∃ t, exec i s = .next t ∧ t.cmdDone c q m 0 ∧
      (∀ e, (t.wordTile c m).elems.get 0 e = 0) ∧ (t.wordTile c m).erm = BitVec.allOnes 128 ∧ (t.wordTile c m).msat = false ∧
      (t.wordTile c m).fmte = false ∧ (t.wordTile c m).tokenV = false ∧
      ((m.val 0).getLsbD 8 = true → ∀ k, (t.wordTile c m).labels.get voidLabel k = voidLabel) ∧
      ((m.val 0).getLsbD 8 = false → (t.wordTile c m).labels = (s.wordTile c m).labels) ∧ s.sameBytes t) ∧
    (i = .accz o ∨ (m.started = false ∧ (i = .acclblStore o ∨ i = .acclblLoad o)) → (s.wordTile c m).tokenV = true →
      exec i s = .next { s.fatal m.group 0x15 m.addr 0 (BitVec.ofNat 64 m.tag) (16 + m.split) with again := [], read := [] }) ∧
    ((i = .tokToV o ∨ i = .tokToM o) →
      ((m.val 0).getLsbD 8 = true ∨ s.vectorSide m (tileOfWord (m.val 0)) = false → ∃ t, exec i s = .next t ∧ t.cmdDone c q m 0 ∧
        t.wordTile c m = { s.wordTile c m with tokenV := (m.val 0).getLsbD 8 } ∧ s.sameBytes t) ∧
      ((m.val 0).getLsbD 8 = false → s.vectorSide m (tileOfWord (m.val 0)) = true → exec i s = .next { s with again := [], read := [] })) ∧
    (∀ p : Nat → Space × Nat, (i = .acclblStore o ∨ i = .acclblLoad o) → (m.val 0).getLsbD 8 = false → (s.wordTile c m).tokenV = false →
      m.progress = 0 → s.noErrors m.group → s.canonical →
      s.reachesAll c (s.grp m.group) 0 { w := true } ((List.range 528).map ((m.val 2).toNat + ·)) p →
      ∃ t, exec i s = .next t ∧ t.cmdDone c q m 0 ∧ t.wordTile c m = s.wordTile c m ∧ ∀ sp y, t.byteAt sp y = movesDo p ((List.range 132).map (fun n =>
        { bit := 8 * ((m.val 2).toNat + 4 * n), width := 32, value := fun _ => ((s.wordTile c m).words n).toNat })) s.byteAt sp y) ∧
    (∀ p : Nat → Space × Nat, (i = .acclblStore o ∨ i = .acclblLoad o) → (m.val 0).getLsbD 8 = true → (s.wordTile c m).tokenV = false →
      m.progress = 0 → s.reachesAll c (s.grp m.group) 0 { r := true } ((List.range 528).map ((m.val 2).toNat + ·)) p →
      ∃ t, exec i s = .next t ∧ t.cmdDone c q m 0 ∧ s.sameBytes t ∧ (t.wordTile c m).elems = (s.wordTile c m).elems ∧
        ∀ n, n < 132 → (if n < 128 then (t.wordTile c m).labels.get voidLabel n else (t.wordTile c m).erm.extractLsb' (32 * (n - 128)) 32) =
          BitVec.ofNat 32 (elemGet s.byteAt p (8 * ((m.val 2).toNat + 4 * n)) 32))

/-- Byte `a` of the window of an operand map of that KIND, local to core `lc` or of the cluster (R314, R316). -/
def State.windowByte (s : State) (lc : Nat) (x : Group) (kind a : Nat) : Byte :=
  if kind = 1 then s.byteAt (.spad (x.coreOf (a % (x.members * 2 ^ 21) / 128 % x.members)))
    (a % (x.members * 2 ^ 21) / 128 / x.members * 128 + a % (x.members * 2 ^ 21) % 128)
  else s.byteAt (.spad lc) (a % 2 ^ 21)

/-- The label of row `j` of an operand (R316). -/
def State.rowLabel (s : State) (lc : Nat) (x : Group) (p : OMap) (j : Nat) : W32 :=
  BitVec.ofNat 32 (leNat ((List.range 4).map (fun i => s.windowByte lc x p.kind (p.lbase * 64 + 4 * j + i))))

/-- Byte `b` of step `t` of row `i` of an operand (R314, R315). -/
def State.operandByte (s : State) (lc : Nat) (x : Group) (p : OMap) (i t b : Nat) : Byte :=
  if p.kind = 2 then BitVec.ofNat 8 (((x.reg (p.base + t * p.tpitch + i * p.rpitch)).lane (b / 4)).toNat / 256 ^ (b % 4))
  else s.windowByte lc x p.kind (p.offset i t b)

/-- Row `i` of an operand: each element's code, and its value times its scale, which stands in the store of core `sk` (R287, R291, R299). -/
def State.operandRow (s : State) (lc sk : Nat) (x : Group) (p : OMap) (fmt kst ks i : Nat) : List (Nat × Num) :=
  (List.range (ks * kst)).map (fun k =>
    let code := leNat ((List.range ((kst * fmtBits fmt + 7) / 8)).map (s.operandByte lc x p i (k / kst))) / 2 ^ (fmtBits fmt * (k % kst)) %
      2 ^ fmtBits fmt
    let y := (elemOf fmt).read code
    (code, if fmtBlock fmt = 0 then y
      else scaled y ((scaleOfFmt fmt).read ((s.core sk).scale.read (p.soff * 16 + i * scalePitch ks kst (fmtBlock fmt) + k / fmtBlock fmt)).toNat)))

def Cmd.ctl (m : Cmd) : Ctl := ctlOf (m.val 0)
def Cmd.mapA (m : Cmd) : OMap := omapOf (m.val 2) (m.val 3)
def Cmd.mapB (m : Cmd) : OMap := omapOf (m.val 4) (m.val 5)

/-- The relation of a command. -/
def State.relOf (s : State) (m : Cmd) : List W32 := (s.core (s.grp m.group).core).rels.get [] (m.ctl.rel % 4)

/-- The row labels of A, and the column labels of a half's B (R316, R319). -/
def State.labelA (s : State) (m : Cmd) (r : Nat) : W32 := s.rowLabel (s.grp m.group).core (s.grp m.group) m.mapA r
def State.labelB (s : State) (m : Cmd) (h : Half) (k : Nat) : W32 := s.rowLabel h.bcore (s.grp m.group) m.mapB (h.brow + k)

/-- The summaries of a half (R307). -/
def State.sumA (s : State) (m : Cmd) : Summary := summaryOf (s.relOf m) ((List.range 128).map (s.labelA m))
def State.sumB (s : State) (m : Cmd) (h : Half) : Summary := summaryOf (s.relOf m) ((List.range 128).map (s.labelB m h))

/-- A half is skipped (R308, R309). -/
def State.halfSkips (s : State) (m : Cmd) (h : Half) : Bool := m.ctl.rel != 7 && Sys2Proof.Machine.skipped (s.relOf m) (s.sumA m) (s.sumB m h)

/-- A pair of a half is admitted (R305). -/
def State.admits (s : State) (m : Cmd) (h : Half) (r k : Nat) : Bool := m.ctl.rel == 7 || allow (s.relOf m) (s.labelA m r) (s.labelB m h k)

/-- The rows of A and of a half's B (R319). -/
def State.rowA (s : State) (m : Cmd) (r : Nat) : List (Nat × Num) :=
  s.operandRow (s.grp m.group).core (s.grp m.group).core (s.grp m.group) m.mapA m.ctl.fa (kStep m.ctl.fa m.ctl.fb) m.ctl.ks r
def State.rowB (s : State) (m : Cmd) (h : Half) (k : Nat) : List (Nat × Num) :=
  s.operandRow h.bcore h.bcore (s.grp m.group) m.mapB m.ctl.fb (kStep m.ctl.fa m.ctl.fb) m.ctl.ks (h.brow + k)

/-- What a half leaves in an element of its tile, and whether its sum was clamped (R295): run after run, onto the old value, or onto 0 for MMAZ. -/
def State.mmaElem (s : State) (m : Cmd) (h : Half) (zero : Bool) (r k : Nat) : W32 × Bool :=
  let old := if zero then 0 else ((s.tile h.core h.tile).elems.dense 0 0 16384).getD (128 * r + k) 0
  if s.admits m h r k then
    sumElem ((pairing m.ctl.fa m.ctl.fb).getD false) old (runsOf (kStep m.ctl.fa m.ctl.fb) m.ctl.ks (s.rowA m r))
      (runsOf (kStep m.ctl.fa m.ctl.fb) m.ctl.ks (s.rowB m h k))
  else (old, false)

/-- Some sum of a half was clamped; some element read was no number of its format (R296, R327). -/
def State.halfSats (s : State) (m : Cmd) (h : Half) (zero : Bool) : Bool :=
  (List.range 128).any (fun r => (List.range 128).any (fun k => (s.mmaElem m h zero r k).2))
def State.halfBad (s : State) (m : Cmd) (h : Half) : Bool :=
  (List.range 128).any (fun r => (s.rowA m r).any (fun e => (elemOf m.ctl.fa).bad e.1) || (s.rowB m h r).any (fun e => (elemOf m.ctl.fb).bad e.1))

/-- The half of a command's status record (R327). -/
def State.halfStatus (s : State) (m : Cmd) (h : Half) (zero : Bool) : List Byte :=
  statusHalf (s.relOf m) m.ctl.rel (s.halfSkips m h) (!s.halfSkips m h && s.halfSats m h zero) (!s.halfSkips m h && s.halfBad m h) (s.sumA m)
    (s.sumB m h)

/-- The rows of the matrix commands: paired, and overwriting. -/
def mmaOf (i : Instr) : Option (Bool × Bool) :=
  match i with
  | .mma _ => some (false, false)
  | .mmaz _ => some (false, true)
  | .mma2 _ => some (true, false)
  | .mma2z _ => some (true, true)
  | _ => none

/-- R295 to R320, R327 to R331: the matrix commands. A paired command waits until it heads its follower's queue too. With its tile flag false, or no steps, a
command does nothing; a tile of it at the vector side ends the launch with cause 0x15; else each of its tiles, if its labels do not skip it, takes in every admitted pair,
run after run, and keeps every other element; the labels of A go to the tile when the command says so; SKIPS counts the tiles skipped; and the status record is
written. TFSUM sets its tile flag by the same test of the labels. RELLD loads a relation that keeps its rules, and journals it; any other is cause 0x16. Which store
holds the scales of a paired B that the leader reads is the model's choice (log 34). -/
def matrixCommands : Prop :=
  (∀ (i : Instr) (o : SeOps) (s : State) (c q : Nat) (m : Cmd) (paired zero : Bool), mmaOf i = some (paired, zero) → s.engineHead c q i o m →
    s.engineOpen o m →
    (∀ f, paired = true → (s.grp m.group).follower = some f → (s.queue f q).head?.map (·.id) ≠ some m.id →
      exec i s = .next { s with again := [], read := [] }) ∧
    ((∀ f, paired = true → (s.grp m.group).follower = some f → (s.queue f q).head?.map (·.id) = some m.id) →
      ((m.ctl.tf ≠ 31 ∧ (s.grp m.group).tflags.get false m.ctl.tf = false) ∨ m.ctl.ks = 0 → ∃ t, exec i s = .next t ∧ t.cmdDone c q m 0 ∧
        s.sameBytes t ∧ ∀ d n, t.tile d n = s.tile d n) ∧
      (m.ctl.tf = 31 ∨ (s.grp m.group).tflags.get false m.ctl.tf = true → m.ctl.ks ≠ 0 →
        ((∃ h ∈ s.halvesOf m paired, (s.tile h.core h.tile).tokenV = true) → ∃ t, exec i s = .next t ∧ s.cmdTraps t m 0x15 ∧ s.sameBytes t) ∧
        ((∀ h ∈ s.halvesOf m paired, (s.tile h.core h.tile).tokenV = false) → ((s.halvesOf m paired).map (fun h => (h.core, h.tile))).Nodup →
          s.noErrors m.group → s.canonical → ∃ t, exec i s = .next t ∧ t.cmdDone c q m 0 ∧
          (∀ h ∈ s.halvesOf m paired,
            (s.halfSkips m h = true → zero = false → t.tile h.core h.tile = s.tile h.core h.tile) ∧
            (s.halfSkips m h = true → zero = true → ∀ e, (t.tile h.core h.tile).elems.get 0 e = 0) ∧
            (s.halfSkips m h = false → (∀ r k, r < 128 → k < 128 → (t.tile h.core h.tile).elems.get 0 (128 * r + k) = (s.mmaElem m h zero r k).1) ∧
              (∀ r, r < 128 → (t.tile h.core h.tile).erm.getLsbD r =
                ((zero || (s.tile h.core h.tile).erm.getLsbD r) && !(List.range 128).any (s.admits m h r))) ∧
              (t.tile h.core h.tile).msat = ((!zero && (s.tile h.core h.tile).msat) || s.halfSats m h zero) ∧
              (t.tile h.core h.tile).fmte = ((!zero && (s.tile h.core h.tile).fmte) || s.halfBad m h) ∧
              (m.ctl.lbl = true → ∀ r, r < 128 → (t.tile h.core h.tile).labels.get voidLabel r = s.labelA m r) ∧
              (m.ctl.lbl = false → (t.tile h.core h.tile).labels = (s.tile h.core h.tile).labels))) ∧
          (t.grp m.group).skips = (s.grp m.group).skips + BitVec.ofNat 64 ((s.halvesOf m paired).filter (s.halfSkips m)).length ∧
          (∀ j, j < 64 → t.byteAt (.spad c) ((m.val 1).toNat + j) = ((s.halvesOf m paired).flatMap (fun h => s.halfStatus m h zero)).getD j 0) ∧
          (∀ sp y, (∀ j, j < 64 → (sp, y) ≠ (.spad c, (m.val 1).toNat + j)) → t.byteAt sp y = s.byteAt sp y))))) ∧
  (∀ (o : SeOps) (s : State) (c q : Nat) (m : Cmd) (h : Half), s.engineHead c q (.tfsum o) o m → s.engineOpen o m → s.noErrors m.group → s.canonical →
    h.bcore = c → h.brow = 0 → ∃ t, exec (.tfsum o) s = .next t ∧ t.cmdDone c q m 0 ∧
      (∀ n, (t.grp m.group).tflags.get false n = if n = m.ctl.tf then !s.halfSkips m h else (s.grp m.group).tflags.get false n) ∧
      (∀ j, j < 64 → t.byteAt (.spad c) ((m.val 1).toNat + j) =
        (statusHalf (s.relOf m) m.ctl.rel (s.halfSkips m h) false false (s.sumA m) (s.sumB m h)).getD j 0) ∧
      (∀ sp y, (∀ j, j < 64 → (sp, y) ≠ (.spad c, (m.val 1).toNat + j)) → t.byteAt sp y = s.byteAt sp y)) ∧
  (∀ (o : SeOps) (s : State) (c q : Nat) (m : Cmd) (p : Nat → Space × Nat) (bs : List Byte) (r : List W32), s.engineHead c q (.relld o) o m →
    s.engineOpen o m → s.reachesAll c (s.grp m.group) 0 { r := true } ((List.range 64).map ((m.val 0).toNat + ·)) p →
    bs = (List.range 64).map (fun k => s.byteAt (p ((m.val 0).toNat + k)).1 (p ((m.val 0).toNat + k)).2) →
    r = (List.range 16).map (fun k => BitVec.ofNat 32 (leNat ((bs.drop (4 * k)).take 4))) →
    (relOk r = true → ∃ t e, exec (.relld o) s = .next t ∧ t.cmdDone c q m 0 ∧ (t.core c).rels.get [] (m.val 2).toNat = r ∧
      t.journal = s.journal ++ [e] ∧ e.kind = 5 ∧ e.body = leBytes 8 (m.val 0).toNat ++ bs) ∧
    (relOk r = false → ∃ t, exec (.relld o) s = .next t ∧ s.cmdTraps t m 0x16 ∧ s.sameBytes t))

end Sys2Proof.Machine

/-- R295 to R331: what the commands of the matrix queue do (the model's choice of a store of scales: log 34). -/
def Obligations.EngineCommandsPerform : Prop := tileCommands ∧ matrixCommands

/-! ### Memory as commands with virtual addresses see it -/

namespace Sys2Proof.Machine

/-- The `n`-byte number at virtual address `a`. -/
def vaNum (g : Space → Nat → Byte) (p : Nat → Space × Nat) (a n : Nat) : Nat := leNat ((List.range n).map (fun i => g (p (a + i)).1 (p (a + i)).2))

/-- Bytes written at virtual addresses, one after the other. -/
def vaPut (p : Nat → Space × Nat) (a : Nat) (bs : List Byte) (g : Space → Nat → Byte) : Space → Nat → Byte :=
  bs.zipIdx.foldl (fun g q sp y => if (sp, y) = p (a + q.2) then q.1 else g sp y) g
def vaPuts (p : Nat → Space × Nat) (l : List (Nat × List Byte)) (g : Space → Nat → Byte) : Space → Nat → Byte :=
  l.foldl (fun g q => vaPut p q.1 q.2 g) g

/-- `n` bytes from virtual address `a` on are in HBM at the places `p`, in the core's TLB, and hold no error. -/
def State.mapped (s : State) (c : Nat) (p : Nat → Space × Nat) (need : Need) (a n : Nat) : Prop :=
  ∀ i, i < n → (p (a + i)).1 = .hbm ∧ s.hits (some c) (BitVec.ofNat 64 (a + i)) need (p (a + i)).2 ∧ s.badPlace (p (a + i)) 1 = false

/-- Some numbers of 4 bytes, each at its address. -/
def words (l : List (Nat × Nat)) : List (Nat × List Byte) := l.map (fun q => (q.1, leBytes 4 q.2))

/-- A command that has read nothing yet runs from `s` to `t`: it has done its work, and memory is as said. -/
def State.commandDone (s : State) (i : Instr) (c q : Nat) (m : Cmd) (g : Space → Nat → Byte) (t : State) : Prop :=
  exec i s = .next t ∧ t.cmdDone c q m 0 ∧ ∀ sp y, t.byteAt sp y = g sp y

/-- A command of core `c` that starts. -/
def State.starts (s : State) (c q : Nat) (i : Instr) (o : SeOps) (m : Cmd) : Prop :=
  s.engineHead c q i o m ∧ s.engineOpen o m ∧ m.started = false ∧ m.progress = 0 ∧ m.seen = [] ∧ m.plan = none ∧ m.recs = [] ∧ s.canonical

end Sys2Proof.Machine

/-! ### Winnow -/

namespace Sys2Proof.Machine

/-- Entry `e` of a table probed by token: its token and its value (R404). -/
def tableEntry (g : Space → Nat → Byte) (p : Nat → Space × Nat) (table e : Nat) : Nat × Nat :=
  (vaNum g p (table + 8 * e) 8 % 2 ^ 32, vaNum g p (table + 8 * e) 8 / 2 ^ 32)

/-- A lookup in a table of `size` entries, from entry `e` on (R404). -/
def tableProbe (f : Nat → Nat × Nat) (size t fuel e : Nat) : Probe :=
  match fuel with
  | 0 => .none
  | k + 1 => if (f e).2 = 0 then .empty e else if (f e).1 = t then .found e (f e).2 else tableProbe f size t k ((e + 1) % size)

def tableLookup (f : Nat → Nat × Nat) (size t : Nat) : Probe := tableProbe f size t size (t % size)

/-- A logit program on one column: the column's register 0 at its first `end` (R409). -/
def programOn (bd : Binding) (count bias : Nat) (x : Nat) (ws : List W32) (col : Column) : Nat :=
  match ws with
  | [] => col.get 0
  | w :: rest =>
    let y := wwordOf w
    if y.op = 0x12 then col.get 0
    else if y.op = 0x02 then programOn bd count bias x rest { col with w := col.w.set y.d (f32.round .rne false false count 0 false).1 }
    else if y.op = 0x03 then programOn bd count bias x rest { col with w := col.w.set y.d bias }
    else programOn bd count bias x rest (y.run bd.p x col)

/-- R403, R409, R411, R414 to R416: WBIND takes the fields of a sheaf's header and the program that it names into a binding. WSTRIP runs the binding's program on
the columns of its row, writes each back and leaves the row's partial; without the token at the vector side it ends the launch with cause 0x15. WPART writes the row's
partial into its slot and takes a ticket. No binding, no program, or a program with no `end` is an illegal instruction. -/
def winnowTiles : Prop :=
  (∀ (o : SeOps) (s : State) (c q a : Nat) (m : Cmd) (p : Nat → Space × Nat), s.starts c q (.wbind o) o m → a = (m.val 0).toNat →
    s.mapped c p { r := true } a 0x60 →
    (s.programOf (vaNum s.byteAt p (a + 8) 4) = none → ∃ t, exec (.wbind o) s = .next t ∧ s.cmdTraps t m 0x10 ∧ s.sameBytes t) ∧
    (∀ prog, s.programOf (vaNum s.byteAt p (a + 8) 4) = some prog → ∃ t b, s.commandDone (.wbind o) c q m s.byteAt t ∧
      (t.core c).binds.find (m.val 2).toNat = some b ∧ b.sheaf = m.val 0 ∧ b.prog = prog ∧ b.flags.toNat = vaNum s.byteAt p (a + 0x0C) 4 ∧
      b.key.toNat = vaNum s.byteAt p (a + 0x10) 8 ∧ b.position.toNat = vaNum s.byteAt p (a + 0x18) 4 ∧
      b.draw.toNat = vaNum s.byteAt p (a + 0x1C) 4 ∧ ∀ k, k < 16 → (b.p.getD k 0).toNat = vaNum s.byteAt p (a + 0x20 + 4 * k) 4)) ∧
  (∀ (o : SeOps) (s : State) (c q n at0 token : Nat) (m : Cmd) (bd : Binding) (p : Nat → Space × Nat) (ys : List Nat), s.starts c q (.wstrip o) o m →
    (s.core c).binds.find (wordBind (m.val 0)) = some bd → n = s.tileNo m.group (wordTile (m.val 0)) → at0 = 128 * wordRow (m.val 0) →
    token = (m.val 2).toNat →
    ((s.tile c n).tokenV = false → ∃ t, exec (.wstrip o) s = .next t ∧ s.cmdTraps t m 0x15 ∧ s.sameBytes t) ∧
    ((s.tile c n).tokenV = true → programRuns bd.prog = false → ∃ t, exec (.wstrip o) s = .next t ∧ s.cmdTraps t m 0x10 ∧ s.sameBytes t) ∧
    ((s.tile c n).tokenV = true → programRuns bd.prog = true → (s.core c).tileBad = [] → s.mapped c p { r := true } (bd.sheaf.toNat + 0x200) 40960 →
      ys = (List.range (wordCols (m.val 0))).map (fun j => programOn bd
        (tableLookup (tableEntry s.byteAt p (bd.sheaf.toNat + 0x200)) 4096 (token + j)).value
        (tableLookup (tableEntry s.byteAt p (bd.sheaf.toNat + 0x8200)) 1024 (token + j)).value
        ((s.tile c n).elems.get 0 (at0 + j)).toNat bd.prog Column.start) →
      ∃ t, s.commandDone (.wstrip o) c q m s.byteAt t ∧
        (∀ j, j < wordCols (m.val 0) → (t.tile c n).elems.get 0 (at0 + j) = BitVec.ofNat 32 (ys.getD j 0)) ∧
        (∀ e, e < at0 ∨ at0 + wordCols (m.val 0) ≤ e → (t.tile c n).elems.get 0 e = (s.tile c n).elems.get 0 e) ∧
        (t.core c).partials.get Partial.empty (n * 128 + wordRow (m.val 0)) = partialOf bd token (ys.map (fun y => y % 2 ^ 32)))) ∧
  (∀ (o : SeOps) (s : State) (c q : Nat) (m : Cmd), s.starts c q (.wstrip o) o m → (s.core c).binds.find (wordBind (m.val 0)) = none →
    ∃ t, exec (.wstrip o) s = .next t ∧ s.cmdTraps t m 0x10 ∧ s.sameBytes t) ∧
  (∀ (o : SeOps) (s : State) (c q n a slot : Nat) (m : Cmd) (p : Nat → Space × Nat) (g : Space → Nat → Byte), s.starts c q (.wpart o) o m →
    n = s.tileNo m.group (wordTile (m.val 0)) → a = (m.val 2).toNat → slot = a + 0x40 + 32 * wordSlot (m.val 0) →
    ((s.tile c n).tokenV = false → ∃ t, exec (.wpart o) s = .next t ∧ s.cmdTraps t m 0x15 ∧ s.sameBytes t) ∧
    ((s.tile c n).tokenV = true → s.mapped c p { r := true, w := true } a 8 → s.mapped c p { w := true } slot 32 →
      g = vaPut p slot ((s.core c).partials.get Partial.empty (n * 128 + wordRow (m.val 0))).bytes s.byteAt →
      ∃ t, s.commandDone (.wpart o) c q m (vaPuts p [(a, leBytes 8 (vaNum g p a 8 + 1)), (slot + 0x18, leBytes 8 (vaNum g p a 8))] g) t))

/-- The draw of a buffer of partials (R417): LOGP, TOKEN, N and STATUS. -/
def drawOf (ps : List Partial) : Nat × Nat × Nat × Nat :=
  if ps.all (fun p => p.token == 0xFFFFFFFF) then (f32NegInf, 0xFFFFFFFF, 0, 1)
  else
    match winner ps with
    | none => (f32NegInf, 0xFFFFFFFF, 0, 1)
    | some w =>
      let m := greatest (ps.map (·.max.toNat))
      let sum := ps.foldl (fun a p => if p.max.toNat = f32NegInf then a else rnAdd a (rnMul p.sum.toNat (weight p.max.toNat m))) 0
      (rnSub (rnSub w.bestx.toNat m) (rnMul (rnLog2 sum) 0x3F317218), w.token.toNat, 1, 0)

/-- One token counted in a count table (R418). -/
def countToken (p : Nat → Space × Nat) (table : Nat) (g : Space → Nat → Byte) (t : Nat) : Space → Nat → Byte :=
  match tableLookup (tableEntry g p table) 4096 t with
  | .found e v => vaPut p (table + 8 * e) (leBytes 4 t ++ leBytes 4 (min (v + 1) 0xFFFFFFFF)) g
  | .empty e => vaPut p (table + 8 * e) (leBytes 4 t ++ leBytes 4 1) g
  | .none => g

/-- The count table can take the absent tokens of a list (R418). -/
def tokensFit (f : Nat → Nat × Nat) (ts : List Nat) : Bool :=
  match ts with
  | [] => true
  | t :: rest =>
    match tableLookup f 4096 t with
    | .found _ _ => tokensFit f rest
    | .empty e => tokensFit (fun i => if i = e then (t, 1) else f i) rest
    | .none => false

/-- R408, R411, R417, R418: WDRAW draws from the partials of a buffer, WCOMMIT counts the tokens of a list; each writes its results, its binding and its
sheaf, and its STATUS last, or the STATUS that says why it did nothing. An unbound binding is an illegal instruction, and a draw with DRAW exhausted cause 0x18. -/
def winnowDraws : Prop :=
  (∀ (i : Instr) (o : SeOps) (s : State) (c q : Nat) (m : Cmd), i ∈ [Instr.wdraw o, .wcommit o, .waccept o] → s.starts c q i o m →
    ((s.core c).binds.find (m.val 0).toNat = none → ∃ t, exec i s = .next t ∧ s.cmdTraps t m 0x10 ∧ s.sameBytes t) ∧
    (∀ bd, (s.core c).binds.find (m.val 0).toNat = some bd → bd.draw = 0xFFFFFFFF → i ≠ .wcommit o →
      ∃ t, exec i s = .next t ∧ s.cmdTraps t m 0x18 ∧ s.sameBytes t)) ∧
  (∀ (o : SeOps) (s : State) (c q a n : Nat) (m : Cmd) (bd : Binding) (p : Nat → Space × Nat) (d : Nat × Nat × Nat × Nat), s.starts c q (.wdraw o) o m →
    (s.core c).binds.find (m.val 0).toNat = some bd → bd.draw ≠ 0xFFFFFFFF → a = (m.val 2).toNat → n = vaNum s.byteAt p (a + 8) 4 →
    s.mapped c p { r := true } (a + 8) 4 →
    (n = 0 ∨ 256 < n → s.mapped c p { w := true } (a + 0x0C) 4 →
      ∃ t, s.commandDone (.wdraw o) c q m (vaPuts p (words [(a + 0x0C, 2)]) s.byteAt) t ∧ (t.core c).binds = (s.core c).binds) ∧
    (0 < n → n ≤ 256 → s.mapped c p { r := true } (a + 0x40) (32 * n) → s.mapped c p { w := true } (a + 0x0C) 16 →
      s.mapped c p { w := true } (bd.sheaf.toNat + 0x1C) 4 →
      d = drawOf ((List.range n).map (fun k =>
        { max := BitVec.ofNat 32 (vaNum s.byteAt p (a + 0x40 + 32 * k) 4), sum := BitVec.ofNat 32 (vaNum s.byteAt p (a + 0x44 + 32 * k) 4),
          best := BitVec.ofNat 32 (vaNum s.byteAt p (a + 0x48 + 32 * k) 4), bestx := BitVec.ofNat 32 (vaNum s.byteAt p (a + 0x4C + 32 * k) 4),
          token := BitVec.ofNat 32 (vaNum s.byteAt p (a + 0x50 + 32 * k) 4), nans := BitVec.ofNat 32 (vaNum s.byteAt p (a + 0x54 + 32 * k) 4) })) →
      ∃ t, s.commandDone (.wdraw o) c q m (vaPuts p (words ([(a + 0x18, d.1), (a + 0x14, d.2.1), (a + 0x10, d.2.2.1), (a + 0x0C, d.2.2.2)] ++
          (if d.2.2.1 = 0 then [] else [(bd.sheaf.toNat + 0x1C, (bd.draw + 1).toNat)]))) s.byteAt) t ∧
        (t.core c).binds.find (m.val 0).toNat = some (if d.2.2.1 = 0 then bd else { bd with draw := bd.draw + 1 }))) ∧
  (∀ (o : SeOps) (s : State) (c q a n table pos : Nat) (m : Cmd) (bd : Binding) (p : Nat → Space × Nat) (ts : List Nat) (code : Nat),
    s.starts c q (.wcommit o) o m → (s.core c).binds.find (m.val 0).toNat = some bd → 4 ≤ (m.val 2).toNat → a = (m.val 2).toNat - 4 →
    table = bd.sheaf.toNat + 0x200 → n = vaNum s.byteAt p (a + 4) 4 → ts = (List.range n).map (fun k => vaNum s.byteAt p (a + 8 + 4 * k) 4) →
    s.mapped c p { w := true } a 4 → s.mapped c p { r := true } (a + 4) 4 → (0 < n ∧ n ≤ 64 → s.mapped c p { r := true } (a + 8) (4 * n)) →
    s.mapped c p { r := true, w := true } table 32768 → s.mapped c p { w := true } (bd.sheaf.toNat + 0x0C) 20 →
    code = (if bd.flags.getLsbD 0 then 3 else if n = 0 ∨ 64 < n then 2 else if ts.any (fun x => decide (0xFFFFFFEF < x)) then 2
      else if tokensFit (tableEntry s.byteAt p table) ts then 0 else 4) →
    (code ≠ 0 → ∃ t, s.commandDone (.wcommit o) c q m (vaPuts p (words [(a, code)]) s.byteAt) t ∧ (t.core c).binds = (s.core c).binds) ∧
    (code = 0 → pos = min (bd.position.toNat + n) 0xFFFFFFFF →
      ∃ t, (t.core c).binds.find (m.val 0).toNat = some { bd with
          position := BitVec.ofNat 32 pos
          draw := 0
          flags := if pos = 0xFFFFFFFF then bd.flags ||| 1 else bd.flags } ∧
        s.commandDone (.wcommit o) c q m (vaPuts p (words [(bd.sheaf.toNat + 0x18, pos), (bd.sheaf.toNat + 0x1C, 0),
          (bd.sheaf.toNat + 0x0C, (if pos = 0xFFFFFFFF then bd.flags ||| 1 else bd.flags).toNat), (a, 0)])
          (ts.foldl (countToken p table) s.byteAt)) t))

/-- How many drafts from `i` on are accepted in a row, given the probabilities of the two rows (R419). -/
def acceptedFrom (bd : Binding) (a : Accept) (pr qr : Nat → Nat → Nat) (left i : Nat) : Nat :=
  match left with
  | 0 => i
  | k + 1 =>
    match (f32.decode (acceptUniform bd i 0xFFFFFFFE)).mul (f32.decode (qr i (a.drafts.getD i 0))) with
    | some x => if x.cmp (f32.decode (pr i (a.drafts.getD i 0))) ≤ 0 then acceptedFrom bd a pr qr k (i + 1) else i
    | none => i

/-- The weights of the tokens from which WACCEPT draws after `i` accepted drafts: the residual of the rejected draft, or where that is nothing, the target's row
itself (R419). -/
def acceptWeights (a : Accept) (pr qr : Nat → Nat → Nat) (i : Nat) : List Nat :=
  let res := (List.range a.v).map (fun j => if a.n ≤ i then pr i j else max32 (rnSub (pr i j) (qr i j)) 0)
  if i < a.n ∧ res.all (fun r => eq32 r 0) then (List.range a.v).map (pr i) else res

/-- The token at which the running sum of some weights passes a target, or the last with a positive weight (R419). -/
def pickFrom (target : Nat) (ws : List Nat) (j sum last : Nat) : Nat :=
  match ws with
  | [] => last
  | w :: rest => if gt32 (rnAdd sum w) target then j else pickFrom target rest (j + 1) (rnAdd sum w) (if gt32 w 0 then j else last)

/-- R406, R419: WACCEPT checks its block, accepts drafts, and picks a token; it writes how many drafts it accepted, the token, the count and its STATUS, and
counts its draw in the binding and the sheaf. -/
def winnowAccepts : Prop :=
  ∀ (o : SeOps) (s : State) (c q blk : Nat) (m : Cmd) (bd : Binding) (p : Nat → Space × Nat) (bs : List Byte) (a : Accept) (pr qr : Nat → Nat → Nat)
    (i sum : Nat) (ws : List Nat), s.starts c q (.waccept o) o m →
    (s.core c).binds.find (m.val 0).toNat = some bd → bd.draw ≠ 0xFFFFFFFF → blk = (m.val 2).toNat → s.mapped c p { r := true, w := true } blk 128 →
    bs = (List.range 128).map (fun k => s.byteAt (p (blk + k)).1 (p (blk + k)).2) → a = acceptOf bs →
    (a.ok bs = false → ∃ t, s.commandDone (.waccept o) c q m (vaPuts p (words [(blk + 0x28, 2)]) s.byteAt) t ∧ (t.core c).binds = (s.core c).binds) ∧
    (a.ok bs = true → (bd.flags.getLsbD 0 = true ∨ 0xFFFFFFFF < bd.position.toNat + a.n) →
      ∃ t, s.commandDone (.waccept o) c q m (vaPuts p (words [(blk + 0x28, 3)]) s.byteAt) t ∧ (t.core c).binds = (s.core c).binds) ∧
    (a.ok bs = true → bd.flags.getLsbD 0 = false → bd.position.toNat + a.n ≤ 0xFFFFFFFF →
      (∀ k, k ≤ a.n → s.mapped c p { r := true } (a.p.toNat + k * a.rstr) (4 * a.v)) →
      (∀ k, k < a.n → s.mapped c p { r := true } (a.q.toNat + k * a.rstr) (4 * a.v)) → s.mapped c p { w := true } (bd.sheaf.toNat + 0x1C) 4 →
      (∀ k j, pr k j = probOf (vaNum s.byteAt p (a.p.toNat + k * a.rstr + 4 * j) 4)) →
      (∀ k j, qr k j = probOf (vaNum s.byteAt p (a.q.toNat + k * a.rstr + 4 * j) 4)) →
      i = acceptedFrom bd a pr qr a.n 0 → ws = acceptWeights a pr qr i → sum = ws.foldl rnAdd 0 →
      (eq32 sum 0 = true → ∃ t, s.commandDone (.waccept o) c q m (vaPuts p (words [(blk + 0x20, i), (blk + 0x28, 1)]) s.byteAt) t ∧
        (t.core c).binds = (s.core c).binds) ∧
      (eq32 sum 0 = false → ∃ t, (t.core c).binds.find (m.val 0).toNat = some { bd with draw := bd.draw + 1 } ∧
        s.commandDone (.waccept o) c q m (vaPuts p (words [(blk + 0x20, i), (blk + 0x30 + 4 * i,
          pickFrom (rnMul (acceptUniform bd i 0xFFFFFFFD) sum) ws 0 0 0), (blk + 0x2C, i + 1), (blk + 0x28, 0),
          (bd.sheaf.toNat + 0x1C, (bd.draw + 1).toNat)]) s.byteAt) t))

end Sys2Proof.Machine

/-- R403 to R419: what the commands of the Winnow queue do. -/
def Obligations.WinnowCommands : Prop := winnowTiles ∧ winnowDraws ∧ winnowAccepts

/-! ### The sequence queue -/

namespace Sys2Proof.Machine

/-- Bytes written at physical addresses. -/
def paPut (a : Nat) (bs : List Byte) (g : Space → Nat → Byte) : Space → Nat → Byte := vaPut (fun y => (.hbm, y)) a bs g

/-- What the splice of items into their slots leaves (R241): each slot of a page its new leaf, without S. -/
def spliced (l : List (SpliceItem × Nat × W64)) (g : Space → Nat → Byte) : Space → Nat → Byte :=
  l.foldl (fun g e => (List.range e.1.slots).foldl (fun g k => paPut (e.2.1 + 8 * k) (leBytes 8 (e.1.leaf &&& ~~~0x40#64).toNat) g) g) g

/-- A TLB entry and the page of an item have no byte in common. -/
def TlbEntry.apart (e : TlbEntry) (i : SpliceItem) : Prop := i.page + i.size ≤ e.base.toNat ∨ e.base.toNat + pageBytes e.size ≤ i.page

/-- R239 to R242: KVSPLICE writes a STATUS: 1 for a list that breaks its rules, 2 to 5 for a leaf or a pool that does, and then nothing else changes; or 0, with the
displaced leaves, V cleared, on the pool, the new leaves, S cleared, in their slots, and no TLB entry that overlaps a page of the list. That an old entry which is a
table entry or malformed gives code 2 is the model's choice (log 118). -/
def spliceCommands : Prop :=
  ∀ (o : SeOps) (s : State) (c q a n pool top cap : Nat) (m : Cmd) (p : Nat → Space × Nat) (items : List SpliceItem), s.starts c q (.kvsplice o) o m →
    a = (m.val 0).toNat → n = vaNum s.byteAt p a 8 → pool = vaNum s.byteAt p (a + 8) 8 → s.mapped c p { r := true } a 0x20 →
    s.mapped c p { w := true } (a + 0x10) 8 →
    items = (List.range n).map (fun k => { va := BitVec.ofNat 64 (vaNum s.byteAt p (a + 0x20 + 16 * k) 8)
                                           leaf := BitVec.ofNat 64 (vaNum s.byteAt p (a + 0x28 + 16 * k) 8) }) →
    top = vaNum s.byteAt p pool 8 → cap = vaNum s.byteAt p (pool + 8) 8 →
    (n = 0 ∨ 16 < n ∨ vaNum s.byteAt p (a + 0x18) 8 ≠ 0 → ∃ t, s.commandDone (.kvsplice o) c q m (vaPut p (a + 0x10) (leBytes 8 1) s.byteAt) t) ∧
    (0 < n → n ≤ 16 → vaNum s.byteAt p (a + 0x18) 8 = 0 → s.mapped c p { r := true } (a + 0x20) (16 * n) →
      (itemsApart items = false → ∃ t, s.commandDone (.kvsplice o) c q m (vaPut p (a + 0x10) (leBytes 8 1) s.byteAt) t) ∧
      (itemsApart items = true → s.mapped c p { r := true } pool 16 →
        (∀ k, spliceCheck s c items top cap = .ok (.error k) →
          ∃ t, s.commandDone (.kvsplice o) c q m (vaPut p (a + 0x10) (leBytes 8 k) s.byteAt) t) ∧
        (∀ l old, spliceCheck s c items top cap = .ok (.ok l) → old = (l.filter (fun e => pteV e.2.2)).map (·.2.2) →
          s.mapped c p { w := true } pool 8 → s.mapped c p { w := true } (pool + 0x10 + 8 * top) (8 * old.length) →
          (∀ e ∈ (s.core c).tlb, (∃ k, k < 8 ∧ e.maps (((BitVec.ofNat 64 (a + 0x10 + k)).setWidth 56).setWidth 64) = true) → ∀ i ∈ items, e.apart i) →
          ∃ t, s.commandDone (.kvsplice o) c q m (vaPut p (a + 0x10) (leBytes 8 0) (spliced l
            (vaPuts p ((pool + 0x10 + 8 * top, old.flatMap (fun e => leBytes 8 (e &&& ~~~1#64).toNat)) ::
              (if old = [] then [] else [(pool, leBytes 8 (top + old.length))])) s.byteAt))) t ∧
            (∀ d, ∀ e ∈ (t.core d).tlb, ∀ i ∈ items, e.apart i) ∧ (∀ e ∈ t.ioTlb, ∀ i ∈ items, e.apart i)))) ∧
    (∀ k, spliceCheck s c items top cap = .ok (.error k) → k ∈ [2, 3, 4, 5])

/-- Entry `e` of the prefix table (R420). -/
def State.pfxEntry (s : State) (g : Space → Nat → Byte) (p : Nat → Space × Nat) (e : Nat) : PfxEntry :=
  let a := s.prefixBase.toNat + 32 * e
  { hash := BitVec.ofNat 64 (vaNum g p a 8), page := vaNum g p (a + 8) 8, model := vaNum g p (a + 0x10) 4, pins := vaNum g p (a + 0x14) 4 }

/-- A probe of a table of `size` entries, from entry `e` on (R420). -/
def pfxProbe (f : Nat → PfxEntry) (size : Nat) (h : W64) (model fuel e : Nat) (free : Option Nat) : PfxProbe :=
  match fuel with
  | 0 => .absent free
  | k + 1 =>
    if (f e).page = 0 then .absent (free.or (some e))
    else if (f e).page ≠ 1 ∧ (f e).hash = h ∧ (f e).model = model then .found e (f e)
    else pfxProbe f size h model k ((e + 1) % size) (free.or (if (f e).page = 1 then some e else none))

def State.pfxFind (s : State) (f : Nat → PfxEntry) (h : W64) (model : Nat) : PfxProbe :=
  pfxProbe f s.prefixSize h model 64 (h.toNat % s.prefixSize) none

/-- The blocks of a query that the table holds, from the first on (R422). -/
def State.pfxRun (s : State) (f : Nat → PfxEntry) (model : Nat) (hs : List W64) : List (Nat × PfxEntry) :=
  match hs with
  | [] => []
  | h :: rest =>
    match s.pfxFind f h model with
    | .found e x => (e, x) :: s.pfxRun f model rest
    | .absent _ => []

/-- PINS of a block after a pin or an unpin. -/
def pinsOf (up : Bool) (n : Nat) : Nat := if up then min (n + 1) 0xFFFFFFFF else n - 1

/-- Entries pinned or unpinned one after the other. -/
def State.pinAll (s : State) (p : Nat → Space × Nat) (up : Bool) (es : List Nat) (g : Space → Nat → Byte) : Space → Nat → Byte :=
  es.foldl (fun g e => vaPut p (s.prefixBase.toNat + 32 * e + 0x14) (leBytes 4 (pinsOf up (s.pfxEntry g p e).pins)) g) g

/-- What PFXINS writes from block `i` on: its entries, how many they are, and whether the table had room for them all (R422). -/
def State.pfxAdds (s : State) (f : Nat → PfxEntry) (page : Nat → Nat) (model i : Nat) (hs : List W64) : List (Nat × PfxEntry) × Bool :=
  match hs with
  | [] => ([], true)
  | h :: rest =>
    match s.pfxFind f h model with
    | .found _ _ => s.pfxAdds f page model (i + 1) rest
    | .absent none => ([], false)
    | .absent (some e) =>
      let x : PfxEntry := { hash := h, page := page i, model := model, pins := 0 }
      ((e, x) :: (s.pfxAdds (fun k => if k = e then x else f k) page model (i + 1) rest).1,
        (s.pfxAdds (fun k => if k = e then x else f k) page model (i + 1) rest).2)

/-- A prefix command has its turn: no other one is at work (R423). -/
def State.pfxFirst (s : State) (c : Nat) (m : Cmd) : Prop := s.prefixLine = [] ∨ s.prefixLine.head? = some (c, m.id)

/-- R420 to R423: the prefix commands, whose table, query block, tokens and pages are in the TLB. PFXLK writes the pages of the blocks that the table holds, from
the first on, and their number, and pins them if it is asked to; PFXINS adds the blocks that the table does not hold; PIN and UNPIN raise or lower PINS of every block
named, or of none. A query that breaks its rules gets STATUS 2, a full table 4, a block that is absent 5, one that is not pinned 6. Here no block's PINS leaves 0 or comes
to it; of the leaves then, the next. -/
def prefixCommands : Prop :=
  ∀ (i : Instr) (o : SeOps) (s : State) (c q a : Nat) (m : Cmd) (p : Nat → Space × Nat) (bs : List Byte) (y : Query) (hs : List W64)
    (f : Nat → PfxEntry) (l : List (Nat × PfxEntry)) (up : Bool), i ∈ [Instr.pfxlk o, .pfxins o, .pin o, .unpin o] → s.starts c q i o m → s.pfxFirst c m →
    a = (m.val 0).toNat → s.mapped c p { r := true } a 64 → s.mapped c p { w := true } (a + 0x0C) 24 →
    bs = (List.range 64).map (fun k => s.byteAt (p (a + k)).1 (p (a + k)).2) → y = queryOf bs →
    (y.ok bs (decide (i = .pin o ∨ i = .unpin o)) = false → ∃ t, s.commandDone i c q m (vaPuts p (words [(a + 0x0C, 2)]) s.byteAt) t) ∧
    (y.ok bs (decide (i = .pin o ∨ i = .unpin o)) = true → s.mapped c p { r := true } y.tokens.toNat (64 * y.n) →
      s.mapped c p { r := true, w := i != .pfxlk o || y.flags != 0 } s.prefixBase.toNat (32 * s.prefixSize) →
      (i = .pfxlk o → s.mapped c p { w := true } y.pages.toNat (8 * y.n)) → (i = .pfxins o → s.mapped c p { r := true } y.pages.toNat (8 * y.n)) →
      hs = hashesOf y.n ((List.range (16 * y.n)).map (fun k => vaNum s.byteAt p (y.tokens.toNat + 4 * k) 4)) → (f = s.pfxEntry s.byteAt p) →
      (i = .pfxlk o → y.flags = 0 → l = s.pfxRun f y.model hs →
        ∃ t, s.commandDone i c q m (vaPuts p (l.zipIdx.map (fun e => (y.pages.toNat + 8 * e.2, leBytes 8 e.1.2.page)) ++
          words [(a + 0x20, l.length), (a + 0x0C, 0)]) s.byteAt) t) ∧
      (i = .pfxlk o → y.flags = 1 → l = s.pfxRun f y.model hs → (∀ e ∈ l, 1 ≤ e.2.pins) →
        (∀ j k, j < 32 * s.prefixSize → k < 32 * s.prefixSize → p (s.prefixBase.toNat + j) = p (s.prefixBase.toNat + k) → j = k) →
        ∃ t, s.commandDone i c q m (vaPuts p (l.zipIdx.map (fun e => (y.pages.toNat + 8 * e.2, leBytes 8 e.1.2.page)) ++
          words [(a + 0x20, l.length), (a + 0x0C, 0)]) (s.pinAll p true (l.map (·.1)) s.byteAt)) t) ∧
      (i = .pfxins o → ∃ t, s.commandDone i c q m (vaPuts p (
        (s.pfxAdds f (fun k => vaNum s.byteAt p (y.pages.toNat + 8 * k) 8) y.model 0 hs).1.map (fun e => (s.prefixBase.toNat + 32 * e.1,
          leBytes 8 e.2.hash.toNat ++ leBytes 8 e.2.page ++ leBytes 4 e.2.model ++ leBytes 4 0)) ++
        words (if (s.pfxAdds f (fun k => vaNum s.byteAt p (y.pages.toNat + 8 * k) 8) y.model 0 hs).2 then
          [(a + 0x20, (s.pfxAdds f (fun k => vaNum s.byteAt p (y.pages.toNat + 8 * k) 8) y.model 0 hs).1.length), (a + 0x0C, 0)]
          else [(a + 0x0C, 4)])) s.byteAt) t) ∧
      ((i = .pin o ∨ i = .unpin o) → (up = true ↔ i = .pin o) → l = s.pfxRun f y.model (hs.take y.nblk) →
        (l.length < y.nblk → ∃ t, s.commandDone i c q m (vaPuts p (words [(a + 0x0C, 5)]) s.byteAt) t) ∧
        (l.length = y.nblk → up = false → (∃ e ∈ l, e.2.pins = 0) → ∃ t, s.commandDone i c q m (vaPuts p (words [(a + 0x0C, 6)]) s.byteAt) t) ∧
        (l.length = y.nblk → (∀ e ∈ l, (if up then 1 else l.length + 1) ≤ e.2.pins) →
          (∀ j k, j < 32 * s.prefixSize → k < 32 * s.prefixSize → p (s.prefixBase.toNat + j) = p (s.prefixBase.toNat + k) → j = k) →
          ∃ t, s.commandDone i c q m (vaPuts p (words [(a + 0x0C, 0)]) (s.pinAll p up (l.map (·.1)) s.byteAt)) t)))

/-- R422, R423: PIN of one block that nothing pins sets P in every slot of the leaf that maps its page, and UNPIN of one that is pinned once clears it. A command
waits while another one is at the unit. -/
def pinnedLeaves : Prop :=
  (∀ (i : Instr) (o : SeOps) (s v : State) (c q a e slot n first : Nat) (m : Cmd) (p : Nat → Space × Nat) (bs : List Byte) (y : Query) (h leaf : W64) (x : PfxEntry)
    (up : Bool), i ∈ [Instr.pin o, .unpin o] → (up = true ↔ i = .pin o) → s.starts c q i o m → s.pfxFirst c m →
    a = (m.val 0).toNat → s.mapped c p { r := true } a 64 → s.mapped c p { w := true } (a + 0x0C) 4 →
    bs = (List.range 64).map (fun k => s.byteAt (p (a + k)).1 (p (a + k)).2) → y = queryOf bs → y.ok bs true = true → y.nblk = 1 →
    s.mapped c p { r := true } y.tokens.toNat (64 * y.n) → s.mapped c p { r := true, w := true } s.prefixBase.toNat (32 * s.prefixSize) →
    hashesOf 1 ((List.range 16).map (fun k => vaNum s.byteAt p (y.tokens.toNat + 4 * k) 4)) = [h] →
    s.pfxFind (s.pfxEntry s.byteAt p) h y.model = .found e x → x.pins = (if up then 0 else 1) →
    v = s.hbmWrite none (p (s.prefixBase.toNat + 32 * e + 0x14)).2 (leBytes 4 (pinsOf up x.pins)) →
    v.walk (((BitVec.ofNat 64 x.page).setWidth 56).setWidth 64) = .leaf slot leaf → n = 2 ^ (if pteSz leaf < 9 then pteSz leaf else pteSz leaf - 9) →
    first = slot / (8 * n) * (8 * n) → v.hbmBadIn first (8 * n) = false → (∀ k b, k < 4 → b < 8 * n → p (a + 0x0C + k) ≠ (.hbm, first + b)) →
    ∃ t, exec i s = .next t ∧ t.cmdDone c q m 0 ∧
      (∀ k, k < n → t.hbmNat (first + 8 * k) 8 = if up then v.hbmNat (first + 8 * k) 8 ||| 0x10 else v.hbmNat (first + 8 * k) 8 - (v.hbmNat (first + 8 * k) 8 &&& 0x10)) ∧
      (∀ k, k < 4 → t.byteAt .hbm (p (a + 0x0C + k)).2 = 0)) ∧
  (∀ (i : Instr) (o : SeOps) (s : State) (c q : Nat) (m : Cmd) (z : Nat × Nat) (rest : List (Nat × Nat)), i ∈ [Instr.pfxlk o, .pfxins o, .pin o, .unpin o] →
    s.starts c q i o m → s.prefixLine = z :: rest → z ≠ (c, m.id) →
    exec i s = .next { s with again := [], read := [], pfxLine := if (z :: rest).contains (c, m.id) then z :: rest else (z :: rest) ++ [(c, m.id)] })

end Sys2Proof.Machine

/-- R239 to R242, R420 to R423: what the commands of the sequence queue do. -/
def Obligations.SequenceCommands : Prop := spliceCommands ∧ prefixCommands ∧ pinnedLeaves

/-! ## The lane stream -/

namespace Sys2Proof.Machine

/-- The fixed-latency lane instructions of the 64-bit and 96-bit words, with their opcodes (R95 to R97, R167). -/
def fixedLane (i : Instr) : Option (Nat × LaneOps) :=
  match i with
  | .laneNop o => some (0x001, o)
  | .laneMov o => some (0x002, o)
  | .laneAdd o => some (0x003, o)
  | .laneSub o => some (0x004, o)
  | .laneMul o => some (0x005, o)
  | .laneMulh o => some (0x006, o)
  | .laneMulhw o => some (0x007, o)
  | .laneMin o => some (0x008, o)
  | .laneMax o => some (0x009, o)
  | .laneMinw o => some (0x00A, o)
  | .laneMaxw o => some (0x00B, o)
  | .laneAnd o => some (0x00C, o)
  | .laneOr o => some (0x00D, o)
  | .laneXor o => some (0x00E, o)
  | .laneAndn o => some (0x00F, o)
  | .laneNot o => some (0x010, o)
  | .laneShl o => some (0x011, o)
  | .laneShr o => some (0x012, o)
  | .laneSar o => some (0x013, o)
  | .laneRot o => some (0x014, o)
  | .laneClz o => some (0x015, o)
  | .laneCtz o => some (0x016, o)
  | .lanePopc o => some (0x017, o)
  | .laneAbs o => some (0x018, o)
  | .laneNeg o => some (0x019, o)
  | .fadd o => some (0x01A, o)
  | .fsub o => some (0x01B, o)
  | .fmul o => some (0x01C, o)
  | .fmin o => some (0x01D, o)
  | .fmax o => some (0x01E, o)
  | .fabs o => some (0x01F, o)
  | .fneg o => some (0x020, o)
  | .cmpEq o => some (0x021, o)
  | .cmpNe o => some (0x022, o)
  | .cmpLt o => some (0x023, o)
  | .cmpLe o => some (0x024, o)
  | .cmpLtw o => some (0x025, o)
  | .cmpLew o => some (0x026, o)
  | .fcmpEq o => some (0x027, o)
  | .fcmpNe o => some (0x028, o)
  | .fcmpLt o => some (0x029, o)
  | .fcmpLe o => some (0x02A, o)
  | .fcmpUn o => some (0x02B, o)
  | .fcls o => some (0x02C, o)
  | .lid o => some (0x02D, o)
  | .vshape o => some (0x02E, o)
  | .mad o => some (0x040, o)
  | .fma o => some (0x041, o)
  | .sel o => some (0x042, o)
  | .bfe o => some (0x043, o)
  | .bfi o => some (0x044, o)
  | .cvt o => some (0x045, o)
  | .frnd o => some (0x046, o)
  | .fscale o => some (0x047, o)
  | .hadd2 o => some (0x048, o)
  | .hmul2 o => some (0x049, o)
  | .hfma2 o => some (0x04A, o)
  | .dqE4 o => some (0x04B, o)
  | .dqE5 o => some (0x04C, o)
  | .dqE3m2 o => some (0x04D, o)
  | .dqE2m3 o => some (0x04E, o)
  | .dqFp4 o => some (0x04F, o)
  | .dqI8 o => some (0x050, o)
  | .dqI4 o => some (0x051, o)
  | .dqPs8 o => some (0x052, o)
  | .dqPs4 o => some (0x053, o)
  | .frcp o => some (0x080, o)
  | .frsq o => some (0x081, o)
  | .fsqrt o => some (0x082, o)
  | .flog2 o => some (0x083, o)
  | .fexp2 o => some (0x084, o)
  | .ftanh o => some (0x085, o)
  | .shfl o => some (0x0C0, o)
  | .vote o => some (0x0C1, o)
  | .red o => some (0x0C2, o)
  | .scan o => some (0x0C3, o)
  | .vtos o => some (0x0C4, o)
  | .xpr o => some (0x0C5, o)
  | .rng o => some (0x0C6, o)
  | .stag o => some (0x10D, o)
  | .stagW o => some (0x10E, o)
  | .prf o => some (0x10F, o)
  | .rsAdd o => some (0x1C0, o)
  | .rsSub o => some (0x1C1, o)
  | .rsMul o => some (0x1C2, o)
  | .rsDiv o => some (0x1C3, o)
  | .rsNeg o => some (0x1C4, o)
  | .rsRcp o => some (0x1C5, o)
  | .rsUni o => some (0x1C6, o)
  | .rsIsc o => some (0x1C7, o)
  | .rsHas o => some (0x1C8, o)
  | .rsEq o => some (0x1C9, o)
  | .rsFromf o => some (0x1CA, o)
  | .rsLo o => some (0x1CB, o)
  | .rsHi o => some (0x1CC, o)
  | .rsWid o => some (0x1CD, o)
  | .rsPack o => some (0x1CE, o)
  | .rsUnp o => some (0x1CF, o)
  | _ => none

/-- The instructions of the 32-bit words (R99), with the opcode of the row that each shortens. -/
def shortLane (i : Instr) : Option (Nat × L32Ops) :=
  match i with
  | .laneNopL32 o => some (0x001, o)
  | .laneMovL32 o => some (0x002, o)
  | .laneAddL32 o => some (0x003, o)
  | .laneSubL32 o => some (0x004, o)
  | .laneMulL32 o => some (0x005, o)
  | .laneMulhL32 o => some (0x006, o)
  | .laneMulhwL32 o => some (0x007, o)
  | .laneMinL32 o => some (0x008, o)
  | .laneMaxL32 o => some (0x009, o)
  | .laneMinwL32 o => some (0x00A, o)
  | .laneMaxwL32 o => some (0x00B, o)
  | .laneAndL32 o => some (0x00C, o)
  | .laneOrL32 o => some (0x00D, o)
  | .laneXorL32 o => some (0x00E, o)
  | .laneAndnL32 o => some (0x00F, o)
  | .laneNotL32 o => some (0x010, o)
  | .laneShlL32 o => some (0x011, o)
  | .laneShrL32 o => some (0x012, o)
  | .laneSarL32 o => some (0x013, o)
  | .laneRotL32 o => some (0x014, o)
  | .laneClzL32 o => some (0x015, o)
  | .laneCtzL32 o => some (0x016, o)
  | .lanePopcL32 o => some (0x017, o)
  | .laneAbsL32 o => some (0x018, o)
  | .laneNegL32 o => some (0x019, o)
  | .faddL32 o => some (0x01A, o)
  | .fsubL32 o => some (0x01B, o)
  | .fmulL32 o => some (0x01C, o)
  | .fminL32 o => some (0x01D, o)
  | .fmaxL32 o => some (0x01E, o)
  | .fabsL32 o => some (0x01F, o)
  | .fnegL32 o => some (0x020, o)
  | .cmpEqL32 o => some (0x021, o)
  | .cmpNeL32 o => some (0x022, o)
  | .cmpLtL32 o => some (0x023, o)
  | .cmpLeL32 o => some (0x024, o)
  | .cmpLtwL32 o => some (0x025, o)
  | .cmpLewL32 o => some (0x026, o)
  | .fcmpEqL32 o => some (0x027, o)
  | .fcmpNeL32 o => some (0x028, o)
  | .fcmpLtL32 o => some (0x029, o)
  | .fcmpLeL32 o => some (0x02A, o)
  | .fcmpUnL32 o => some (0x02B, o)
  | .fclsL32 o => some (0x02C, o)
  | .lidL32 o => some (0x02D, o)
  | .vshapeL32 o => some (0x02E, o)
  | _ => none

/-- The registers that `n` consecutive names from field `f` on read in a clause, when none of them pops a queue: a name that a long-latency instruction of the
clause is to write reads its prior value (R37); the lane index (1020), zero (1021), all ones (1022) and the literal (1023) stand in the first name, with zero above
them (R97). -/
def Group.operands (x : Group) (r : Running) (f : BitVec 10) (lit : W32) (n : Nat) : List LaneReg :=
  (List.range n).map (fun k =>
    if f.toNat < 1020 then r.prior.get (x.reg (f.toNat + k)) (f.toNat + k)
    else if k = 0 then (if f = 1020 then .a 0 1 else if f = 1022 then .u 0xFFFFFFFF else if f = 1023 then .u lit else .u 0)
    else .u 0)

/-- The lanes that are active for a word with mask field `m` in the clause `r`: those of R34, and for a FUT.RD that goes on after a trap those it had (R275). -/
def Group.activeLanes (x : Group) (r : Running) (m : BitVec 4) : W64 :=
  r.retry.getD (r.exec &&& (if m = 0 then BitVec.allOnes 64 else r.priorM.get (x.mask m.toNat) m.toNat)) &&& low64 x.desc.w

/-- The source fields of a lane word in order, with the number of names that each reads; xpr has a fifth in its literal (R101). -/
def sourceFields (op : Nat) (o : LaneOps) (u : Uses) : List (BitVec 10 × Nat) :=
  [(o.a, u.a.reads), (o.b, u.b.reads), (o.c, u.c.reads), (o.d, u.d.reads)] ++
    if op = 0x0C5 then [(BitVec.ofNat 10 ((o.lit.getD 0).toNat / 2 ^ 22), 1)] else []

/-- The lane registers that they read, and the queues that they pop (R69). -/
def Group.sources (x : Group) (op : Nat) (o : LaneOps) (u : Uses) : List Nat := (sourceFields op o u).flatMap (fun p => x.namesOf p.1 p.2)
def Group.popped (x : Group) (op : Nat) (o : LaneOps) (u : Uses) : List Nat := (sourceFields op o u).flatMap (fun p => x.popsOf p.1 p.2)

/-- What `n` names from field `f` on read, and the group afterwards: a name that is a queue pop takes the oldest entry of its queue, as a general register (R66, R69). -/
def Group.takes (x : Group) (r : Running) (f : BitVec 10) (lit : W32) (n : Nat) : List LaneReg × Group :=
  (List.range n).foldl (fun y k =>
    match x.popOf (f.toNat + k) with
    | some q => (y.1 ++ [.g (((y.2.oq.get [] q).headD (.u 0)).expand x.desc.w)], { y.2 with oq := y.2.oq.put q (y.2.oq.get [] q).tail })
    | none => (y.1 ++ [(x.operands r f lit n).getD k (.u 0)], y.2)) ([], x)

/-- R34, R37, R96, R97, R101, R69, R238: the operands of a lane word. A legal word of the clause in hand that waits for nothing reads its fields in order: names read
their registers, the constants read as R97 says, and a name that is a queue pop takes the oldest entry of its queue, as a general register; while a queue holds fewer
entries than the word pops, the word waits. A source that holds an uncorrectable error is the machine check, where a lane is active (log 97: with physical
address 0). -/
def laneOperands : Prop :=
  ∀ (op : Nat) (o : LaneOps) (s : State) (g sp : Nat) (h : Bool) (r : Running) (u : Uses), s.cur = .lane g sp → (s.split g sp).issuing = some (h, r) →
    laneUses op o.mod.toNat = some u → laneLegal op o = true → r.flagOk o.fl = true → (s.grp g).popsOf o.d u.d.writes = [] →
    ((∃ q, ((s.grp g).oq.get [] q).length < ((s.grp g).popped op o u).count q) → s.laneFront op o = .error (.next s)) ∧
    ((∀ q, ((s.grp g).popped op o u).count q ≤ ((s.grp g).oq.get [] q).length) →
      (u.d.writes = 0 ∨ ((s.grp g).regBusy o.d.toNat u.d.writes = false ∧ ∀ k, k < u.d.writes → o.d.toNat + k ∉ s.heldRegs g)) →
      (u.d = .maskW → (s.grp g).maskBusy o.d.toNat = false) →
      (∀ a b c d e, (s.grp g).activeLanes r o.mask = 0 ∨ (∀ n ∈ (s.grp g).sources op o u, n ∉ (s.grp g).vBad) → a = (s.grp g).takes r o.a 0 u.a.reads →
        b = a.2.takes r o.b (o.lit.getD 0) u.b.reads → c = b.2.takes r o.c 0 u.c.reads → d = c.2.takes r o.d 0 u.d.reads →
        e = (if op = 0x0C5 then d.2.takes r (BitVec.ofNat 10 ((o.lit.getD 0).toNat / 2 ^ 22)) 0 1 else ([], d.2)) →
        ∃ v, s.laneFront op o = .ok v ∧ v.g = g ∧ v.sp = sp ∧ v.handler = h ∧ v.run = r ∧ v.w = (s.grp g).desc.w ∧
          v.act = (s.grp g).activeLanes r o.mask ∧ v.x = e.2 ∧ v.a = a.1 ∧ v.b = b.1 ∧ v.c = c.1 ∧ v.d = d.1 ∧ v.e = e.1.headD (.u 0)) ∧
      ((s.grp g).activeLanes r o.mask ≠ 0 → (∃ n ∈ (s.grp g).sources op o u, n ∈ (s.grp g).vBad) →
        s.laneFront op o = .error (.next (s.machineCheck g sp 0 0 (BitVec.ofNat 8 r.off ++ r.addr.setWidth 56)
          ((s.grp g).activeLanes r o.mask) 0xFF))))

/-- R96, R97, R103, R107 to R111: a lane word with a field that its instruction does not allow, with a flag that the clause does not name, or with a
destination that is a queue pop, is the illegal-instruction trap, with the active lanes as its mask and the word's place in its clause. -/
def laneIllegal : Prop :=
  ∀ (i : Instr) (op : BitVec 10) (o : LaneOps) (s : State) (g sp : Nat) (h : Bool) (r : Running), laneOf i = some (op, o) →
    s.cur = .lane g sp → (s.split g sp).issuing = some (h, r) →
    (laneLegal op.toNat o = false ∨ r.flagOk o.fl = false ∨
      (∃ u, laneUses op.toNat o.mod.toNat = some u ∧ (s.grp g).popsOf o.d u.d.writes ≠ [])) →
    exec i s = .next (s.fatal g 0x10 (BitVec.ofNat 8 r.off ++ r.addr.setWidth 56) ((s.grp g).activeLanes r o.mask) 0 sp)

end Sys2Proof.Machine

/-- R34, R97, R104: the operands of a lane code, and the codes that trap (log 97: the machine check of a register names physical address 0). -/
def Obligations.LaneFront : Prop := laneOperands ∧ laneIllegal

namespace Sys2Proof.Machine

/-- The fixed-latency instruction that a lane code issues, with its 64-bit fields: those words themselves, their short forms (R99), and the short no-operation
(R100). -/
def fixedWord (i : Instr) : Option (Nat × LaneOps) :=
  match fixedLane i, shortLane i with
  | some x, _ => some x
  | none, some (op, o) => if shortLegal op o then some (op, shortToLane op o) else none
  | none, none =>
    match i with
    | .laneNopL16 _ => some (0x001, { mod := 0, fl := 0, mask := 0, c := 1021, b := 1021, a := 1021, d := 1021, lit := none })
    | _ => none

/-- How many registers from its field D on a lane word writes. -/
def laneWrites (op : Nat) (o : LaneOps) : Nat := ((laneUses op o.mod.toNat).map (fun u => u.d.writes)).getD 0

/-- The mask register that a lane word writes. -/
def laneMask (op : Nat) (o : LaneOps) : Option Nat :=
  match laneUses op o.mod.toNat with
  | some u => if u.d = .maskW then some o.d.toNat else none
  | none => none

/-- The clause goes on reading `n` names from `d` on, and mask `m`, as `x` holds them: a long-latency instruction of it is to write them (R37). -/
def LaneEnv.notes (e : LaneEnv) (d n : Nat) (m : Option Nat) (pr : Map LaneReg) (pm : Map W64) : Prop :=
  (∀ k z, pr.get z k = if d ≤ k ∧ k < d + n then e.x.reg k else e.run.prior.get z k) ∧
  (∀ k z, pm.get z k = if m = some k then e.x.mask k else e.run.priorM.get z k)

/-- The clause reads what it has itself written into `n` names from `d` on, and mask `m`; of the others it reads what it read before (R37). -/
def LaneEnv.forgets (e : LaneEnv) (d n : Nat) (m : Option Nat) (pr : Map LaneReg) (pm : Map W64) : Prop :=
  (∀ k z, pr.get z k = if e.act ≠ 0 ∧ d ≤ k ∧ k < d + n then z else e.run.prior.get z k) ∧
  (∀ k z, pm.get z k = if e.act ≠ 0 ∧ m = some k then z else e.run.priorM.get z k)

/-- From `s` to `t` the clause in hand goes past its word, and its queue entry leaves with the last one (R33, R35); `keeps` says what it goes on reading (R37). -/
def State.clauseMoves (s t : State) (e : LaneEnv) (keeps : Map LaneReg → Map W64 → Prop) : Prop :=
  let off := e.run.off + s.fetchLen / 2
  ∃ pr pm, keeps pr pm ∧
  (e.handler = false → (t.split e.g e.sp).run = (if off < e.run.len then some { e.run with off := off, retry := none, prior := pr, priorM := pm } else none) ∧
    (t.split e.g e.sp).queue = (if off < e.run.len then (s.split e.g e.sp).queue else (s.split e.g e.sp).queue.tail) ∧
    (t.split e.g e.sp).hrun = (s.split e.g e.sp).hrun ∧ (t.split e.g e.sp).hqueue = (s.split e.g e.sp).hqueue) ∧
  (e.handler = true → (t.split e.g e.sp).hrun = (if off < e.run.len then some { e.run with off := off, retry := none, prior := pr, priorM := pm } else none) ∧
    (t.split e.g e.sp).hqueue = (if off < e.run.len then (s.split e.g e.sp).hqueue else (s.split e.g e.sp).hqueue.tail) ∧
    (t.split e.g e.sp).run = (s.split e.g e.sp).run ∧ (t.split e.g e.sp).queue = (s.split e.g e.sp).queue)

/-- From `s` to `t` the group's lane registers change in at most `n` names from `d` on, its masks in at most `m`, both in active lanes only; its scalar
registers, accesses, counters, flags, guards and modes, every other group and every byte of memory stay. -/
def State.laneKeeps (s t : State) (e : LaneEnv) (d n : Nat) (m : Option Nat) : Prop :=
  (∀ r, r < d ∨ d + n ≤ r → (t.grp e.g).reg r = (s.grp e.g).reg r) ∧
  (∀ r l, l < e.w → l < 64 → e.act.getLsbD l = false → ((t.grp e.g).reg r).lane l = ((s.grp e.g).reg r).lane l) ∧
  (∀ k, m ≠ some k → (t.grp e.g).mask k = (s.grp e.g).mask k) ∧
  (∀ k l, l < e.w → e.act.getLsbD l = false → ((t.grp e.g).mask k).getLsbD l = ((s.grp e.g).mask k).getLsbD l) ∧
  (t.grp e.g).acc = (s.grp e.g).acc ∧ (t.grp e.g).counters = (s.grp e.g).counters ∧ (t.grp e.g).flags = (s.grp e.g).flags ∧
  (t.grp e.g).guards = (s.grp e.g).guards ∧ (t.grp e.g).tflags = (s.grp e.g).tflags ∧ (t.grp e.g).fpctl = (s.grp e.g).fpctl ∧
  (s.grp e.g).fpstat ||| (t.grp e.g).fpstat = (t.grp e.g).fpstat ∧
  (t.split e.g e.sp).regs = (s.split e.g e.sp).regs ∧ (t.split e.g e.sp).spc = (s.split e.g e.sp).spc ∧
  (t.split e.g e.sp).exec = (s.split e.g e.sp).exec ∧ (∀ p, p ≠ e.sp → t.split e.g p = s.split e.g p) ∧
  (∀ g, g ≠ e.g → t.grp g = s.grp g) ∧ s.sameBytes t

/-- R34, R66, R167, R173: a fixed-latency lane instruction whose destinations may hold any shape completes: its clause goes on, it writes only its own
registers or mask, in the active lanes, and FPSTAT only gains bits. -/
def laneFixedCompletes : Prop :=
  ∀ (i : Instr) (op : Nat) (o : LaneOps) (s : State) (e : LaneEnv), fixedWord i = some (op, o) → s.laneFront op o = .ok e →
    (∀ k, k < laneWrites op o → o.d.toNat + k < (s.grp e.g).desc.gcount) →
    ∃ t, exec i s = .next t ∧ s.clauseMoves t e (e.forgets o.d.toNat (laneWrites op o) (laneMask op o)) ∧ s.laneKeeps t e o.d.toNat (laneWrites op o) (laneMask op o)

/-- R100, R106: a dictionary code issues the kernel's entry with 8 × REB added to its lane registers, as that entry's own word would issue; an IDX above
DCOUNT, or a sum of 640 or more, is the illegal-instruction trap. -/
def dictionaryCodes : Prop :=
  ∀ (reb : BitVec 4) (idx : BitVec 10) (s : State) (g sp : Nat), s.cur = .lane g sp →
    (∀ (i : Instr) (op : Nat) (u o : LaneOps) (e : LaneEnv), s.dictEntry g idx.toNat = some (op, u) → rebase op reb u = some o →
      fixedLane i = some (op, o) → s.laneFront op o = .ok e →
      (∀ k, k < laneWrites op o → o.d.toNat + k < (s.grp e.g).desc.gcount) →
      ∃ t, exec (.dictionaryCode reb idx) s = .next t ∧ exec i s = .next t ∧
        s.clauseMoves t e (e.forgets o.d.toNat (laneWrites op o) (laneMask op o))) ∧
    (∀ (h : Bool) (r : Running), (s.split g sp).issuing = some (h, r) → (s.grp g).desc.dcount < idx.toNat →
      exec (.dictionaryCode reb idx) s = .next (s.fatal g 0x10 (BitVec.ofNat 8 r.off ++ r.addr.setWidth 56)
        ((s.grp g).activeLanes r 0) 0 sp)) ∧
    (∀ (h : Bool) (r : Running) (op : Nat) (u : LaneOps), (s.split g sp).issuing = some (h, r) → s.dictEntry g idx.toNat = some (op, u) →
      rebase op reb u = none → exec (.dictionaryCode reb idx) s = .next (s.fatal g 0x10 (BitVec.ofNat 8 r.off ++ r.addr.setWidth 56)
        ((s.grp g).activeLanes r u.mask) 0 sp))

end Sys2Proof.Machine

/-- R34, R66, R99, R100, R106, R167: lane instructions of fixed latency, their short words, and dictionary codes. -/
def Obligations.LaneFixed : Prop := laneFixedCompletes ∧ dictionaryCodes

namespace Sys2Proof.Machine

/-- What each integer instruction computes in a lane from A, B and C, with MOD 0 (R170, R172); `pos` and `len` of bfe and bfi stand in B. -/
def laneValue (i : Instr) : Option (Nat × LaneOps × (W32 → W32 → W32 → W32)) :=
  match i with
  | .laneMov o => some (0x002, o, fun a _ _ => a)
  | .laneAdd o => some (0x003, o, fun a b _ => a + b)
  | .laneSub o => some (0x004, o, fun a b _ => a - b)
  | .laneMul o => some (0x005, o, fun a b _ => a * b)
  | .laneMulh o => some (0x006, o, fun a b _ => BitVec.ofInt 32 (a.toInt * b.toInt / 2 ^ 32))
  | .laneMulhw o => some (0x007, o, fun a b _ => BitVec.ofNat 32 (a.toNat * b.toNat / 2 ^ 32))
  | .laneMin o => some (0x008, o, fun a b _ => if a.toInt ≤ b.toInt then a else b)
  | .laneMax o => some (0x009, o, fun a b _ => if a.toInt ≤ b.toInt then b else a)
  | .laneMinw o => some (0x00A, o, fun a b _ => if a.toNat ≤ b.toNat then a else b)
  | .laneMaxw o => some (0x00B, o, fun a b _ => if a.toNat ≤ b.toNat then b else a)
  | .laneAnd o => some (0x00C, o, fun a b _ => a &&& b)
  | .laneOr o => some (0x00D, o, fun a b _ => a ||| b)
  | .laneXor o => some (0x00E, o, fun a b _ => a ^^^ b)
  | .laneAndn o => some (0x00F, o, fun a b _ => a &&& ~~~b)
  | .laneNot o => some (0x010, o, fun a _ _ => ~~~a)
  | .laneShl o => some (0x011, o, fun a b _ => a <<< (b.toNat % 32))
  | .laneShr o => some (0x012, o, fun a b _ => a >>> (b.toNat % 32))
  | .laneSar o => some (0x013, o, fun a b _ => a.sshiftRight (b.toNat % 32))
  | .laneRot o => some (0x014, o, fun a b _ => a.rotateRight (b.toNat % 32))
  | .lanePopc o => some (0x017, o, fun a _ _ => BitVec.ofNat 32 ((List.range 32).filter (fun k => a.getLsbD k)).length)
  | .laneAbs o => some (0x018, o, fun a _ _ => if a.msb then -a else a)
  | .laneNeg o => some (0x019, o, fun a _ _ => -a)
  | .mad o => some (0x040, o, fun a b c => a * b + c)
  | .bfe o => some (0x043, o, fun a b _ =>
      let len := min (b.toNat / 256 % 64) (32 - b.toNat % 32)
      (a >>> (b.toNat % 32)) &&& BitVec.ofNat 32 (2 ^ len - 1))
  | .bfi o => some (0x044, o, fun a b c =>
      let len := min (b.toNat / 256 % 64) (32 - b.toNat % 32)
      let m : W32 := BitVec.ofNat 32 (2 ^ len - 1) <<< (b.toNat % 32)
      (c &&& ~~~m) ||| ((a <<< (b.toNat % 32)) &&& m))
  | _ => none

/-- R170, R172: the integer and bit instructions with MOD 0: in every active lane the destination holds the value of A, B and C there; `mov`, and `sel` by its
mask register. -/
def laneIntegerValues : Prop :=
  (∀ (i : Instr) (op : Nat) (o : LaneOps) (f : W32 → W32 → W32 → W32) (s : State) (e : LaneEnv), laneValue i = some (op, o, f) → o.mod = 0 →
    s.laneFront op o = .ok e → o.d.toNat < (s.grp e.g).desc.gcount →
    ∃ t, exec i s = .next t ∧ ∀ l, e.act.getLsbD l = true → ((t.grp e.g).reg o.d.toNat).lane l = f (e.av l) (e.bv l) (e.cv l)) ∧
  (∀ (o : LaneOps) (s : State) (e : LaneEnv), s.laneFront 0x042 o = .ok e → o.d.toNat < (s.grp e.g).desc.gcount →
    ∃ t, exec (.sel o) s = .next t ∧ ∀ l, e.act.getLsbD l = true → ((t.grp e.g).reg o.d.toNat).lane l =
      if (e.run.priorM.get ((s.grp e.g).mask o.c.toNat) o.c.toNat).getLsbD l then e.av l else e.bv l) ∧
  (∀ (o : LaneOps) (s : State) (e : LaneEnv), s.laneFront 0x02D o = .ok e → o.d.toNat < (s.grp e.g).desc.gcount →
    ∃ t, exec (.lid o) s = .next t ∧ ∀ l, e.act.getLsbD l = true → ((t.grp e.g).reg o.d.toNat).lane l =
      BitVec.ofNat 32 ((s.grp e.g).gid * (s.grp e.g).desc.w + l))

/-- The forms of MOD 1 and 2: the saturating ones, and bfe's sign extension (R168, R170, R172). -/
def laneForm (i : Instr) : List (Nat × LaneOps × BitVec 6 × (W32 → W32 → W32)) :=
  let signed := fun (v : Int) => BitVec.ofInt 32 (max (-2 ^ 31) (min (2 ^ 31 - 1) v))
  let unsigned := fun (v : Int) => BitVec.ofInt 32 (max 0 (min (2 ^ 32 - 1) v))
  match i with
  | .laneAdd o => [(0x003, o, 1, fun a b => signed (a.toInt + b.toInt)), (0x003, o, 2, fun a b => unsigned (a.toNat + b.toNat))]
  | .laneSub o => [(0x004, o, 1, fun a b => signed (a.toInt - b.toInt)), (0x004, o, 2, fun a b => unsigned (a.toNat - b.toNat))]
  | .laneAbs o => [(0x018, o, 1, fun a _ => signed (if a.toInt < 0 then -a.toInt else a.toInt))]
  | .laneNeg o => [(0x019, o, 1, fun a _ => signed (-a.toInt))]
  | .bfe o => [(0x043, o, 1, fun a b =>
      let pos := b.toNat % 32
      let len := min (b.toNat / 256 % 64) (32 - pos)
      let v : Int := (a.toNat / 2 ^ pos % 2 ^ len : Nat)
      BitVec.ofInt 32 (if len ≠ 0 ∧ a.getLsbD (pos + len - 1) then v - 2 ^ len else v))]
  | _ => []

/-- The `.b64` forms: what the pair D holds, from the pairs A and B and from the single register B (R170, R171). -/
def lanePair (i : Instr) : Option (Nat × LaneOps × (W64 → W64 → W32 → W64)) :=
  match i with
  | .laneMov o => some (0x002, o, fun a _ _ => a)
  | .laneAdd o => some (0x003, o, fun a b _ => a + b)
  | .laneSub o => some (0x004, o, fun a b _ => a - b)
  | .laneAnd o => some (0x00C, o, fun a b _ => a &&& b)
  | .laneOr o => some (0x00D, o, fun a b _ => a ||| b)
  | .laneXor o => some (0x00E, o, fun a b _ => a ^^^ b)
  | .laneAndn o => some (0x00F, o, fun a b _ => a &&& ~~~b)
  | .laneNot o => some (0x010, o, fun a _ _ => ~~~a)
  | .laneShl o => some (0x011, o, fun a _ n => a <<< (n.toNat % 64))
  | .laneShr o => some (0x012, o, fun a _ n => a >>> (n.toNat % 64))
  | .laneSar o => some (0x013, o, fun a _ n => a.sshiftRight (n.toNat % 64))
  | .laneRot o => some (0x014, o, fun a _ n => a.rotateRight (n.toNat % 64))
  | _ => none

/-- R168, R170 to R172: the counts of leading and trailing zeros, the saturating forms, bfe.sx, and the `.b64` forms, in every active lane. -/
def laneIntegerForms : Prop :=
  (∀ (o : LaneOps) (s : State) (e : LaneEnv), o.d.toNat < (s.grp e.g).desc.gcount →
    (s.laneFront 0x015 o = .ok e → ∃ t, exec (.laneClz o) s = .next t ∧ ∀ l, e.act.getLsbD l = true →
      ∃ n, n ≤ 32 ∧ ((t.grp e.g).reg o.d.toNat).lane l = BitVec.ofNat 32 n ∧ (∀ k, k < n → (e.av l).getLsbD (31 - k) = false) ∧
        (n < 32 → (e.av l).getLsbD (31 - n) = true)) ∧
    (s.laneFront 0x016 o = .ok e → ∃ t, exec (.laneCtz o) s = .next t ∧ ∀ l, e.act.getLsbD l = true →
      ∃ n, n ≤ 32 ∧ ((t.grp e.g).reg o.d.toNat).lane l = BitVec.ofNat 32 n ∧ (∀ k, k < n → (e.av l).getLsbD k = false) ∧
        (n < 32 → (e.av l).getLsbD n = true))) ∧
  (∀ (i : Instr) (op : Nat) (o : LaneOps) (m : BitVec 6) (f : W32 → W32 → W32) (s : State) (e : LaneEnv), (op, o, m, f) ∈ laneForm i → o.mod = m →
    s.laneFront op o = .ok e → o.d.toNat < (s.grp e.g).desc.gcount →
    ∃ t, exec i s = .next t ∧ ∀ l, e.act.getLsbD l = true → ((t.grp e.g).reg o.d.toNat).lane l = f (e.av l) (e.bv l)) ∧
  (∀ (i : Instr) (op : Nat) (o : LaneOps) (f : W64 → W64 → W32 → W64) (s : State) (e : LaneEnv), lanePair i = some (op, o, f) → o.mod = 32 →
    s.laneFront op o = .ok e → o.d.toNat + 1 < (s.grp e.g).desc.gcount →
    ∃ t, exec i s = .next t ∧ ∀ l, e.act.getLsbD l = true →
      ((t.grp e.g).reg (o.d.toNat + 1)).lane l ++ ((t.grp e.g).reg o.d.toNat).lane l = f (pairLane e.a l) (pairLane e.b l) (e.bv l))

/-- Whether a binary32 code is a NaN (R288). -/
def nanLane (v : W32) : Bool := decide (0x7F800000 < v.toNat % 0x80000000)

/-- Whether it is a signalling NaN: bit 22 is 0 (R169, R288). -/
def sigLane (v : W32) : Bool := nanLane v && !v.getLsbD 22

/-- A binary32 code that is no NaN, as a number that orders as its value does: both zeros are 0; with FTZ a subnormal is too (R169, R173). -/
def laneOrder (ftz : Bool) (v : W32) : Int :=
  let m := v.toNat % 0x80000000
  if ftz && decide (m < 0x800000) then 0 else if v.msb then -(m : Int) else m

/-- The condition of each comparison on two lane values (R173); `none` where it is not an integer comparison or `fcmp.un`. -/
def laneCompare (i : Instr) : Option (Nat × LaneOps × (W32 → W32 → Bool)) :=
  match i with
  | .cmpEq o => some (0x021, o, fun a b => decide (a = b))
  | .cmpNe o => some (0x022, o, fun a b => decide (a ≠ b))
  | .cmpLt o => some (0x023, o, fun a b => decide (a.toInt < b.toInt))
  | .cmpLe o => some (0x024, o, fun a b => decide (a.toInt ≤ b.toInt))
  | .cmpLtw o => some (0x025, o, fun a b => decide (a.toNat < b.toNat))
  | .cmpLew o => some (0x026, o, fun a b => decide (a.toNat ≤ b.toNat))
  | .fcmpUn o => some (0x02B, o, fun a b => nanLane a || nanLane b)
  | _ => none

/-- R173: a comparison writes the condition into its mask register in every active lane; `fcmp.eq` and `fcmp.ne` of a NaN are false and true, and a NaN
operand of `fcmp.lt` or `fcmp.le` makes it false. Of two numbers they compare the values, with a subnormal as zero under FTZ. NV is set for a signalling NaN, and
by `fcmp.lt` and `fcmp.le` for any NaN; no other flag changes. -/
def laneComparisons : Prop :=
  (∀ (i : Instr) (op : Nat) (o : LaneOps) (f : W32 → W32 → Bool) (s : State) (e : LaneEnv), laneCompare i = some (op, o, f) →
    s.laneFront op o = .ok e → ∃ t, exec i s = .next t ∧
      ∀ l, e.act.getLsbD l = true → ((t.grp e.g).mask o.d.toNat).getLsbD l = f (e.av l) (e.bv l)) ∧
  (∀ (i : Instr) (op : Nat) (o : LaneOps) (v : Bool) (f : Int → Int → Bool) (s : State) (e : LaneEnv),
    (i, op, v, f) ∈ [(Instr.fcmpEq o, 0x027, false, fun a b => decide (a = b)), (.fcmpNe o, 0x028, true, fun a b => decide (a ≠ b)),
      (.fcmpLt o, 0x029, false, fun a b => decide (a < b)), (.fcmpLe o, 0x02A, false, fun a b => decide (a ≤ b))] →
    s.laneFront op o = .ok e → ∃ t, exec i s = .next t ∧
      ∀ l, e.act.getLsbD l = true → ((t.grp e.g).mask o.d.toNat).getLsbD l =
        if (nanLane (e.av l) || nanLane (e.bv l)) = true then v
        else f (laneOrder (e.run.fpctl.getLsbD 2) (e.av l)) (laneOrder (e.run.fpctl.getLsbD 2) (e.bv l))) ∧
  (∀ (i : Instr) (op : Nat) (o : LaneOps) (s : State) (e : LaneEnv),
    (i, op) ∈ [(Instr.fcmpEq o, 0x027), (.fcmpNe o, 0x028), (.fcmpLt o, 0x029), (.fcmpLe o, 0x02A), (.fcmpUn o, 0x02B)] →
    s.laneFront op o = .ok e → ∃ t, exec i s = .next t ∧
      (∀ k, k ≠ 0 → (t.grp e.g).fpstat.getLsbD k = (s.grp e.g).fpstat.getLsbD k) ∧
      ((t.grp e.g).fpstat.getLsbD 0 = true ↔ (s.grp e.g).fpstat.getLsbD 0 = true ∨ ∃ l, e.act.getLsbD l = true ∧
        (sigLane (e.av l) || sigLane (e.bv l) || ((op == 0x029 || op == 0x02A) && (nanLane (e.av l) || nanLane (e.bv l)))) = true))

end Sys2Proof.Machine

/-- R168, R170 to R173: the integers and comparisons of lanes. -/
def Obligations.LaneValues : Prop := laneIntegerValues ∧ laneIntegerForms ∧ laneComparisons

namespace Sys2Proof.Machine

/-- R169, R175, R176: fadd, fsub, fmul and fma of a NaN give the canonical NaN; an infinity less itself and zero by infinity are invalid, and set NV; fabs and
fneg change only the sign bit; a sum and a product do not depend on the order of their operands. -/
def laneFloatInvalid : Prop :=
  (∀ (i : Instr) (op : Nat) (o : LaneOps) (s : State) (e : LaneEnv),
    (i, op) ∈ [(Instr.fadd o, 0x01A), (.fsub o, 0x01B), (.fmul o, 0x01C), (.fma o, 0x041)] → s.laneFront op o = .ok e →
    o.d.toNat < (s.grp e.g).desc.gcount → ∃ t, exec i s = .next t ∧
      (∀ l, e.act.getLsbD l = true → (nanLane (e.av l) || nanLane (e.bv l) || (op == 0x041 && nanLane (e.cv l))) = true →
        ((t.grp e.g).reg o.d.toNat).lane l = 0x7FC00000) ∧
      (∀ l, e.act.getLsbD l = true → ((op = 0x01A ∧ e.av l = 0x7F800000 ∧ e.bv l = 0xFF800000) ∨
          (op = 0x01B ∧ e.av l = 0x7F800000 ∧ e.bv l = 0x7F800000) ∨ ((op = 0x01C ∨ op = 0x041) ∧ e.av l = 0 ∧ e.bv l = 0x7F800000)) →
        ((t.grp e.g).reg o.d.toNat).lane l = 0x7FC00000 ∧ (t.grp e.g).fpstat.getLsbD 0 = true)) ∧
  (∀ (o : LaneOps) (s : State) (e : LaneEnv), s.laneFront 0x01F o = .ok e → o.d.toNat < (s.grp e.g).desc.gcount →
    ∃ t, exec (.fabs o) s = .next t ∧ (t.grp e.g).fpstat = (s.grp e.g).fpstat ∧
      ∀ l, e.act.getLsbD l = true → ((t.grp e.g).reg o.d.toNat).lane l = e.av l &&& 0x7FFFFFFF) ∧
  (∀ (o : LaneOps) (s : State) (e : LaneEnv), s.laneFront 0x020 o = .ok e → o.d.toNat < (s.grp e.g).desc.gcount →
    ∃ t, exec (.fneg o) s = .next t ∧ (t.grp e.g).fpstat = (s.grp e.g).fpstat ∧
      ∀ l, e.act.getLsbD l = true → ((t.grp e.g).reg o.d.toNat).lane l = e.av l ^^^ 0x80000000) ∧
  (∀ (rm : Rm) (ftz : Bool) (a b : Nat), f32.add rm ftz a b = f32.add rm ftz b a ∧ f32.mul rm ftz a b = f32.mul rm ftz b a)

/-- The rounding mode of a word: FPCTL.RM where RND is 0, else RND's own (R78, R168). -/
def roundingOf (rnd : Nat) (fp : W64) : Rm := [Rm.rne, .rtz, .rup, .rdn].getD (if rnd = 0 then fp.toNat % 4 else rnd - 1) .rne

/-- The result and flags of a packed word from its low and its high half (R181). -/
def packed (lo hi : Nat × Nat) : Nat × Nat := (lo.1 + 65536 * hi.1, lo.2 ||| hi.2)

/-- The result of a dq opcode for one element and one scale byte (R182). -/
def dqLane (op : Nat) (rm : Rm) (ftz : Bool) (elem scale : Nat) : Nat × Nat :=
  let y := scaled ((elemOf (dqFmt op)).read elem) (ScaleFmt.e8m0.read scale)
  if y.isNan then (f32.qnan, 0) else f32.write rm ftz y

/-- The value left by a token program, and its flags: `st` is the stack, top first (R101, R190). -/
def xprValue (rm : Rm) (ftz : Bool) (a b c d : Nat) (ts : List Nat) (st : List Nat) (fl : Nat) : Nat × Nat :=
  match ts with
  | [] => (st.headD 0, fl)
  | k :: ts =>
    let go := fun (r : Nat × Nat) (rest : List Nat) => xprValue rm ftz a b c d ts (r.1 :: rest) (fl ||| r.2)
    match k, st with
    | 0, _ => (st.headD 0, fl)
    | 1, _ => go (a, 0) st
    | 2, _ => go (b, 0) st
    | 3, _ => go (c, 0) st
    | 4, _ => go (d, 0) st
    | 5, y :: x :: r => go (f32.add rm ftz x y) r
    | 6, y :: x :: r => go (f32.sub rm ftz x y) r
    | 7, y :: x :: r => go (f32.mul rm ftz x y) r
    | 8, z :: y :: x :: r => go (f32.fma rm ftz x y z) r
    | 9, y :: x :: r => go (f32.minmax ftz true x y) r
    | 10, y :: x :: r => go (f32.minmax ftz false x y) r
    | 11, x :: r => go ((x + 2 ^ 31) % 2 ^ 32, 0) r
    | 12, x :: r => go (x % 2 ^ 31, 0) r
    | 13, x :: r => go (frcp ftz x) r
    | 14, x :: r => go (fexp2 ftz x) r
    | 15, x :: r => go (flog2 ftz x) r
    | _, _ => (st.headD 0, fl)

/-- What each floating-point word computes in a lane, with the flags that it sets (R175 to R182, R190); LaneRounding says what these functions are. -/
def laneFloat (i : Instr) : Option (Nat × LaneOps × (LaneEnv → Nat → Nat × Nat)) :=
  let rm := fun (o : LaneOps) (e : LaneEnv) => roundingOf (o.mod.toNat % 8) e.run.fpctl
  let z := fun (e : LaneEnv) => e.run.fpctl.getLsbD 2
  let half := fun (v : W32) (k : Nat) => v.toNat / 65536 ^ k % 65536
  let two := fun (op : Nat) (o : LaneOps) (f : Fmt → Rm → Bool → Nat → Nat → Nat → Nat × Nat) => some (op, o, fun (e : LaneEnv) (l : Nat) =>
    let h := fun k => f (if o.mod.toNat / 8 = 1 then bf16 else f16) (rm o e) (z e) (half (e.av l) k) (half (e.bv l) k) (half (e.cv l) k)
    packed (h 0) (h 1))
  let dq := fun (op : Nat) (o : LaneOps) => some (op, o, fun (e : LaneEnv) (l : Nat) =>
    let w := [8, 8, 6, 6, 4, 8, 4, 8, 4].getD (op - 0x4B) 8
    let per := [4, 4, 5, 5, 8, 4, 8, 4, 8].getD (op - 0x4B) 4
    dqLane op (roundingOf 0 e.run.fpctl) (z e) ((e.av l).toNat / 2 ^ (w * (o.mod.toNat / 4)) % 2 ^ w)
      ((e.bv (l * per / 32)).toNat / 256 ^ (o.mod.toNat % 4) % 256))
  match i with
  | .fadd o => some (0x01A, o, fun e l => f32.add (rm o e) (z e) (e.av l).toNat (e.bv l).toNat)
  | .fsub o => some (0x01B, o, fun e l => f32.sub (rm o e) (z e) (e.av l).toNat (e.bv l).toNat)
  | .fmul o => some (0x01C, o, fun e l => f32.mul (rm o e) (z e) (e.av l).toNat (e.bv l).toNat)
  | .fmin o => some (0x01D, o, fun e l => f32.minmax (z e) true (e.av l).toNat (e.bv l).toNat)
  | .fmax o => some (0x01E, o, fun e l => f32.minmax (z e) false (e.av l).toNat (e.bv l).toNat)
  | .fma o => some (0x041, o, fun e l => f32.fma (rm o e) (z e) (e.av l).toNat (e.bv l).toNat (e.cv l).toNat)
  | .cvt o => some (0x045, o, fun e l =>
      convert (o.mod.toNat / 2) (if o.mod.toNat % 2 = 1 then .rtz else roundingOf 0 e.run.fpctl) (z e) (e.av l) (e.bv l))
  | .frnd o => some (0x046, o, fun e l => f32.integral (rm o e) (z e) (e.av l).toNat)
  | .fscale o => some (0x047, o, fun e l => f32.scale (rm o e) (z e) (e.av l).toNat (e.bv l).toInt)
  | .hadd2 o => two 0x048 o (fun f m y a b _ => f.add m y a b)
  | .hmul2 o => two 0x049 o (fun f m y a b _ => f.mul m y a b)
  | .hfma2 o => two 0x04A o Fmt.fma
  | .dqE4 o => dq 0x04B o
  | .dqE5 o => dq 0x04C o
  | .dqE3m2 o => dq 0x04D o
  | .dqE2m3 o => dq 0x04E o
  | .dqFp4 o => dq 0x04F o
  | .dqI8 o => dq 0x050 o
  | .dqI4 o => dq 0x051 o
  | .dqPs8 o => dq 0x052 o
  | .dqPs4 o => dq 0x053 o
  | .frcp o => some (0x080, o, fun e l => frcp (z e) (e.av l).toNat)
  | .frsq o => some (0x081, o, fun e l => frsq (z e) (e.av l).toNat)
  | .fsqrt o => some (0x082, o, fun e l => f32.sqrt (rm o e) (z e) (e.av l).toNat)
  | .flog2 o => some (0x083, o, fun e l => flog2 (z e) (e.av l).toNat)
  | .fexp2 o => some (0x084, o, fun e l => fexp2 (z e) (e.av l).toNat)
  | .ftanh o => some (0x085, o, fun e l => ftanh (z e) (e.av l).toNat)
  | .xpr o => some (0x0C5, o, fun e l =>
      xprValue (roundingOf 0 e.run.fpctl) (z e) (e.av l).toNat (e.bv l).toNat (e.cv l).toNat (e.e.lane l).toNat (xprTokens o) [] 0)
  | _ => none

/-- R167 to R182, R190: the floating-point words. In every active lane the destination takes the value that R175 to R182 and R190 give from the operands there,
under RND or FPCTL.RM and FPCTL.FTZ as the clause captured them; FPSTAT gains the union of the active lanes' flags. fcls writes whether the class of A is one of
those that B names, and sets no flag (R174). -/
def laneFloatResults : Prop :=
  (∀ (i : Instr) (op : Nat) (o : LaneOps) (f : LaneEnv → Nat → Nat × Nat) (s : State) (e : LaneEnv), laneFloat i = some (op, o, f) →
    s.laneFront op o = .ok e → o.d.toNat < (s.grp e.g).desc.gcount → ∃ t, exec i s = .next t ∧
      (∀ l, e.act.getLsbD l = true → ((t.grp e.g).reg o.d.toNat).lane l = BitVec.ofNat 32 (f e l).1) ∧
      (∀ k, k < 64 → ((t.grp e.g).fpstat.getLsbD k = true ↔
        (s.grp e.g).fpstat.getLsbD k = true ∨ ∃ l, e.act.getLsbD l = true ∧ (f e l).2.testBit k = true))) ∧
  (∀ (o : LaneOps) (s : State) (e : LaneEnv), s.laneFront 0x02C o = .ok e → ∃ t, exec (.fcls o) s = .next t ∧
    (t.grp e.g).fpstat = (s.grp e.g).fpstat ∧ ∀ l, e.act.getLsbD l = true →
      let m := (e.av l).toNat % 0x80000000
      let n := (e.av l).msb
      ((t.grp e.g).mask o.d.toNat).getLsbD l = (e.bv l).getLsbD (
        if 0x7F800000 < m then (if m < 0x7FC00000 then 0 else 1) else if m = 0x7F800000 then (if n then 2 else 9)
        else if 0x800000 ≤ m then (if n then 3 else 8) else if 0 < m then (if n then 4 else 7) else (if n then 5 else 6)))

end Sys2Proof.Machine

/-- R167 to R182, R190: the floating-point words of lanes. -/
def Obligations.LaneFloats : Prop := laneFloatInvalid ∧ laneFloatResults

/-- R65, R66: shapes. With every lane active an integer instruction of uniform sources gives a uniform result in any register, and `add`, `sub`, `mul` and
`shl` of affine ones an affine result; a word that must write a general value at or above GCOUNT is the shape trap, and writes nothing. -/
def Obligations.LaneShapes : Prop :=
  (∀ (i : Instr) (op : Nat) (o : LaneOps) (f : W32 → W32 → W32 → W32) (s : State) (e : LaneEnv), laneValue i = some (op, o, f) → o.mod = 0 →
    s.laneFront op o = .ok e → e.act = low64 e.w → e.w ≠ 0 → (∀ r ∈ e.a ++ e.b ++ e.c, r.isU = true) →
    ∃ t, exec i s = .next t ∧ (t.grp e.g).reg o.d.toNat = .u (f (e.av 0) (e.bv 0) (e.cv 0))) ∧
  (∀ (o : LaneOps) (s : State) (e : LaneEnv) (b1 s1 b2 s2 : W32), o.mod = 0 → e.w ≠ 0 → e.act = low64 e.w → e.a = [.a b1 s1] →
    (s.laneFront 0x003 o = .ok e → e.b = [.a b2 s2] → ∃ t, exec (.laneAdd o) s = .next t ∧
      (t.grp e.g).reg o.d.toNat = .a (b1 + b2) (s1 + s2)) ∧
    (s.laneFront 0x004 o = .ok e → e.b = [.u b2] → ∃ t, exec (.laneSub o) s = .next t ∧
      (t.grp e.g).reg o.d.toNat = .a (b1 - b2) s1) ∧
    (s.laneFront 0x005 o = .ok e → e.b = [.u b2] → ∃ t, exec (.laneMul o) s = .next t ∧
      (t.grp e.g).reg o.d.toNat = .a (b1 * b2) (s1 * b2)) ∧
    (s.laneFront 0x011 o = .ok e → e.b = [.u b2] → ∃ t, exec (.laneShl o) s = .next t ∧
      (t.grp e.g).reg o.d.toNat = .a (b1 <<< (b2.toNat % 32)) (s1 <<< (b2.toNat % 32))) ∧
    (s.laneFront 0x002 o = .ok e → ∃ t, exec (.laneMov o) s = .next t ∧ (t.grp e.g).reg o.d.toNat = .a b1 s1)) ∧
  (∀ (i : Instr) (op k : Nat) (o : LaneOps) (s : State) (e : LaneEnv), fixedLane i = some (op, o) → s.laneFront op o = .ok e → e.act ≠ 0 →
    e.act ≠ low64 e.w → k < laneWrites op o → (s.grp e.g).desc.gcount ≤ o.d.toNat + k →
    exec i s = .next (s.fatal e.g 0x14 (BitVec.ofNat 8 e.run.off ++ e.run.addr.setWidth 56) e.act 0 e.sp)) ∧
  (∀ (o : LaneOps) (s : State) (e : LaneEnv) (v : List W32), s.laneFront 0x002 o = .ok e → o.mod = 0 → e.act ≠ 0 → e.a = [.g v] →
    (s.grp e.g).desc.gcount ≤ o.d.toNat →
    exec (.laneMov o) s = .next (s.fatal e.g 0x14 (BitVec.ofNat 8 e.run.off ++ e.run.addr.setWidth 56) e.act 0 e.sp))

namespace Sys2Proof.Machine

/-- The value at the first active lane with each further active lane's value taken in, in ascending order, and the union of the flags (R187). -/
def folded (f : W32 → W32 → W32 × Nat) (v : W32) (vs : List W32) : W32 × Nat :=
  vs.foldl (fun p y => let r := f p.1 y; (r.1, p.2 ||| r.2)) (v, 0)

/-- The operation of a RED code, with its flags, and its identity (R187). -/
def reduction (rm : Rm) (ftz : Bool) (red : Nat) : Option ((W32 → W32 → W32 × Nat) × W32) :=
  let plain := fun (f : W32 → W32 → W32) (x y : W32) => (f x y, 0)
  let float := fun (f : Nat → Nat → Nat × Nat) (x y : W32) => let r := f x.toNat y.toNat; (BitVec.ofNat 32 r.1, r.2)
  match red with
  | 0 => some (plain (fun x y => x + y), 0)
  | 1 => some (plain (fun x y => if x.toInt ≤ y.toInt then x else y), 0x7FFFFFFF)
  | 2 => some (plain (fun x y => if x.toInt ≤ y.toInt then y else x), 0x80000000)
  | 3 => some (plain (fun x y => if x.toNat ≤ y.toNat then x else y), 0xFFFFFFFF)
  | 4 => some (plain (fun x y => if x.toNat ≤ y.toNat then y else x), 0)
  | 5 => some (plain (fun x y => x &&& y), 0xFFFFFFFF)
  | 6 => some (plain (fun x y => x ||| y), 0)
  | 7 => some (plain (fun x y => x ^^^ y), 0)
  | 8 => some (float (f32.add rm ftz), 0x80000000)
  | 9 => some (float (f32.minmax ftz true), 0x7F800000)
  | 10 => some (float (f32.minmax ftz false), 0xFF800000)
  | _ => none

/-- The values of the active lanes that `p` names, in ascending lane order. -/
def LaneEnv.values (e : LaneEnv) (p : Nat → Bool) : List W32 := ((List.range e.w).filter (fun l => e.act.getLsbD l && p l)).map e.av

/-- The value that lane `l` brings to `red.fmaxi` or `red.fmini`: a NaN as the infinity that never wins, under FTZ a subnormal as its zero (R188). -/
def LaneEnv.bids (e : LaneEnv) (most : Bool) (l : Nat) : W32 :=
  if nanLane (e.av l) then (if most then 0xFF800000 else 0x7F800000)
  else if e.run.fpctl.getLsbD 2 && decide ((e.av l).toNat % 0x80000000 < 0x800000) then e.av l &&& 0x80000000
  else e.av l

/-- R183 to R189: shfl, vote, red, scan and vtos within the group's lanes. Each active lane takes the value of the lane that shfl or vtos names, the vote or the
reduction of the active lanes, or the scan of those up to it. Of lanes with equal value and index it is not said which wins. -/
def crossLanes : Prop :=
  (∀ (o : LaneOps) (s : State) (e : LaneEnv), s.laneFront 0x0C0 o = .ok e → o.d.toNat < (s.grp e.g).desc.gcount →
    ∃ t, exec (.shfl o) s = .next t ∧ ∀ l, e.act.getLsbD l = true →
      let b : Nat := (e.bv l).toNat % 64
      let from_ : Int := [(b : Int), (l : Int) - b, (l : Int) + b, ((l ^^^ b : Nat) : Int)].getD (o.mod.toNat / 2) 0
      ((t.grp e.g).reg o.d.toNat).lane l =
        if 0 ≤ from_ ∧ from_ < e.w ∧ e.act.getLsbD from_.toNat = true then e.av from_.toNat
        else if o.mod.toNat % 2 = 1 then 0 else e.av l) ∧
  (∀ (o : LaneOps) (s : State) (e : LaneEnv), s.laneFront 0x0C1 o = .ok e → o.d.toNat + 1 < (s.grp e.g).desc.gcount →
    let m := e.run.priorM.get ((s.grp e.g).mask o.a.toNat) o.a.toNat
    ∃ t, exec (.vote o) s = .next t ∧ ∀ l, e.act.getLsbD l = true →
      (o.mod = 0 → ((t.grp e.g).reg (o.d.toNat + 1)).lane l ++ ((t.grp e.g).reg o.d.toNat).lane l = m &&& e.act) ∧
      (o.mod = 1 → ((t.grp e.g).reg o.d.toNat).lane l = if (List.range 64).any (fun k => e.act.getLsbD k && m.getLsbD k) then 1 else 0) ∧
      (o.mod = 2 → ((t.grp e.g).reg o.d.toNat).lane l = if (List.range 64).all (fun k => !e.act.getLsbD k || m.getLsbD k) then 1 else 0) ∧
      (o.mod = 3 → ((t.grp e.g).reg o.d.toNat).lane l =
        if (List.range 64).all (fun k => !e.act.getLsbD k || m.getLsbD k == m.getLsbD l) then 1 else 0)) ∧
  (∀ (o : LaneOps) (s : State) (e : LaneEnv) (f : W32 → W32 → W32 × Nat) (z v : W32) (vs : List W32), s.laneFront 0x0C2 o = .ok e →
    o.d.toNat < (s.grp e.g).desc.gcount → reduction (roundingOf 0 e.run.fpctl) (e.run.fpctl.getLsbD 2) o.mod.toNat = some (f, z) →
    e.values (fun _ => true) = v :: vs → ∃ t, exec (.red o) s = .next t ∧
      (t.grp e.g).fpstat = (s.grp e.g).fpstat ||| BitVec.ofNat 64 (folded f v vs).2 ∧
      ∀ l, e.act.getLsbD l = true → ((t.grp e.g).reg o.d.toNat).lane l = (folded f v vs).1) ∧
  (∀ (o : LaneOps) (s : State) (e : LaneEnv) (f : W32 → W32 → W32 × Nat) (z : W32), s.laneFront 0x0C3 o = .ok e →
    o.d.toNat < (s.grp e.g).desc.gcount → reduction (roundingOf 0 e.run.fpctl) (e.run.fpctl.getLsbD 2) (o.mod.toNat % 16) = some (f, z) →
    ∃ t, exec (.scan o) s = .next t ∧ ∀ l, e.act.getLsbD l = true →
      ((t.grp e.g).reg o.d.toNat).lane l =
        match e.values (fun k => if o.mod.toNat / 16 = 1 then decide (k < l) else decide (k ≤ l)) with
        | [] => z
        | v :: vs => (folded f v vs).1) ∧
  (∀ (o : LaneOps) (s : State) (e : LaneEnv), s.laneFront 0x0C2 o = .ok e → o.d.toNat + 1 < (s.grp e.g).desc.gcount →
    o.mod = 11 ∨ o.mod = 12 → e.act ≠ 0 →
    ∃ t j, exec (.red o) s = .next t ∧ e.act.getLsbD j = true ∧
      (∀ k, e.act.getLsbD k = true →
        let x := laneOrder false (e.bids (o.mod == 11) j)
        let y := laneOrder false (e.bids (o.mod == 11) k)
        (if o.mod = 11 then y < x else x < y) ∨ (x = y ∧ (e.bv j).toNat ≤ (e.bv k).toNat)) ∧
      (∀ l, e.act.getLsbD l = true → ((t.grp e.g).reg o.d.toNat).lane l = e.bids (o.mod == 11) j ∧
        ((t.grp e.g).reg (o.d.toNat + 1)).lane l = e.bv j) ∧
      (∀ k, k ≠ 0 → (t.grp e.g).fpstat.getLsbD k = (s.grp e.g).fpstat.getLsbD k) ∧
      ((t.grp e.g).fpstat.getLsbD 0 = true ↔ (s.grp e.g).fpstat.getLsbD 0 = true ∨ ∃ l, e.act.getLsbD l = true ∧ sigLane (e.av l) = true)) ∧
  (∀ (o : LaneOps) (s : State) (e : LaneEnv) (j : Nat), s.laneFront 0x0C4 o = .ok e → o.d.toNat < (s.grp e.g).desc.gcount →
    e.act.getLsbD j = true → (∀ k, k < j → e.act.getLsbD k = false) →
    ∃ t, exec (.vtos o) s = .next t ∧ ∀ l, e.act.getLsbD l = true → ((t.grp e.g).reg o.d.toNat).lane l =
      if (e.bv j).toNat % 64 < e.w then e.av ((e.bv j).toNat % 64) else 0)

/-- The way of a core's tag table that holds the tag of an address in its set, and is valid (R205). -/
def Core.holds (c : Core) (va : W64) (i : Nat) : Bool := (c.way i).valid && decide ((c.way i).tag = va.extractLsb' 19 37)

/-- The first slot of the set of an address (R205). -/
def setOf (va : W64) : Nat := va.toNat / 2 ^ 11 % 256 * 4

/-- R205, R206, R208, R407: the tag table and rng. stag gives each active lane the slot that holds its address, or its set's victim, from the table as it stood;
stag.w writes the tags in ascending lane order. rng writes the four words of R405's stream. prf writes nothing. -/
def tagsAndStreams : Prop :=
  (∀ (o : LaneOps) (s : State) (e : LaneEnv), s.laneFront 0x10D o = .ok e → o.d.toNat < (s.grp e.g).desc.gcount →
    let c := s.core (s.grp e.g).core
    ∃ t, exec (.stag o) s = .next t ∧
      (∀ i, ((t.core (s.grp e.g).core).way i).valid = (c.way i).valid ∧ ((t.core (s.grp e.g).core).way i).tag = (c.way i).tag) ∧
      (∀ l k, e.act.getLsbD l = true → k < 4 →
        let b := setOf (pairLane e.a l)
        (c.holds (pairLane e.a l) (b + k) = true → (∀ j, j < k → c.holds (pairLane e.a l) (b + j) = false) →
          ((t.grp e.g).reg o.d.toNat).lane l = BitVec.ofNat 32 (b + k)) ∧
        ((∀ j, j < 4 → c.holds (pairLane e.a l) (b + j) = false) →
          ((c.way (b + k)).valid = false ∧ (∀ j, j < k → (c.way (b + j)).valid = true)) ∨
            ((∀ j, j < 4 → (c.way (b + j)).valid = true ∧ ((c.way (b + k)).used < (c.way (b + j)).used ∨
              ((c.way (b + k)).used = (c.way (b + j)).used ∧ k ≤ j)))) →
          ((t.grp e.g).reg o.d.toNat).lane l = 0x80000000 ||| BitVec.ofNat 32 (b + k)))) ∧
  (∀ (o : LaneOps) (s : State) (e : LaneEnv), s.laneFront 0x10E o = .ok e → o.d.toNat < (s.grp e.g).desc.gcount →
    let fits := fun (l : Nat) => o.mod == 1 || (e.bv l).toNat % 1024 / 4 == (pairLane e.a l).toNat / 2 ^ 11 % 256
    ∃ t, exec (.stagW o) s = .next t ∧
      (∀ l, e.act.getLsbD l = true → ((t.grp e.g).reg o.d.toNat).lane l = if fits l then 0 else 1) ∧
      (∀ l i, e.act.getLsbD l = true → fits l = true → (e.bv l).toNat % 1024 = i →
        (∀ k, l < k → e.act.getLsbD k = true → fits k = true → (e.bv k).toNat % 1024 ≠ i) →
        (o.mod = 1 → ((t.core (s.grp e.g).core).way i).valid = false) ∧
        (o.mod ≠ 1 → ((t.core (s.grp e.g).core).way i).valid = true ∧
          ((t.core (s.grp e.g).core).way i).tag = (pairLane e.a l).extractLsb' 19 37)) ∧
      (∀ i, (∀ l, e.act.getLsbD l = true → fits l = true → (e.bv l).toNat % 1024 ≠ i) →
        (t.core (s.grp e.g).core).way i = (s.core (s.grp e.g).core).way i)) ∧
  (∀ (o : LaneOps) (s : State) (e : LaneEnv), s.laneFront 0x0C6 o = .ok e → o.d.toNat + 3 < (s.grp e.g).desc.gcount →
    ∃ t, exec (.rng o) s = .next t ∧ (t.grp e.g).fpstat = (s.grp e.g).fpstat ∧ ∀ l, e.act.getLsbD l = true →
      let w := stream (pairLane e.a l) ((nth e.b 0).lane l) ((nth e.b 1).lane l) (e.cv l)
      ((t.grp e.g).reg (o.d.toNat + 1)).lane l ++ ((t.grp e.g).reg o.d.toNat).lane l = w.1 ∧
      ((t.grp e.g).reg (o.d.toNat + 3)).lane l ++ ((t.grp e.g).reg (o.d.toNat + 2)).lane l = w.2) ∧
  (∀ (o : LaneOps) (s : State) (e : LaneEnv), s.laneFront 0x10F o = .ok e → ∃ t, exec (.prf o) s = .next t ∧
    (t.grp e.g).v = (s.grp e.g).v ∧ (t.grp e.g).m = (s.grp e.g).m ∧ (t.grp e.g).fpstat = (s.grp e.g).fpstat ∧
    t.core (s.grp e.g).core = s.core (s.grp e.g).core)

/-- Whether cell `c` belongs to the set that a connected form reads as (R383). -/
def inArc (v c : Nat) : Bool :=
  if v / 4096 % 16 = 0 then decide ((c + 64 - v % 64) % 64 ≤ v / 64 % 64) else !(v / 4096 % 16 == 1 && v % 4096 == 0)

/-- A connected form that is illegal: it reads as the whole line, with NV (R383). -/
def badArc (v : Nat) : Bool := v / 4096 % 16 != 0 && !(v / 4096 % 16 == 1 && v % 4096 == 0)

/-- What a ringset word with a mask as its result computes: the table entries whose arcs it joins, for the masks A and B (R393, R394, R397). -/
def ringEntries (i : Instr) (r : RingSlot) : Option (Nat × LaneOps × (W64 → W64 → Nat → Prop)) :=
  let two := fun (f : Nat → Nat → Nat) (x y : W64) (v : Nat) => ∃ a b, a < 64 ∧ b < 64 ∧ x.getLsbD a = true ∧ y.getLsbD b = true ∧ v = f a b
  match i with
  | .rsAdd o => some (0x1C0, o, two r.add)
  | .rsSub o => some (0x1C1, o, two (fun a b => r.add a ((64 - b) % 64)))
  | .rsMul o => some (0x1C2, o, two r.mul)
  | .rsRcp o => some (0x1C5, o, fun x _ v => ∃ a, a < 64 ∧ x.getLsbD a = true ∧ v = r.rcp a)
  | _ => none

/-- The slot of the group's core that a ringset word names (R392). -/
def State.ringSlot (s : State) (e : LaneEnv) (o : LaneOps) : RingSlot := (s.core (s.grp e.g).core).rings.get .b15 (o.mod.toNat % 4)

/-- The mask that the pair of registers from `d` on holds in lane `l`. -/
def Group.maskIn (x : Group) (d l : Nat) : W64 := (x.reg (d + 1)).lane l ++ (x.reg d).lane l

/-- The end of a ringset word with a mask as its result: in each active lane the cells that `f` names, NV where `bad` says so, WL where the whole line results (R78,
R392, R393). -/
def State.ringWrites (s t : State) (e : LaneEnv) (o : LaneOps) (f : Nat → Nat → Prop) (bad : Nat → Prop) : Prop :=
  (∀ l c, e.act.getLsbD l = true → c < 64 → (((t.grp e.g).maskIn o.d.toNat l).getLsbD c = true ↔ f l c)) ∧
  ((t.grp e.g).fpstat.getLsbD 0 = true ↔ (s.grp e.g).fpstat.getLsbD 0 = true ∨ ∃ l, e.act.getLsbD l = true ∧ bad l) ∧
  ((t.grp e.g).fpstat.getLsbD 5 = true ↔ (s.grp e.g).fpstat.getLsbD 5 = true ∨ ∃ l, e.act.getLsbD l = true ∧ ∀ c, c < 64 → f l c) ∧
  (∀ k, k ≠ 0 → k ≠ 5 → (t.grp e.g).fpstat.getLsbD k = (s.grp e.g).fpstat.getLsbD k)

/-- The end of a ringset word with one register as its result, in each active lane `f`, and no flag but NV where `bad` says so and WL where `whole` does. -/
def State.ringGives (s t : State) (e : LaneEnv) (o : LaneOps) (f : Nat → W32) (bad whole : Nat → Prop) : Prop :=
  (∀ l, e.act.getLsbD l = true → ((t.grp e.g).reg o.d.toNat).lane l = f l) ∧
  ((t.grp e.g).fpstat.getLsbD 0 = true ↔ (s.grp e.g).fpstat.getLsbD 0 = true ∨ ∃ l, e.act.getLsbD l = true ∧ bad l) ∧
  ((t.grp e.g).fpstat.getLsbD 5 = true ↔ (s.grp e.g).fpstat.getLsbD 5 = true ∨ ∃ l, e.act.getLsbD l = true ∧ whole l) ∧
  (∀ k, k ≠ 0 → k ≠ 5 → (t.grp e.g).fpstat.getLsbD k = (s.grp e.g).fpstat.getLsbD k)

/-- The arc of `n` cells from `a` on holds every cell of the mask. -/
def covers (x : W64) (a n : Nat) : Prop := ∀ c, c < 64 → x.getLsbD c = true → (c + 64 - a) % 64 < n

/-- Point k of a ring's words, k from 1 to 31, in the order of laneOrder: p_16 is 0 and p_k is the negative of p_(32 − k) (R381). -/
def pointOrder (ws : List Nat) (k : Nat) : Int := if k = 16 then 0 else if k < 16 then -(ws.getD (15 - k) 0 : Int) else ws.getD (k - 17) 0

/-- R383, R384, R393 to R398: the ringset words. A table word joins the arcs of the entries for the cells of its operands; the rest are exact on the cells; rs.pack
gives the shortest arc that covers the mask, and of those the one with the least start; rs.fromf gives the cell of a number between the slot's ascending points. -/
def ringSets : Prop :=
  (∀ (i : Instr) (op : Nat) (o : LaneOps) (f : W64 → W64 → Nat → Prop) (s : State) (e : LaneEnv), ringEntries i (s.ringSlot e o) = some (op, o, f) →
    s.laneFront op o = .ok e → o.d.toNat + 1 < (s.grp e.g).desc.gcount → ∃ t, exec i s = .next t ∧
      s.ringWrites t e o (fun l c => ∃ v, f (pairLane e.a l) (pairLane e.b l) v ∧ inArc v c = true)
        (fun l => ∃ v, f (pairLane e.a l) (pairLane e.b l) v ∧ badArc v = true)) ∧
  (∀ (o : LaneOps) (s : State) (e : LaneEnv), o.d.toNat + 1 < (s.grp e.g).desc.gcount →
    (s.laneFront 0x1C3 o = .ok e → ∃ t, exec (.rsDiv o) s = .next t ∧
      let r := s.ringSlot e o
      let inv := fun (l b : Nat) => ∃ c, c < 64 ∧ (pairLane e.b l).getLsbD c = true ∧ inArc (r.rcp c) b = true
      s.ringWrites t e o
        (fun l c => ∃ a b, a < 64 ∧ b < 64 ∧ (pairLane e.a l).getLsbD a = true ∧ inv l b ∧ inArc (r.mul a b) c = true)
        (fun l => (∃ c, c < 64 ∧ (pairLane e.b l).getLsbD c = true ∧ badArc (r.rcp c) = true) ∨
          ∃ a b, a < 64 ∧ b < 64 ∧ (pairLane e.a l).getLsbD a = true ∧ inv l b ∧ badArc (r.mul a b) = true)) ∧
    (s.laneFront 0x1C4 o = .ok e → ∃ t, exec (.rsNeg o) s = .next t ∧
      s.ringWrites t e o (fun l c => (pairLane e.a l).getLsbD ((64 - c) % 64) = true) (fun _ => False)) ∧
    (s.laneFront 0x1C6 o = .ok e → ∃ t, exec (.rsUni o) s = .next t ∧
      s.ringWrites t e o (fun l c => (pairLane e.a l).getLsbD c = true ∨ (pairLane e.b l).getLsbD c = true) (fun _ => False)) ∧
    (s.laneFront 0x1C7 o = .ok e → ∃ t, exec (.rsIsc o) s = .next t ∧
      s.ringWrites t e o (fun l c => (pairLane e.a l).getLsbD c = true ∧ (pairLane e.b l).getLsbD c = true) (fun _ => False)) ∧
    (s.laneFront 0x1CF o = .ok e → ∃ t, exec (.rsUnp o) s = .next t ∧
      s.ringWrites t e o (fun l c => inArc (e.av l).toNat c = true) (fun l => badArc (e.av l).toNat = true))) ∧
  (∀ (o : LaneOps) (s : State) (e : LaneEnv), o.d.toNat < (s.grp e.g).desc.gcount →
    (s.laneFront 0x1C8 o = .ok e → ∃ t, exec (.rsHas o) s = .next t ∧
      s.ringGives t e o (fun l => if (List.range 64).all (fun c => !inArc ((s.ringSlot e o).cell (e.bv l)) c || (pairLane e.a l).getLsbD c) then 1 else 0)
        (fun _ => False) (fun _ => False)) ∧
    (s.laneFront 0x1C9 o = .ok e → ∃ t, exec (.rsEq o) s = .next t ∧
      s.ringGives t e o (fun l => if pairLane e.a l = pairLane e.b l then 1 else 0) (fun _ => False) (fun _ => False)) ∧
    (s.laneFront 0x1CA o = .ok e → ∃ t, exec (.rsFromf o) s = .next t ∧
      s.ringGives t e o (fun l => BitVec.ofNat 32 ((s.ringSlot e o).cell (e.av l))) (fun _ => False) (fun l => nanLane (e.av l) = true)) ∧
    (s.laneFront 0x1CD o = .ok e → ∃ t, exec (.rsWid o) s = .next t ∧
      s.ringGives t e o (fun l => BitVec.ofNat 32 ((List.range 64).filter (inArc (e.av l).toNat)).length)
        (fun l => badArc (e.av l).toNat = true) (fun _ => False)) ∧
    (s.laneFront 0x1CE o = .ok e → ∃ t v, exec (.rsPack o) s = .next t ∧
      s.ringGives t e o v (fun _ => False) (fun l => pairLane e.a l = BitVec.allOnes 64) ∧
      ∀ l, e.act.getLsbD l = true → (pairLane e.a l = 0 → v l = 0x1000) ∧ (pairLane e.a l = BitVec.allOnes 64 → v l = 0x0FC0) ∧
        (pairLane e.a l ≠ 0 → pairLane e.a l ≠ BitVec.allOnes 64 → ∃ a n, a < 64 ∧ 1 ≤ n ∧ n ≤ 64 ∧ v l = BitVec.ofNat 32 (a + 64 * (n - 1)) ∧
          covers (pairLane e.a l) a n ∧
          ∀ a' n', a' < 64 → covers (pairLane e.a l) a' n' → n < n' ∨ (n = n' ∧ a ≤ a'))) ∧
    (∀ (i : Instr) (op p : Nat) (inf : W32), (i, op, p, inf) ∈ [(Instr.rsLo o, 0x1CB, 0, 0xFF800000), (.rsHi o, 0x1CC, 1, 0x7F800000)] →
      s.laneFront op o = .ok e → ∃ t, exec i s = .next t ∧
        s.ringGives t e o (fun l =>
          let v := (e.av l).toNat
          let c := if p = 0 then v % 64 else (v % 64 + v / 64 % 64) % 64
          if v / 4096 % 16 = 1 ∧ v % 4096 = 0 then 0x7FC00000 else if inArc v 0 = true then inf else if c = 1 ∧ p = 0 then inf
          else if c = 63 ∧ p = 1 then inf else BitVec.ofNat 32 ((s.ringSlot e o).pointWord ((c + p) / 2)))
          (fun l => badArc (e.av l).toNat = true) (fun _ => False))) ∧
  (∀ (r : RingSlot) (v : W32), (nanLane v = true → r.cell v = 0x0FC0) ∧ (v.toNat % 0x80000000 = 0x7F800000 → r.cell v = 0) ∧
    (v.toNat % 0x80000000 < 0x7F800000 → r.words.Pairwise (· < ·) → (∀ w ∈ r.words, 0 < w ∧ w < 0x7F800000) →
      (∀ k, 1 ≤ k → k ≤ 31 → pointOrder r.words k = laneOrder false v → r.cell v = 2 * k) ∧
      (∀ k, k ≤ 31 → (k = 0 ∨ pointOrder r.words k < laneOrder false v) → (k = 31 ∨ laneOrder false v < pointOrder r.words (k + 1)) →
        r.cell v = 2 * k + 1))) ∧
  RingSlot.b15.words = (List.range 15).map (fun k => (120 + k) * 2 ^ 23) ∧ (∀ c, c < 64 → RingSlot.b15.rcp c = (96 - c) % 64) ∧
  RingSlot.b15.add 48 48 = 0x0032 ∧ RingSlot.b15.add 47 49 = 0x00B1 ∧ RingSlot.b15.mul 53 51 = 0x00B7 ∧ RingSlot.b15.mul 63 37 = 0x0333

end Sys2Proof.Machine

/-- R183 to R189, R205, R206, R208, R383 to R398, R407: the cross-lane words, the tag table, rng and the ringset words. -/
def Obligations.LaneCrossings : Prop := crossLanes ∧ tagsAndStreams ∧ ringSets

/-! ## What the floating-point functions are -/

namespace Sys2Proof.Machine

/-- The magnitude of a code: its exponent and mantissa bits. -/
def Fmt.mag (f : Fmt) (c : Nat) : Nat := c % 2 ^ (f.eb + f.mb)

/-- Whether its sign bit is set. -/
def Fmt.minus (f : Fmt) (c : Nat) : Bool := c.testBit (f.eb + f.mb)

/-- The value of a code that is a number (R288): 0.M × 2^(1 − bias) with exponent field 0, else 1.M × 2^(E − bias). -/
def Fmt.real (f : Fmt) (c : Nat) : ℚ :=
  let ex := f.mag c / 2 ^ f.mb
  let frac : ℚ := (f.mag c % 2 ^ f.mb : Nat) / 2 ^ f.mb
  let bias : Int := 2 ^ (f.eb - 1) - 1
  (if f.minus c then -1 else 1) * (if ex = 0 then frac * 2 ^ (1 - bias) else (1 + frac) * 2 ^ ((ex : Int) - bias))

/-- A code of the format that is NaN, and one that is a signalling NaN (R169, R288). -/
def Fmt.isNan (f : Fmt) (c : Nat) : Bool := decide (f.infCode < f.mag c)
def Fmt.isSig (f : Fmt) (c : Nat) : Bool := f.isNan c && !(f.mag c).testBit (f.mb - 1)

/-- A code of the format that is a number. -/
def Fmt.finite (f : Fmt) (c : Nat) : Prop := c < 2 ^ (f.eb + f.mb + 1) ∧ f.mag c < f.infCode

/-- The least power of two above every number of the format, the spacing of its last binade, and the least normal number. -/
def Fmt.big (f : Fmt) : ℚ := 2 ^ 2 ^ (f.eb - 1)
def Fmt.last (f : Fmt) : ℚ := f.big / 2 ^ (f.mb + 1)
def Fmt.small (f : Fmt) : ℚ := 4 / f.big

/-- The mode rounds this value away from zero. -/
def Rm.away (rm : Rm) (v : ℝ) : Prop := (rm = .rup ∧ 0 < v) ∨ (rm = .rdn ∧ v < 0)

/-- `c`, with a magnitude of at most `top`, is the code that the mode gives for `v`: the nearest, ties to even; toward zero; the least not below; the greatest not
above. Its sign is that of `v`. -/
def Fmt.near (f : Fmt) (top : Nat) (rm : Rm) (v : ℝ) (c : Nat) : Prop :=
  c < 2 ^ (f.eb + f.mb + 1) ∧ f.mag c ≤ top ∧ (f.minus c = true ↔ v < 0) ∧
  ∀ d, d < 2 ^ (f.eb + f.mb + 1) → f.mag d ≤ top →
    (rm = .rne → |v - f.real c| ≤ |v - f.real d| ∧ (|v - f.real c| = |v - f.real d| → f.real d ≠ f.real c → c % 2 = 0)) ∧
    (rm = .rtz → |(f.real c : ℝ)| ≤ |v| ∧ (|(f.real d : ℝ)| ≤ |v| → |f.real d| ≤ |f.real c|)) ∧
    (rm = .rup → v ≤ f.real c ∧ (v ≤ f.real d → f.real c ≤ f.real d)) ∧
    (rm = .rdn → f.real c ≤ v ∧ (f.real d ≤ v → f.real d ≤ f.real c))

/-- `v`, rounded as if the exponent had no end, lies beyond the numbers of the format, or below its normal numbers (R169). -/
def Fmt.beyond (f : Fmt) (rm : Rm) (v : ℝ) : Prop :=
  (rm = .rne ∧ f.big - f.last / 2 ≤ |v|) ∨ (rm.away v ∧ f.big - f.last < |v|) ∨ (rm ≠ .rne ∧ ¬rm.away v ∧ f.big ≤ |v|)
def Fmt.tiny (f : Fmt) (rm : Rm) (v : ℝ) : Prop :=
  (rm = .rne ∧ |v| < f.small - f.small / 2 ^ (f.mb + 2)) ∨ (rm.away v ∧ |v| ≤ f.small - f.small / 2 ^ (f.mb + 1)) ∨
    (rm ≠ .rne ∧ ¬rm.away v ∧ |v| < f.small)

/-- The code `r.1` is `v` rounded once, and `r.2` holds the flags of that: nothing where it is exact, else NX, with UF where it is tiny (R169, R175). -/
def Fmt.exactOr (f : Fmt) (rm : Rm) (v : ℝ) (r : Nat × Nat) : Prop :=
  (f.real r.1 = v → r.2 = 0) ∧ (f.real r.1 ≠ v → f.tiny rm v → r.2 = 24) ∧ (f.real r.1 ≠ v → ¬f.tiny rm v → r.2 = 16)

/-- The result and the flags of a value that is not zero, rounded once (R169): overflow gives the infinity where the mode rounds to nearest or away from zero, else
the largest number, with OF and NX. -/
def Fmt.correct (f : Fmt) (rm : Rm) (v : ℝ) (r : Nat × Nat) : Prop :=
  (f.beyond rm v → r.2 = 20) ∧ (¬f.beyond rm v → f.exactOr rm v r) ∧
  (f.beyond rm v → rm = .rne ∨ rm.away v → r.1 = f.signBit (decide (v < 0)) + f.infCode) ∧
  (¬(f.beyond rm v ∧ (rm = .rne ∨ rm.away v)) → f.near (f.infCode - 1) rm v r.1)

/-- A subnormal code as the zero of its sign, and a result flushed so, with UF and NX (R169). -/
def Fmt.flush (f : Fmt) (c : Nat) : Nat := if f.mag c < 2 ^ f.mb then c - f.mag c else c
def Fmt.flushed (f : Fmt) (r : Nat × Nat) : Nat × Nat := if 0 < f.mag r.1 ∧ f.mag r.1 < 2 ^ f.mb then (r.1 - f.mag r.1, 24) else r

/-- `n` is `v` as an integral number in the mode. -/
def Rm.integral (rm : Rm) (v : ℝ) (n : Int) : Prop :=
  match rm with
  | .rne => |v - n| ≤ 1 / 2 ∧ (|v - n| = 1 / 2 → n % 2 = 0)
  | .rtz => (0 ≤ v → n = ⌊v⌋) ∧ (v < 0 → n = ⌈v⌉)
  | .rup => n = ⌈v⌉
  | .rdn => n = ⌊v⌋

/-- NV where any of the codes is a signalling NaN. -/
def Fmt.nv (f : Fmt) (cs : List Nat) : Nat := if cs.any f.isSig then 1 else 0

/-- R169, R175, R181: sum, difference, product, fused product and scaling in binary32, binary16 and bfloat16. A result of numbers is the exact one, rounded once; an
exact zero has the sign that R175 and IEEE 754 give it. Infinities and NaNs follow R175. With FTZ operands and results are flushed (log 108). -/
def roundedArithmetic : Prop :=
  ∀ f ∈ [f32, f16, bf16], ∀ (rm : Rm) (a b c : Nat), a < 2 ^ (f.eb + f.mb + 1) → b < 2 ^ (f.eb + f.mb + 1) → c < 2 ^ (f.eb + f.mb + 1) →
    let x : ℚ := f.real a
    let y : ℚ := f.real b
    let z : ℚ := f.real c
    let sum := fun (m n : Bool) => f.signBit (if m = n then m else rm == .rdn)
    let flip := (b + 2 ^ (f.eb + f.mb)) % 2 ^ (f.eb + f.mb + 1)
    (f.finite a → f.finite b →
      (x + y ≠ 0 → f.correct rm ((x + y : ℚ) : ℝ) (f.add rm false a b)) ∧ (x + y = 0 → f.add rm false a b = (sum (f.minus a) (f.minus b), 0)) ∧
      (x * y ≠ 0 → f.correct rm ((x * y : ℚ) : ℝ) (f.mul rm false a b)) ∧
      (x * y = 0 → f.mul rm false a b = (f.signBit (f.minus a != f.minus b), 0)) ∧
      (f.finite c → (x * y + z ≠ 0 → f.correct rm ((x * y + z : ℚ) : ℝ) (f.fma rm false a b c)) ∧
        (x * y + z = 0 → f.fma rm false a b c = (sum (f.minus a != f.minus b) (f.minus c), 0))) ∧
      (f.mag c = f.infCode → f.fma rm false a b c = (c, 0))) ∧
    (f.isNan b = false → f.sub rm false a b = f.add rm false a flip) ∧
    (f.isNan a || f.isNan b → f.add rm false a b = (f.qnan, f.nv [a, b]) ∧ f.sub rm false a b = (f.qnan, f.nv [a, b]) ∧
      f.mul rm false a b = (f.qnan, f.nv [a, b]) ∧ f.fma rm false a b c = (f.qnan, f.nv [a, b, c])) ∧
    (f.mag a = f.infCode → f.isNan b = false →
      (f.mag b = f.infCode → a ≠ b → f.add rm false a b = (f.qnan, 1)) ∧ (f.mag b ≠ f.infCode ∨ a = b → f.add rm false a b = (a, 0) ∧ f.add rm false b a = (a, 0)) ∧
      (f.mag b = 0 → f.mul rm false a b = (f.qnan, 1) ∧ f.mul rm false b a = (f.qnan, 1) ∧
        (f.fma rm false a b c).1 = f.qnan ∧ (f.fma rm false a b c).2 = 1 ∧ f.fma rm false b a c = (f.qnan, 1)) ∧
      (f.mag b ≠ 0 →
        let i := f.signBit (f.minus a != f.minus b) + f.infCode
        f.mul rm false a b = (i, 0) ∧ f.mul rm false b a = (i, 0) ∧
        (f.isNan c = false → f.fma rm false a b c = if f.mag c = f.infCode ∧ c ≠ i then (f.qnan, 1) else (i, 0)) ∧
        (f.isNan c = true → f.fma rm false a b c = (f.qnan, f.nv [c])))) ∧
    (f.finite a → f.finite b → f.isNan c = true → f.fma rm false a b c = (f.qnan, f.nv [c])) ∧
    f.add rm true a b = f.flushed (f.add rm false (f.flush a) (f.flush b)) ∧ f.sub rm true a b = f.flushed (f.sub rm false (f.flush a) (f.flush b)) ∧
    f.mul rm true a b = f.flushed (f.mul rm false (f.flush a) (f.flush b)) ∧
    f.fma rm true a b c = f.flushed (f.fma rm false (f.flush a) (f.flush b) (f.flush c))

/-- R175 to R178: scaling, integral values, least and greatest, the square root, and the special functions of binary32. The root, the reciprocal and the reciprocal
root are the exact value rounded once; of the logarithm and the power their exact cases hold, and that they lie where they should; the tangent has its argument's
sign, and no magnitude above 1. -/
def roundedFunctions : Prop :=
  (∀ (rm : Rm) (a : Nat) (k : Int), a < 2 ^ 32 →
    let x : ℚ := f32.real a
    let nan := (f32.qnan, f32.nv [a])
    (f32.finite a →
      (x ≠ 0 → f32.correct rm ((x * 2 ^ k : ℚ) : ℝ) (f32.scale rm false a k)) ∧ (x = 0 → f32.scale rm false a k = (a, 0)) ∧
      (∃ n : Int, rm.integral x n ∧ f32.finite (f32.integral rm false a).1 ∧ f32.real (f32.integral rm false a).1 = n ∧
        f32.minus (f32.integral rm false a).1 = f32.minus a ∧ (f32.integral rm false a).2 = 0) ∧
      (0 < x → f32.correct rm (Real.sqrt x) (f32.sqrt rm false a) ∧ f32.correct .rne (1 / Real.sqrt x) (frsq false a)) ∧
      (x < 0 → f32.sqrt rm false a = (f32.qnan, 1) ∧ frsq false a = (f32.qnan, 1) ∧ flog2 false a = (f32.qnan, 1)) ∧
      (x = 0 → f32.sqrt rm false a = (a, 0)) ∧
      (x ≠ 0 → f32.correct .rne ((1 / x : ℚ) : ℝ) (frcp false a) ∧ f32.finite (ftanh false a).1 ∧ |f32.real (ftanh false a).1| ≤ 1 ∧
        f32.minus (ftanh false a).1 = f32.minus a ∧ (ftanh false a).2.testBit 4 = true) ∧
      (∀ n : Int, x = 2 ^ n → f32.finite (flog2 false a).1 ∧ f32.real (flog2 false a).1 = n ∧ (flog2 false a).2 = 0 ∧
        (n = 0 → flog2 false a = (0, 0))) ∧
      (∀ n : Int, 2 ^ n < x → x < 2 ^ (n + 1) → f32.finite (flog2 false a).1 ∧ n ≤ f32.real (flog2 false a).1 ∧
        f32.real (flog2 false a).1 ≤ n + 1 ∧ (flog2 false a).2 = 16) ∧
      (∀ n : Int, x = n → -149 ≤ n → n ≤ 127 → f32.finite (fexp2 false a).1 ∧ f32.real (fexp2 false a).1 = 2 ^ n ∧ (fexp2 false a).2 = 0) ∧
      (∀ n : Int, n < x → x < n + 1 → -126 ≤ n → n ≤ 126 → f32.finite (fexp2 false a).1 ∧ 2 ^ n ≤ f32.real (fexp2 false a).1 ∧
        f32.real (fexp2 false a).1 ≤ 2 ^ (n + 1) ∧ (fexp2 false a).2 = 16) ∧
      (128 ≤ x → fexp2 false a = (0x7F800000, 20)) ∧ (x ≤ -150 → fexp2 false a = (0, 24))) ∧
    (f32.isNan a = true → f32.scale rm false a k = nan ∧ f32.integral rm false a = nan ∧ f32.sqrt rm false a = nan ∧ frcp false a = nan ∧
      frsq false a = nan ∧ flog2 false a = nan ∧ fexp2 false a = nan ∧ ftanh false a = nan) ∧
    (f32.mag a = 0x7F800000 → f32.scale rm false a k = (a, 0) ∧ f32.integral rm false a = (a, 0)) ∧
    f32.scale rm true a k = f32.flushed (f32.scale rm false (f32.flush a) k) ∧ f32.integral rm true a = f32.integral rm false (f32.flush a) ∧
    f32.sqrt rm true a = f32.sqrt rm false (f32.flush a) ∧
    frcp true a = f32.flushed (frcp false (f32.flush a)) ∧ frsq true a = f32.flushed (frsq false (f32.flush a)) ∧
    flog2 true a = f32.flushed (flog2 false (f32.flush a)) ∧ fexp2 true a = f32.flushed (fexp2 false (f32.flush a)) ∧
    ftanh true a = f32.flushed (ftanh false (f32.flush a))) ∧
  (∀ rm : Rm, f32.sqrt rm false 0x7F800000 = (0x7F800000, 0) ∧ f32.sqrt rm false 0xFF800000 = (0x7FC00000, 1)) ∧
  [0xFF800000, 0x80000000, 0, 0x7F800000].map (frcp false) = [(0x80000000, 0), (0xFF800000, 2), (0x7F800000, 2), (0, 0)] ∧
  [0xFF800000, 0x80000000, 0, 0x7F800000].map (frsq false) = [(0x7FC00000, 1), (0xFF800000, 2), (0x7F800000, 2), (0, 0)] ∧
  [0xFF800000, 0x80000000, 0, 0x7F800000].map (flog2 false) = [(0x7FC00000, 1), (0xFF800000, 2), (0xFF800000, 2), (0x7F800000, 0)] ∧
  [0xFF800000, 0x80000000, 0, 0x7F800000].map (fexp2 false) = [(0, 0), (0x3F800000, 0), (0x3F800000, 0), (0x7F800000, 0)] ∧
  [0xFF800000, 0x80000000, 0, 0x7F800000].map (ftanh false) = [(0xBF800000, 0), (0x80000000, 0), (0, 0), (0x3F800000, 0)] ∧
  (∀ (ftz : Bool) (a b : Nat), a < 2 ^ 32 → b < 2 ^ 32 →
    let fl := fun c => if ftz then f32.flush c else c
    let key := fun (c : Nat) => if c < 2 ^ 31 then (c : Int) else -((c : Int) - 2 ^ 31) - 1
    (f32.isNan a = false → f32.isNan b = false →
      f32.minmax ftz true a b = (if key (fl a) ≤ key (fl b) then fl a else fl b, 0) ∧
      f32.minmax ftz false a b = (if key (fl a) ≤ key (fl b) then fl b else fl a, 0)) ∧
    (∀ w : Bool, (f32.isNan a = true → f32.isNan b = false → f32.minmax ftz w a b = (fl b, f32.nv [a]) ∧ f32.minmax ftz w b a = (fl b, f32.nv [a])) ∧
      (f32.isNan a = true → f32.isNan b = true → f32.minmax ftz w a b = (f32.qnan, f32.nv [a, b]))))

/-- The value of term(s, e) of R289. -/
def psValue (s : Bool) (e : Nat) : ℚ := if e = 7 then 0 else (if s then -1 else 1) / 2 ^ e

/-- The value of a narrow element of a dq opcode (R182, R288 to R290); `none` where it is NaN or an infinity. -/
def dqReal (op v : Nat) : Option ℚ :=
  match op with
  | 0x4B => if v % 128 = 127 then none else some (Fmt.real { eb := 4, mb := 3 } v)
  | 0x4C => if 0x7C ≤ v % 128 then none else some (Fmt.real { eb := 5, mb := 2 } v)
  | 0x4D => some (Fmt.real { eb := 3, mb := 2 } v)
  | 0x4E => some (Fmt.real { eb := 2, mb := 3 } v)
  | 0x4F => some (Fmt.real { eb := 2, mb := 1 } v)
  | 0x50 => some ((BitVec.ofNat 8 v).toInt : ℚ)
  | 0x51 => some ((BitVec.ofNat 4 v).toInt : ℚ)
  | 0x52 => some (psValue (v.testBit 7) (v / 16 % 8) + psValue (v.testBit 3) (v % 8))
  | _ => some (psValue (v.testBit 3) (v % 8))

/-- R179, R180, R182: the conversions and dequantizations. Widening is exact; a narrowing, an integer made a number, and an element times its scale are the exact
value rounded once; a number made an integer is the integral value in the mode, or the nearest bound with NV; the forms of integers saturate; FP8 results saturate
or overflow as R180 says. -/
def roundedConversions : Prop :=
  (∀ (rm : Rm) (ftz : Bool) (a b : W32),
    let c := if ftz then f32.flush a.toNat else a.toNat
    let x : ℚ := f32.real c
    let sign := fun (n : Nat) => if f32.minus c then n else 0
    let bad := f32.nv [c]
    convert 0 rm ftz a b = (if f32.isNan c then (f32.qnan, bad) else (c, 0)) ∧
    (∀ (cv h : Nat) (f : Fmt), (cv, h, f) ∈ [(1, 0, f16), (2, 0, bf16), (21, 1, f16), (22, 1, bf16)] →
      let d := if ftz then f.flush (a.toNat / 65536 ^ h % 65536) else a.toNat / 65536 ^ h % 65536
      (f.finite d → f32.finite (convert cv rm ftz a b).1 ∧ f32.real (convert cv rm ftz a b).1 = f.real d ∧
        f32.minus (convert cv rm ftz a b).1 = f.minus d ∧ (convert cv rm ftz a b).2 = 0) ∧
      (f.mag d = f.infCode → convert cv rm ftz a b = (f32.signBit (f.minus d) + 0x7F800000, 0)) ∧
      (f.isNan d = true → convert cv rm ftz a b = (f32.qnan, f.nv [d]))) ∧
    (∀ (cv : Nat) (n : Int), (cv, n) ∈ [(3, a.toInt), (4, (a.toNat : Int))] →
      (n = 0 → convert cv rm ftz a b = (0, 0)) ∧ (n ≠ 0 → f32.correct rm n (convert cv rm ftz a b))) ∧
    (∀ (cv : Nat) (f : Fmt), (cv, f) ∈ [(5, f16), (6, bf16)] →
      (f32.finite c → x ≠ 0 → ∃ r, f.correct rm x r ∧ convert cv rm ftz a b = if ftz then f.flushed r else r) ∧
      (f32.finite c → x = 0 → convert cv rm ftz a b = (f.signBit (f32.minus c), 0)) ∧
      (f32.mag c = 0x7F800000 → convert cv rm ftz a b = (f.signBit (f32.minus c) + f.infCode, 0)) ∧
      (f32.isNan c = true → convert cv rm ftz a b = (f.qnan, bad))) ∧
    (∀ (cv : Nat) (lo hi : Int), (cv, lo, hi) ∈ [(7, -2 ^ 31, 2 ^ 31 - 1), (8, 0, 2 ^ 32 - 1), (9, -2 ^ 15, 2 ^ 15 - 1), (10, 0, 2 ^ 16 - 1),
        (11, -2 ^ 7, 2 ^ 7 - 1), (12, 0, 2 ^ 8 - 1)] →
      (f32.finite c → ∃ n : Int, rm.integral x n ∧ convert cv rm ftz a b =
        if n < lo then ((BitVec.ofInt 32 lo).toNat, 1) else if hi < n then ((BitVec.ofInt 32 hi).toNat, 1)
        else ((BitVec.ofInt 32 n).toNat, if x = n then 0 else 16)) ∧
      (f32.mag c = 0x7F800000 → convert cv rm ftz a b = ((BitVec.ofInt 32 (if f32.minus c then lo else hi)).toNat, 1)) ∧
      (f32.isNan c = true → convert cv rm ftz a b = (0, 1))) ∧
    (∀ (cv : Nat) (lo hi n : Int), (cv, lo, hi, n) ∈ [(13, -2 ^ 15, 2 ^ 15 - 1, a.toInt), (14, 0, 2 ^ 16 - 1, a.toInt),
        (15, -2 ^ 7, 2 ^ 7 - 1, a.toInt), (16, 0, 2 ^ 8 - 1, a.toInt), (17, 0, 2 ^ 31 - 1, (a.toNat : Int)), (18, 0, 2 ^ 31 - 1, a.toInt)] →
      convert cv rm ftz a b = ((BitVec.ofInt 32 (max lo (min hi n))).toNat, 0)) ∧
    convert 19 rm ftz a b = packed (convert 5 rm ftz a b) (convert 5 rm ftz b b) ∧
    convert 20 rm ftz a b = packed (convert 6 rm ftz a b) (convert 6 rm ftz b b) ∧
    (f32.finite c → x = 0 → convert 23 rm ftz a b = (sign 0x80, 0) ∧ convert 24 rm ftz a b = (sign 0x80, 0) ∧ convert 25 rm ftz a b = (sign 0x80, 0)) ∧
    (f32.finite c → x ≠ 0 →
      (|x| ≤ 448 → Fmt.near { eb := 4, mb := 3 } 0x7E rm x (convert 23 rm ftz a b).1 ∧ Fmt.exactOr { eb := 4, mb := 3 } rm x (convert 23 rm ftz a b)) ∧
      (448 < |x| → (convert 23 rm ftz a b).1 = sign 0x80 + 0x7E ∧ (convert 23 rm ftz a b).2 ∈ [16, 20]) ∧
      (480 ≤ |x| → (convert 23 rm ftz a b).2 = 20) ∧
      (fE5.beyond rm x → convert 24 rm ftz a b = (sign 0x80 + 0x7B, 20)) ∧ (¬fE5.beyond rm x → fE5.correct rm x (convert 24 rm ftz a b)) ∧
      fE5.correct rm x (convert 25 rm ftz a b)) ∧
    (f32.mag c = 0x7F800000 → convert 23 rm ftz a b = (sign 0x80 + 0x7E, 4) ∧ convert 24 rm ftz a b = (sign 0x80 + 0x7B, 4) ∧
      convert 25 rm ftz a b = (sign 0x80 + 0x7C, 0)) ∧
    (f32.isNan c = true → convert 23 rm ftz a b = (0x7F, bad) ∧ convert 24 rm ftz a b = (0x7E, bad) ∧ convert 25 rm ftz a b = (0x7E, bad))) ∧
  (∀ (op : Nat) (rm : Rm) (v scale : Nat), 0x4B ≤ op → op ≤ 0x53 → v < 2 ^ ([8, 8, 6, 6, 4, 8, 4, 8, 4].getD (op - 0x4B) 8) → scale < 256 →
    dqLane op rm true v scale = f32.flushed (dqLane op rm false v scale) ∧
    (scale = 255 → dqLane op rm false v scale = (f32.qnan, 0)) ∧
    (scale < 255 → (∀ x, dqReal op v = some x →
        (x ≠ 0 → f32.correct rm ((x * 2 ^ ((scale : Int) - 127) : ℚ) : ℝ) (dqLane op rm false v scale)) ∧
        (x = 0 → f32.mag (dqLane op rm false v scale).1 = 0 ∧ (dqLane op rm false v scale).2 = 0)) ∧
      (dqReal op v = none → dqLane op rm false v scale =
        if op = 0x4C ∧ v % 128 = 0x7C then (f32.signBit (v.testBit 7) + 0x7F800000, 0) else (f32.qnan, 0))))

end Sys2Proof.Machine

/-- R169, R175 to R182: what the floating-point functions of the lane words are, as exact values rounded once. -/
def Obligations.LaneRounding : Prop := roundedArithmetic ∧ roundedFunctions ∧ roundedConversions

/-! ## Lane memory accesses -/

namespace Sys2Proof.Machine

/-- A lane access as its row gives it: opcode, fields, space, what it does, the bytes of each lane, the registers it loads from D on, its counter (0 `gld`,
1 `gst`, 2 `spd`), its ordering, and the data and compare words of a lane. -/
structure LaneRow where
  op : Nat
  o : LaneOps
  space : Window
  what : AccOp
  bytes : Nat
  loads : Nat
  ctr : Nat
  acq : Bool
  rel : Bool
  scope : Nat
  data : LaneEnv → Nat → List W32
  cmp : LaneEnv → Nat → List W32

/-- The rows of loads and stores (R199). -/
def loadRow (op ctr : Nat) (w : Window) (o : LaneOps) : LaneRow :=
  { op := op, o := o, space := w, what := .load (o.mod.toNat % 8), bytes := szBytes (o.mod.toNat % 8), loads := szNames (o.mod.toNat % 8),
    ctr := ctr, acq := ordAcq o.c.toNat, rel := false, scope := o.c.toNat % 8, data := fun _ _ => [], cmp := fun _ _ => [] }

def storeRow (op ctr : Nat) (w : Window) (o : LaneOps) : LaneRow :=
  { op := op, o := o, space := w, what := .store, bytes := szBytes (o.mod.toNat % 8), loads := 0, ctr := ctr, acq := false,
    rel := ordRel o.c.toNat, scope := o.c.toNat % 8, data := fun e l => namesAt e.d (szNames (o.mod.toNat % 8)) l, cmp := fun _ _ => [] }

/-- An atomic's row: AOP in MOD[5:2], `.nr` in bit 1, `.b64` in bit 0; its ordering stands in the literal (R194, R201). -/
def atomRow (op ctr ctrNr : Nat) (w : Window) (o : LaneOps) : LaneRow :=
  let n := if o.mod.toNat % 2 = 1 then 2 else 1
  let nr := o.mod.toNat / 2 % 2 == 1
  { op := op, o := o, space := w, what := .atom (o.mod.toNat / 4) (o.mod.toNat % 2 == 1) (!nr), bytes := 4 * n,
    loads := if nr then 0 else n, ctr := if nr then ctrNr else ctr, acq := ordAcq (o.lit.getD 0).toNat, rel := ordRel (o.lit.getD 0).toNat,
    scope := (o.lit.getD 0).toNat % 8, data := fun e l => namesAt e.c n l, cmp := fun e l => namesAt e.d n l }

/-- The lane instructions that issue an access (R199 to R204). -/
def laneRow (i : Instr) : Option LaneRow :=
  match i with
  | .ldG o => some (loadRow 0x100 0 .global o)
  | .ldS o => some (loadRow 0x102 2 .local o)
  | .ldC o => some (loadRow 0x104 2 .cluster o)
  | .stG o => some (storeRow 0x101 1 .global o)
  | .stS o => some (storeRow 0x103 2 .local o)
  | .stC o => some (storeRow 0x105 2 .cluster o)
  | .atomG o => some (atomRow 0x106 0 1 .global o)
  | .atomS o => some (atomRow 0x107 2 2 .local o)
  | .atomC o => some (atomRow 0x108 2 2 .cluster o)
  | .lres o =>
    let n := o.mod.toNat % 2 + 1
    some { op := 0x109, o := o, space := .global, what := .lres (n == 2), bytes := 4 * n, loads := n, ctr := 0, acq := ordAcq o.c.toNat,
           rel := false, scope := o.c.toNat % 8, data := fun _ _ => [], cmp := fun _ _ => [] }
  | .scond o =>
    let n := o.mod.toNat % 2 + 1
    some { op := 0x10A, o := o, space := .global, what := .scond (n == 2), bytes := 4 * n, loads := n, ctr := 0, acq := false,
           rel := ordRel o.c.toNat, scope := o.c.toNat % 8, data := fun e l => namesAt e.d n l, cmp := fun _ _ => [] }
  | .futWr o =>
    some { op := 0x10C, o := o, space := futWindow o.mod.toNat, what := .store, bytes := 8, loads := 0, ctr := if o.mod = 0 then 1 else 2,
           acq := false, rel := ordRel o.c.toNat, scope := o.c.toNat % 8,
           data := fun e l => [(nth e.d 0).lane l, (nth e.d 1).lane l ||| 0x80000000], cmp := fun _ _ => [] }
  | _ => none

/-- The effective address of a lane before alignment: a 64-bit base with a 32-bit offset in global memory; in a scratchpad the low bits of the 32-bit sum (R196). -/
def laneAddress (e : LaneEnv) (w : Window) (l : Nat) : Nat :=
  match w with
  | .global => (((nth e.a 1).lane l ++ (nth e.a 0).lane l : W64) + (e.bv l).setWidth 64).toNat
  | .local => (e.av l + e.bv l).toNat % 2 ^ 21
  | .cluster => (e.av l + e.bv l).toNat % (e.x.members * 2 ^ 21)

/-- One lane's part as it issues. -/
def LaneRow.part (r : LaneRow) (e : LaneEnv) (l : Nat) : LaneAcc := e.part r.space r.bytes l (r.data e l) (r.cmp e l)

/-- The state after a word that issues access `a` on counter `c`: the access in flight behind the others, its counter and its flag one higher, the clause past
the word, every lane register and every byte as they were. -/
def State.accessIssued (u t : State) (e : LaneEnv) (a : Access) (c : Nat) : Prop :=
  (t.grp e.g).acc = (u.grp e.g).acc ++ [a] ∧ (t.grp e.g).counter c = (u.grp e.g).counter c + 1 ∧
  (∀ f, (t.grp e.g).flagCount f = (u.grp e.g).flagCount f + if a.flag = some f then 1 else 0) ∧
  (∀ r, (t.grp e.g).reg r = (u.grp e.g).reg r) ∧ (∀ k, (t.grp e.g).mask k = (u.grp e.g).mask k) ∧ u.sameBytes t ∧
  u.clauseMoves t e (e.notes a.dst a.dcount (if a.mreg = 0 then none else some a.mreg))

/-- R193, R194, R196, R197, R199 to R204: a lane access. A word with an active lane whose destinations lie below GCOUNT, whose counter is not full, which
no ACQ command holds and no faulted access, and whose every lane translates, issues: its access is in flight with the addresses and the data of its active lanes. A
scratchpad's lanes lie at the low bits of their sum, the cluster's members interleaved by 128 bytes, and are not translated. -/
def laneAccessIssues : Prop :=
  (∀ (i : Instr) (r : LaneRow) (s u : State) (e : LaneEnv) (ls : List LaneAcc), laneRow i = some r → s.laneFront r.op r.o = .ok e → e.act ≠ 0 →
    (∀ k, k < r.loads → r.o.d.toNat + k < (s.grp e.g).desc.gcount) → (s.grp e.g).counter r.ctr ≠ 0xFFFF →
    s.heldByAcq e.g e.sp e.run.no = false → (s.grp e.g).faulted = false →
    ((s.setGrp e.g e.x).fresh.2).translateLanes (s.grp e.g).core r.what.need (e.lanes.map (r.part e)) = (u, .ok ls) →
    (∀ l ∈ ls, l.fault = none) →
    ∃ t a, exec i s = .next t ∧ u.accessIssued t e a r.ctr ∧ a.no = e.run.no ∧ a.id = s.nextId ∧ a.split = e.sp ∧ a.life = (s.split e.g e.sp).life ∧ a.op = r.what ∧ a.lanes = ls ∧
      a.dst = (if r.loads = 0 then a.dst else r.o.d.toNat) ∧ a.dcount = r.loads ∧ a.mreg = 0 ∧ a.ctr = some r.ctr ∧ a.acq = r.acq ∧ a.rel = r.rel ∧
      a.scope = r.scope ∧ a.flag = e.run.flagOf r.o.fl) ∧
  (∀ (r : LaneRow) (e : LaneEnv) (l : Nat), (r.part e l).lane = l ∧ (r.part e l).size = r.bytes ∧ (r.part e l).data = r.data e l ∧
    (r.part e l).cmp = r.cmp e l ∧ (r.space = .global → (r.part e l).place = none ∧
      (r.part e l).va = BitVec.ofNat 64 (laneAddress e .global l / r.bytes * r.bytes)) ∧
    (r.space = .local → (r.part e l).va = BitVec.ofNat 64 (laneAddress e .local l / r.bytes * r.bytes) ∧
      (r.part e l).place = some (.spad e.x.core, laneAddress e .local l / r.bytes * r.bytes)) ∧
    (r.space = .cluster → ∀ off, off = laneAddress e .cluster l / r.bytes * r.bytes → (r.part e l).va = BitVec.ofNat 64 off ∧
      (r.part e l).place = some (.spad (e.x.coreOf (off / 128 % e.x.members)), off / 128 / e.x.members * 128 + off % 128))) ∧
  (∀ (s : State) (c : Nat) (n : Need) (ls : List LaneAcc), (∀ l ∈ ls, l.place.isSome = true) → s.translateLanes c n ls = (s, .ok ls))

/-- R211: with no active lane a lane access touches nothing: once what its ordering names is performed, its clause goes on. -/
def laneAccessOfNoLane : Prop :=
  ∀ (i : Instr) (r : LaneRow) (s : State) (e : LaneEnv), laneRow i = some r → s.laneFront r.op r.o = .ok e → e.act = 0 →
    (e.x.fenced r.acq r.rel = true → ∃ t, exec i s = .next t ∧ s.clauseMoves t e (e.forgets 0 0 none) ∧ s.laneKeeps t e 0 0 none) ∧
    (e.x.fenced r.acq r.rel = false → exec i s = .next s)

/-- An access of the word's split, in the word's place, that does nothing: where a GLEAN or a FUT.RD that reads at once stands in the order. -/
def LaneEnv.probe (e : LaneEnv) (id : Nat) : Access :=
  { id := id, split := e.sp, op := .load 5, lanes := [], dst := 0, dcount := 0, mreg := 0, flag := none, ctr := none, acq := false, rel := false, scope := 0,
    addr := clauseAt e.run.addr e.run.off, no := e.run.no, life := (e.x.split e.sp).life }

/-- R75, R321, R332, R342, R367: the accesses that are not to bytes of memory. ACCRD, ACCWR and ACCERM of a tile below ACCN whose token is at the vector side
issue on `spd`; of a tile at or above ACCN they are illegal instructions, and with the token away when they would issue, the trap of the token. RECPUT issues with
four words and its node for each record, and GLEAN, in its place among the split's accesses, with what it has read of its descriptor's matrix: when a GLEAN
reads, and what the cache holds, is the model's reading (logs 2, 24). With `.acq.dev` the cache is emptied first. An element outside the matrix is absent, and
reads as zero. -/
def unitAccessIssues : Prop :=
  (∀ (i : Instr) (op n : Nat) (o : LaneOps) (s : State) (e : LaneEnv),
    (i, op, n) ∈ [(Instr.accrd o, 0x180, 1), (.accwr o, 0x181, 0), (.accerm o, 0x182, 1)] → s.laneFront op o = .ok e →
    ((s.grp e.g).desc.accn ≤ o.a.toNat → exec i s = .next (s.fatal e.g 0x10 (clauseAt e.run.addr e.run.off) e.act 0 e.sp)) ∧
    (o.a.toNat < (s.grp e.g).desc.accn → (∀ k, k < n → o.d.toNat + k < (s.grp e.g).desc.gcount) →
      ((s.tile (s.grp e.g).core (s.tileNo e.g o.a.toNat)).tokenV = false →
        e.act = 0 ∨ ((s.grp e.g).counter 2 ≠ 0xFFFF ∧ s.heldByAcq e.g e.sp e.run.no = false ∧ (s.grp e.g).faulted = false) →
        exec i s = .next (s.fatal e.g 0x15 (clauseAt e.run.addr e.run.off) e.act 0 e.sp)) ∧
      ((s.tile (s.grp e.g).core (s.tileNo e.g o.a.toNat)).tokenV = true → e.act ≠ 0 → (s.grp e.g).counter 2 ≠ 0xFFFF →
        s.heldByAcq e.g e.sp e.run.no = false → (s.grp e.g).faulted = false →
        ∃ t a, exec i s = .next t ∧ s.accessIssued t e a 2 ∧ a.id = s.nextId ∧ a.dst = o.d.toNat ∧ a.dcount = n ∧
          a.op = (if op = 0x180 then .accrd (s.tileNo e.g o.a.toNat) (o.mod == 1) else if op = 0x181 then .accwr (s.tileNo e.g o.a.toNat)
            else .accerm (s.tileNo e.g o.a.toNat)) ∧
          a.lanes.map (fun l => (l.lane, l.data, l.place.map (·.2))) = e.lanes.map (fun l => (l, if op = 0x181 then [e.dv l] else [],
            some (if op = 0x182 then 16384 + (e.bv l).toNat % 4 else (e.bv l).toNat % 16384)))))) ∧
  (∀ (o : LaneOps) (s : State) (e : LaneEnv), s.laneFront 0x110 o = .ok e → e.act ≠ 0 → o.d.toNat < (s.grp e.g).desc.gcount →
    (s.grp e.g).counter 0 ≠ 0xFFFF → s.heldByAcq e.g e.sp e.run.no = false → (s.grp e.g).faulted = false → ∃ t a, exec (.recput o) s = .next t ∧ s.accessIssued t e a 0 ∧
      a.id = s.nextId ∧ a.op = .recput 0 ∧ a.dst = o.d.toNat ∧ a.dcount = 1 ∧ a.rel = true ∧
      a.lanes.map (fun l => (l.lane, l.data, l.cmp)) = e.lanes.map (fun l => (l, (List.range 4).map (fun k => (nth e.a k).lane l), [e.bv l]))) ∧
  (∀ (o : LaneOps) (s v u : State) (e : LaneEnv) (d : List Byte) (ls : List LaneAcc), s.laneFront 0x183 o = .ok e → e.act ≠ 0 →
    o.d.toNat < (s.grp e.g).desc.gcount → (s.grp e.g).counter 3 ≠ 0xFFFF → s.heldByAcq e.g e.sp e.run.no = false →
    d = (s.core (s.grp e.g).core).gdescs.get (List.replicate 64 0) o.mod.toNat → (s.grp e.g).maskBusy (gdMreg d) = false →
    (s.grp e.g).gleanMay e.sp = true → (s.grp e.g).bornDone (e.probe s.nextId) = true →
    v = (if ordAcq o.c.toNat then (s.setGrp e.g e.x).fresh.2.modCore (s.grp e.g).core (fun k => { k with gcache := [] }) else (s.setGrp e.g e.x).fresh.2) →
    v.gleanParts (s.grp e.g).core d (e.lanes.map (fun l => (l, e.av l, e.bv l))) = (u, .ok ls) → (∀ l ∈ ls, l.fault = none) →
    ∃ t a, exec (.glean o) s = .next t ∧ u.accessIssued t e a 3 ∧ a.id = s.nextId ∧ a.acq = ordAcq o.c.toNat ∧ a.lanes = ls ∧ a.dst = o.d.toNat ∧ a.dcount = 1 ∧
      a.mreg = gdMreg d) ∧
  (∀ (s : State) (c r k : Nat) (d : List Byte), numAt d 4 4 ≤ r ∨ numAt d 8 4 ≤ k → s.gleanLane c false d r k = (s, .ok [0, 1]))

end Sys2Proof.Machine

/-- R199 to R204, R211: lane accesses as they issue. -/
def Obligations.LaneAccess : Prop := laneAccessIssues ∧ laneAccessOfNoLane ∧ unitAccessIssues

/-- R204, R58, R271: FUT.RD of futures that are all full gives each lane's 63 bits; where one is empty, the clause stops at the word and "future empty" is
raised, with the empty lanes and the address of the lowest; the word then goes on with the lanes that it had (R275). A FUT.RD of futures in a scratchpad completes
wherever they are full and sound and no access of the group is in flight; with no active lane it completes once what its ordering names is performed. -/
def Obligations.FutureReads : Prop :=
  (∀ (o : LaneOps) (s : State) (e : LaneEnv), s.laneFront 0x10B o = .ok e → (∀ k, k < 2 → o.d.toNat + k < (s.grp e.g).desc.gcount) →
    (e.act = 0 → e.x.fenced (ordAcq o.c.toNat) false = true → ∃ t, exec (.futRd o) s = .next t ∧ s.clauseMoves t e (e.forgets 0 0 none) ∧ s.laneKeeps t e 0 0 none) ∧
    (e.act ≠ 0 → o.mod = 1 ∨ o.mod = 2 → s.heldByAcq e.g e.sp e.run.no = false → (s.grp e.g).acc = [] → (s.split e.g e.sp).born = [] →
      (∀ l, e.act.getLsbD l = true → ∀ p, (e.part (futWindow o.mod.toNat) 8 l [] []).place = some p →
        s.badPlace p 8 = false ∧ (leNat (s.readPlace p 8)).testBit 63 = true) →
      ∃ t, exec (.futRd o) s = .next t ∧ s.clauseMoves t e (e.forgets o.d.toNat 2 none) ∧ s.laneKeeps t e o.d.toNat 2 none ∧
        ∀ l, e.act.getLsbD l = true → ∀ p, (e.part (futWindow o.mod.toNat) 8 l [] []).place = some p →
          ((t.grp e.g).reg o.d.toNat).lane l = BitVec.ofNat 32 (leNat (s.readPlace p 8)) ∧
          ((t.grp e.g).reg (o.d.toNat + 1)).lane l = BitVec.ofNat 32 (leNat (s.readPlace p 8) / 2 ^ 32) &&& 0x7FFFFFFF)) ∧
  ∀ (o : LaneOps) (s u : State) (e : LaneEnv) (ls : List LaneAcc) (a : Access), s.laneFront 0x10B o = .ok e → e.act ≠ 0 →
    o.d.toNat + 1 < (s.grp e.g).desc.gcount → s.heldByAcq e.g e.sp e.run.no = false → (s.grp e.g).faulted = false →
    s.translateLanes (s.grp e.g).core { r := true } (e.lanes.map (fun l => e.part (futWindow o.mod.toNat) 8 l [] [])) = (u, .ok ls) →
    (∀ l ∈ ls, l.fault = none) →
    a = { e.probe u.nextId with lanes := ls } →
    e.x.mayPerform a = true → u.badLane a = none →
    ((∀ l ∈ ls, ∃ p, l.place = some p ∧ (leNat (u.readPlace p 8)).testBit 63 = true) → ∃ t, exec (.futRd o) s = .next t ∧
      u.clauseMoves t e (e.forgets o.d.toNat 2 none) ∧
      ∀ l ∈ ls, ∀ p, l.place = some p → (ls.find? (fun k => k.lane == l.lane)) = some l → e.act.getLsbD l.lane = true →
        ((t.grp e.g).reg o.d.toNat).lane l.lane = BitVec.ofNat 32 (leNat (u.readPlace p 8)) ∧
        ((t.grp e.g).reg (o.d.toNat + 1)).lane l.lane = BitVec.ofNat 32 (leNat (u.readPlace p 8) / 2 ^ 32) &&& 0x7FFFFFFF) ∧
    (∀ l rest, ls.filter (fun l => l.place.all (fun p => !(leNat (u.readPlace p 8)).testBit 63)) = l :: rest → e.handler = false →
      (u.grp e.g).utvec ≠ 0 → ∃ t q, exec (.futRd o) s = .next t ∧ (t.split e.g e.sp).run = (u.split e.g e.sp).run.map (fun r => { r with stopped := true, retry := some e.act }) ∧
        (t.split e.g e.sp).traps = (u.split e.g e.sp).traps ++ [q] ∧ q.code = 1 ∧ q.info = l.va ∧ q.pc = clauseAt e.run.addr e.run.off ∧
        (∀ j, j < 64 → q.mask.getLsbD j = (l :: rest).any (fun k => k.lane == j)) ∧ (∀ r, (t.grp e.g).reg r = (u.grp e.g).reg r) ∧ u.sameBytes t)

namespace Sys2Proof.Machine

/-- Access `a` of group `g` may be performed and completes. -/
def State.completes (s : State) (g : Nat) (a : Access) : Prop :=
  (s.grp g).laidOut = false ∧ (s.grp g).acc.find? (fun b => b.id == a.id) = some a ∧ a.op.isLane = true ∧ (∀ l ∈ a.lanes, l.fault = none ∧ l.result = none) ∧
  (s.grp g).mayPerform a = true ∧ s.badLane a = none

/-- The access has left: its flag fell, and the counter of the one access in flight on it. -/
def State.accessGone (s t : State) (g : Nat) (a : Access) : Prop :=
  (∀ b ∈ (t.grp g).acc, b.id ≠ a.id) ∧ (∀ f, (t.grp g).flagCount f = (s.grp g).flagCount f - if a.flag = some f then 1 else 0) ∧
  (∀ c, (s.grp g).inflight = [{ ctr := c, id := a.id, returned := false }] → (t.grp g).counter c = (s.grp g).counter c - 1)

/-- The new value of an integer atomic on w bits (R201). -/
def atomValue {w : Nat} (aop : Nat) (old c d : BitVec w) : BitVec w :=
  match aop with
  | 0 => old + c
  | 1 => old &&& c
  | 2 => old ||| c
  | 3 => old ^^^ c
  | 4 => c
  | 5 => if old = d then c else old
  | 6 => if old.toInt ≤ c.toInt then old else c
  | 7 => if old.toInt ≤ c.toInt then c else old
  | 8 => if old.toNat ≤ c.toNat then old else c
  | _ => if old.toNat ≤ c.toNat then c else old

/-- The number that a lane of a store or an atomic leaves in memory, from the number that stood there (R200, R201); none for a load. The sum of binary32
numbers rounds to nearest even. -/
def accessNew (op : AccOp) (l : LaneAcc) (old : Nat) : Option Nat :=
  match op with
  | .store => some (natOfWords l.data)
  | .atom 10 _ _ => some (f32.add .rne false old (natOfWords l.data)).1
  | .atom aop true _ => some (atomValue aop (BitVec.ofNat 64 old) (BitVec.ofNat 64 (natOfWords l.data)) (BitVec.ofNat 64 (natOfWords l.cmp))).toNat
  | .atom aop false _ => some (atomValue aop (BitVec.ofNat 32 old) (BitVec.ofNat 32 (natOfWords l.data)) (BitVec.ofNat 32 (natOfWords l.cmp))).toNat
  | _ => none

/-- The words that a lane brings back, from the number that stood in memory (R199, R201, R202). -/
def accessWords (op : AccOp) (old : Nat) : List W32 :=
  match op with
  | .load sz => extendLoad sz old
  | .atom _ w64 _ | .lres w64 => wordsOf (if w64 then 2 else 1) old
  | _ => []

/-- Lanes act one after the other on bytes: the bytes that they leave, and the number that each of them found (R200, R201). -/
def lanesAct (op : AccOp) (ls : List LaneAcc) (m : Space → Nat → Byte) : (Space → Nat → Byte) × List Nat :=
  match ls with
  | [] => (m, [])
  | l :: rest =>
    let p := l.place.getD (.hbm, 0)
    let old := leNat ((List.range l.size).map (fun k => m p.1 (p.2 + k)))
    let r := lanesAct op rest (match accessNew op l old with
      | some v => fun sp a => if sp = p.1 ∧ p.2 ≤ a ∧ a < p.2 + l.size then (leBytes l.size v).getD (a - p.2) 0 else m sp a
      | none => m)
    (r.1, old :: r.2)

/-- The lanes of an access lie in the group, ascending, each at a place in HBM or in a scratchpad. -/
def Group.lanesLie (x : Group) (ls : List LaneAcc) : Prop :=
  ls.Pairwise (fun k l => k.lane < l.lane) ∧ ∀ l ∈ ls, l.lane < x.desc.w ∧ l.lane < 64 ∧ ∃ p, l.place = some p ∧ (p.1 = .hbm ∨ ∃ c, p.1 = .spad c)

/-- From `s` to `t` the access's registers take `words`, in its lanes and in the lanes' order; other lanes and other registers stay. -/
def State.lands (s t : State) (g : Nat) (a : Access) (words : List (List W32)) : Prop :=
  (∀ q ∈ a.lanes.zip words, ∀ k, k < a.dcount → ((t.grp g).reg (a.dst + k)).lane q.1.lane = q.2.getD k 0) ∧
  (∀ r l, l < (s.grp g).desc.w → ((∀ k ∈ a.lanes, k.lane ≠ l) ∨ r < a.dst ∨ a.dst + a.dcount ≤ r) →
    ((t.grp g).reg r).lane l = ((s.grp g).reg r).lane l)

/-- Which lanes of an SCOND store, in ascending order: those whose reservation is held, but for a granule in which a lower lane has stored (R202). -/
def scondStores (held : LaneAcc → Bool) (taken : List Nat) (ls : List LaneAcc) : List Bool :=
  match ls with
  | [] => []
  | l :: rest =>
    let gr := (l.place.getD (.hbm, 0)).2 / 64
    let ok := held l && !taken.contains gr
    ok :: scondStores held (if ok then gr :: taken else taken) rest

/-- R37, R199 to R203: an access completes. Its lanes act in ascending order, in HBM or in a scratchpad: a load writes its registers, extended as its size
says; a store writes its bytes and no others, a higher lane's over a lower lane's; an atomic replaces the old value, which its registers take. LRES makes each
lane's reservation; SCOND stores and answers 0 in a lane whose reservation is still held, one lane for a granule, else stores nothing there and answers 1, and
ends the reservations. Its flag clears and its counter falls. -/
def laneAccessCompletes : Prop :=
  ∀ (s : State) (g : Nat) (a : Access), s.completes g a → s.hbm.wf = true → (∀ c, (s.core c).spad.wf = true) → a.mreg = 0 →
    (s.grp g).lanesLie a.lanes →
    ((∃ sz, a.op = .load sz) ∨ a.op = .store ∨ (∃ aop w64 ret, a.op = .atom aop w64 ret) →
      ∃ t, exec (.longLatencyCompletion g a.id) s = .next t ∧ s.accessGone t g a ∧
        (∀ sp b, t.byteAt sp b = (lanesAct a.op a.lanes s.byteAt).1 sp b) ∧
        s.lands t g a ((lanesAct a.op a.lanes s.byteAt).2.map (accessWords a.op))) ∧
    (∀ w64, a.op = .lres w64 → (∀ l ∈ a.lanes, ∃ pa, l.place = some (.hbm, pa)) →
      ∃ t, exec (.longLatencyCompletion g a.id) s = .next t ∧ s.accessGone t g a ∧ s.sameBytes t ∧
        (∀ l ∈ a.lanes, ∀ pa, l.place = some (.hbm, pa) → (t.split g a.split).resv.find (l.lane + 64 * a.life) = some (pa / 64)) ∧
        s.lands t g a ((lanesAct a.op a.lanes s.byteAt).2.map (accessWords a.op))) ∧
    (∀ w64 oks, a.op = .scond w64 → (∀ l ∈ a.lanes, ∃ pa, l.place = some (.hbm, pa)) →
      oks = scondStores (fun l => (s.split g a.split).resv.find (l.lane + 64 * a.life) == some ((l.place.getD (.hbm, 0)).2 / 64)) [] a.lanes →
      ∃ t, exec (.longLatencyCompletion g a.id) s = .next t ∧ s.accessGone t g a ∧
        (∀ sp b, t.byteAt sp b = (lanesAct .store (((a.lanes.zip oks).filter (·.2)).map (·.1)) s.byteAt).1 sp b) ∧
        (∀ l ∈ a.lanes, (t.split g a.split).resv.find (l.lane + 64 * a.life) = none) ∧
        s.lands t g a (oks.map (fun ok => (if ok then 0 else 1) :: (if w64 then [0] else []))))

/-- R212, R229, R230: a lane access whose lanes do not all translate is issued all the same: the group parks, with a record of the first faulted lane's
address and cause. Without room for the record the access waits as one that has not returned, and takes its record when there is room. -/
def laneAccessFaults : Prop :=
  (∀ (s : State) (g c : Nat) (a : Access) (l : LaneAcc), (s.grp g).acc.find? (fun b => b.id == a.id) = some a → a.op.isLane = true → a.lanes = [l] →
    l.fault = some c → l.lane < 64 → (∀ f ∈ s.frecs, f.owner ≠ .access g a.split a.id) →
    (s.recordRoom g (s.grp g).core = false → exec (.longLatencyCompletion g a.id) s = .next s) ∧
    (s.recordRoom g (s.grp g).core = true → (s.grp g).st = .active → ∃ t f, exec (.longLatencyCompletion g a.id) s = .next t ∧ (t.grp g).st = .parked ∧
      f ∈ t.frecs ∧ f.owner = .access g a.split a.id ∧ f.cause = c ∧ f.va.toNat = l.va.toNat % 2 ^ 56 ∧ f.lanes = 1#64 <<< l.lane ∧ s.sameBytes t)) ∧
  ∀ (i : Instr) (r : LaneRow) (s u : State) (e : LaneEnv) (ls : List LaneAcc) (l : LaneAcc) (c : Nat), laneRow i = some r → r.what = .store →
    s.laneFront r.op r.o = .ok e → e.act ≠ 0 → (s.grp e.g).counter r.ctr ≠ 0xFFFF → s.heldByAcq e.g e.sp e.run.no = false →
    ((s.setGrp e.g e.x).fresh.2).translateLanes (s.grp e.g).core r.what.need (e.lanes.map (r.part e)) = (u, .ok ls) →
    ls = [l] → l.fault = some c → l.place = none → (u.split e.g e.sp).born = [] → u.recordRoom e.g (u.grp e.g).core = true → (u.grp e.g).acc = [] → (u.grp e.g).st = .active →
    (∀ f ∈ u.frecs, f.owner ≠ .access e.g e.sp s.nextId) → l.lane < 64 →
    ∃ t f, exec i s = .next t ∧ (t.grp e.g).st = .parked ∧ f ∈ t.frecs ∧ f.owner = .access e.g e.sp s.nextId ∧ f.cause = c ∧ f.kind = 1 ∧
      f.va.toNat = l.va.toNat % 2 ^ 56 ∧ f.lanes = 1#64 <<< l.lane ∧ f.numbered = false ∧ u.sameBytes t

end Sys2Proof.Machine

/-- R37, R199 to R203, R212, R229: lane accesses as they end, and as they fault. That an access is performed and returned by one event is the model's
choice (log 7). -/
def Obligations.LaneAccessEnds : Prop := laneAccessCompletes ∧ laneAccessFaults

/-! ## Events of the device -/

/-- R49 to R51, R276: the scheduler. A quantum of 256 clocks makes a change of split due; at a clause boundary the lowest split with a trap to
deliver, or else, when the quantum is over or the current split waits, the next split in ascending number that is not held, becomes current; inside a
clause nothing changes. A ready head of the pending set enters a free place of the active set, or that of the youngest waiting group, and is Active
after 4 clocks. A pending group that waits no more is ready, at the head when its wait ended in the clock in which it was swapped out, which is
latched at the end of that clock. The events and their order are the model's choice (log 1). -/
def Obligations.Scheduling : Prop :=
  (∀ (g : Nat) (s : State), (s.grp g).st = .active →
    ((s.grp g).curSince + 256 ≤ s.clock → exec (.splitQuantumExpiry g) s = .next (s.modGrp g (fun x => { x with changeDue := true }))) ∧
    (s.clock < (s.grp g).curSince + 256 → exec (.splitQuantumExpiry g) s = .next s)) ∧
  (∀ (g i : Nat) (s : State), (s.grp g).st = .active → 1 ≤ i → i ≤ 4 →
    (((s.grp g).split (s.grp g).cur).midClause = true → exec (.currentSplitChange g) s = .next s) ∧
    (((s.grp g).split (s.grp g).cur).midClause = false → (∀ k, k ≠ (s.grp g).cur → ((s.grp g).split k).traps = []) →
      ((s.grp g).changeDue = true ∨ s.splitGives g (s.grp g).cur = true) → s.splitHeld g (((s.grp g).cur + i) % 4) = false →
      (∀ j, 1 ≤ j → j < i → s.splitHeld g (((s.grp g).cur + j) % 4) = true) →
      exec (.currentSplitChange g) s = .next (s.modGrp g (fun x => { x with
        cur := ((s.grp g).cur + i) % 4
        curSince := s.clock
        changeDue := false }))) ∧
    (((s.grp g).split (s.grp g).cur).midClause = false → (∀ k, ((s.grp g).split k).inHandler = false) → i < 4 → i ≠ (s.grp g).cur →
      ((s.grp g).split i).live = true → ((s.grp g).split i).traps ≠ [] →
      (∀ k, k < i → ((s.grp g).split k).live = true → ((s.grp g).split k).traps = []) →
      exec (.currentSplitChange g) s = .next (s.modGrp g (fun x => { x with
        cur := i
        curSince := s.clock
        changeDue := false })))) ∧
  (∀ (c k g : Nat) (rest : List Nat) (s : State), (s.sector c k).pending = g :: rest →
    ((s.grp g).ready = false → exec (.activeSetSwap c k) s = .next s) ∧
    ((s.grp g).ready = true → (s.sector c k).active.length + (s.sector c k).swaps.length < 8 →
      ∃ t, exec (.activeSetSwap c k) s = .next t ∧ t.sector c k = { s.sector c k with
        pending := rest.filter (fun h => h != g)
        swaps := (s.sector c k).swaps ++ [(g, s.clock + 4)] } ∧ (∀ h, t.grp h = s.grp h)) ∧
    (∀ h, (s.grp g).ready = true → 8 ≤ (s.sector c k).active.length + (s.sector c k).swaps.length → h ∈ (s.sector c k).active →
      s.groupWaits h = true → (∀ j ∈ (s.sector c k).active, s.groupWaits j = true → j ≠ h → (s.grp j).age < (s.grp h).age) →
      ∃ t, exec (.activeSetSwap c k) s = .next t ∧ (t.sector c k).active = (s.sector c k).active.filter (fun j => j != h) ∧
        (t.sector c k).pending = rest.filter (fun j => j != g) ++ [h] ∧ (t.sector c k).swaps = (s.sector c k).swaps ++ [(g, s.clock + 4)] ∧
        (t.grp h).st = .pending ∧ (t.grp h).ready = false) ∧
    ((s.grp g).ready = true → 8 ≤ (s.sector c k).active.length + (s.sector c k).swaps.length →
      (∀ h ∈ (s.sector c k).active, s.groupWaits h = false) → exec (.activeSetSwap c k) s = .next s)) ∧
  (∀ (c k g due : Nat) (s : State), (s.sector c k).swaps = [(g, due)] →
    (due ≤ s.clock → ∃ t, exec (.swapComplete c k g) s = .next t ∧ (t.grp g).st = .active ∧
      t.sector c k = { s.sector c k with
        active := (s.sector c k).active ++ [g]
        swaps := [] }) ∧
    (s.clock < due → exec (.swapComplete c k g) s = .next s)) ∧
  (∀ (g : Nat) (s : State), (s.grp g).st = .pending → (s.grp g).ready = false →
    (s.groupWaits g = false → ∃ t, exec (.waitRelease g) s = .next t ∧ (t.grp g).st = .pending ∧ (t.grp g).ready = true ∧
      ((s.grp g).released = true ∨ (s.grp g).outAt = some s.clock → (t.sector (s.grp g).core (s.grp g).sector).pending =
        g :: (s.sector (s.grp g).core (s.grp g).sector).pending.filter (fun h => h != g)) ∧
      ((s.grp g).released = false → (s.grp g).outAt ≠ some s.clock → (∀ h ∈ (s.sector (s.grp g).core (s.grp g).sector).pending, (s.grp h).ready = true) →
        (t.sector (s.grp g).core (s.grp g).sector).pending =
          (s.sector (s.grp g).core (s.grp g).sector).pending.filter (fun h => h != g) ++ [g])) ∧
    (s.groupWaits g = false → (s.grp g).outAt = some s.clock → (s.latchReleases.grp g).released = true) ∧
    (s.groupWaits g = true → exec (.waitRelease g) s = .next s))

namespace Sys2Proof.Machine

/-- The 32 bytes of a fault-queue entry (R232). -/
def faultEntry (r : FRec) (seq : W64) (time : Nat) : List Byte :=
  leBytes 8 seq.toNat ++ leBytes 8 r.va.toNat ++ leBytes 8 r.lanes.toNat ++ leBytes 1 r.core ++
    leBytes 1 (r.kind + 16 * r.split + 64 * r.cause) ++ leBytes 2 (r.slot + 64 * r.tag + 8192 * r.eng) ++ leBytes 4 (time / 1024 % 2 ^ 32)

end Sys2Proof.Machine

/-- R231, R232, R235, R234: the fault queue. The record that is next in order takes the next sequence number and its entry is written, while the queue
holds fewer than 4096, once the clock in which it became ready has ended (log 114); the replay of a resolved record walks again and performs the
waiting lane, its group going on when no record is left, or faults again as a new record. An access of another device is performed and answered, or
its fault enters the queue with KIND 7; an uncorrectable error is journalled, and told to its device. -/
def Obligations.FaultQueue : Prop :=
  (∀ (id : Nat) (s : State) (r : FRec), s.frecs.find? (fun q => q.id == id && q.status == .buffered) = some r →
    (∀ q ∈ s.frecs, q.status = .buffered → q.before r = false) → s.hbm.wf = true →
    (s.clock ≤ r.since → exec (.faultRecordAppend id) s = .next s) ∧
    (r.since < s.clock → (s.frecs.filter FRec.inQueue).length < 4096 → s.fqbase.toNat + 32 * (s.fqNext.toNat % 4096) + 32 ≤ 0x6000000000 →
      s.time < 2 ^ 64 → ∃ t q, exec (.faultRecordAppend id) s = .next t ∧ t.fqNext = s.fqNext + 1 ∧ q ∈ t.frecs ∧ q.id = id ∧ q.seq = s.fqNext ∧
        q.numbered = true ∧ q.status = .queued ∧
        t.hbmRead (s.fqbase.toNat + 32 * (s.fqNext.toNat % 4096)) 32 = faultEntry r s.fqNext s.time) ∧
    (4096 ≤ (s.frecs.filter FRec.inQueue).length → exec (.faultRecordAppend id) s = .next s)) ∧
  (∀ (id : Nat) (s u : State) (r : FRec) (g sp acc : Nat) (a : Access) (l : LaneAcc),
    s.frecs.find? (fun q => q.id == id && q.resolved && q.holds) = some r → s.heldInOrder r = false → r.owner = .access g sp acc →
    (s.grp g).st = .parked → (s.grp g).away = false → (s.grp g).acc = [a] → a.id = acc → a.op = .store → a.lanes = [l] → l.fault.isSome = true →
    r.lanes.getLsbD l.lane = true → (s.split g a.split).born = [] → s.hbm.wf = true →
    (∀ pa, s.translateWalk (some (s.grp g).core) ((l.va.setWidth 56).setWidth 64) { w := true } = (u, .ok pa) →
      ∃ t, exec (.faultReplay id) s = .next t ∧ t.hbmRead pa l.size = leBytes l.size (natOfWords l.data) ∧
        (∀ q ∈ t.frecs, q.id = id → q.status = .dead) ∧
        (s.recordsOf g = [r] → s.stuck g = false → (t.grp g).st = .pending ∧ (t.grp g).ready = true)) ∧
    (∀ c, s.translateWalk (some (s.grp g).core) ((l.va.setWidth 56).setWidth 64) { w := true } = (u, .fault c) →
      ∃ t q, exec (.faultReplay id) s = .next t ∧ q ∈ t.frecs ∧ q.id = u.nextId ∧ q.cause = c ∧ q.numbered = false ∧ q.resolved = false ∧
        (t.grp g).st = .parked ∧ s.sameBytes t)) ∧
  (∀ (m : FleetAccess) (s u : State),
    (∀ runs, m.kind = .write runs → s.writeRuns runs = (u, .ok ()) → ∃ t, exec (.fleetAccessArrival m) s = .next t ∧ u.sameBytes t ∧
      t.fleetOut = u.fleetOut ++ [{ device := m.source, message := m.message, msg := .done m.va }]) ∧
    (∀ n bs, m.kind = .read n → s.readVirt none { r := true, egress := true } m.va n = (u, .ok bs) →
      ∃ t, exec (.fleetAccessArrival m) s = .next t ∧ u.sameBytes t ∧
        t.fleetOut = u.fleetOut ++ [{ device := m.source, message := m.message, msg := .data m.va bs }]) ∧
    (∀ runs n va pa, m.kind = .write runs ∧ s.writeRuns runs = (u, .check pa va) ∨
        m.kind = .read n ∧ s.readVirt none { r := true, egress := true } m.va n = (u, .check pa va) →
      ∃ t e, exec (.fleetAccessArrival m) s = .next t ∧ t.journal = u.journal ++ [e] ∧ e.kind = 8 ∧
        t.fleetOut = u.fleetOut ++ [{ device := m.source, message := m.message, msg := .error m.va pa }]) ∧
    (∀ runs n va c, m.kind = .write runs ∧ s.writeRuns runs = (u, .fault va c) ∨
        m.kind = .read n ∧ s.readVirt none { r := true, egress := true } m.va n = (u, .fault va c) →
      ∃ t f, exec (.fleetAccessArrival m) s = .next t ∧ f ∈ t.frecs ∧ f.kind = 7 ∧ f.owner = .remote m ∧ f.cause = c ∧
        f.va = (va.setWidth 56).setWidth 64 ∧ f.status = .buffered ∧ t.fleetOut = u.fleetOut))

namespace Sys2Proof.Machine

/-- Byte `b` of element `i` of a record of the local window, in the scratchpad (R314, R334). -/
def Layout.localByte (y : Layout) (i b : Nat) : Nat := (y.bit (y.index i) / 8 + b) % 2 ^ 21

/-- The word that four bytes of a scratchpad hold. -/
def wordAt (k : Core) (at' : Nat → Nat) : W32 := BitVec.ofNat 32 (leNat ((List.range 4).map (fun b => k.spad.read (at' b))))

/-- R343, R344: a due Thresher job merges its elements one by one, its command has then done its work, and the barrier's next job stands first. A job whose two
records lie in the local window runs to its end: each element of its destination, apart from the others, becomes its merge with the private element,
and no other byte changes. -/
def thresherJobs : Prop :=
  (∀ (c n : Nat) (s : State) (j : Job) (rest : List Job) (m : Cmd) (p d : Layout) (e : Nat), (s.bar c n).due = j :: rest →
    (s.queue j.core 3).find? (fun k => k.id == j.cmd) = some m → m.parked = false → s.jobHeld j.core m = false →
    recPair m.recs = some (p, d) → mergeOk p d = true → p.space = 1 → d.space = 1 → e = (s.grp j.group).core → (s.core e).spadBad = [] →
    (s.core e).spad.wf = true →
    ∃ t k, exec (.thresherJobRun c n) s = .next t ∧ (t.bar c n).due = rest ∧ k ∈ t.queue j.core 3 ∧ k.id = m.id ∧ k.finished = true ∧
      (∀ a, t.hbm.read a = s.hbm.read a) ∧
      (∀ f a, (f = e → ∀ i b, m.progress ≤ i → i < p.count → b < 4 → a ≠ d.localByte i b) → (t.core f).spad.read a = (s.core f).spad.read a) ∧
      (∀ i, m.progress ≤ i → i < p.count →
        (∀ k a b, m.progress ≤ k → k < p.count → k ≠ i → a < 4 → b < 4 → d.localByte k a ≠ d.localByte i b ∧ d.localByte k a ≠ p.localByte i b) →
        wordAt (t.core e) (d.localByte i) = mergeOp j.op (wordAt (s.core e) (d.localByte i)) (wordAt (s.core e) (p.localByte i)))) ∧
  ∀ (c n : Nat) (s u : State) (j : Job) (rest : List Job) (m : Cmd) (p d : Layout), (s.bar c n).due = j :: rest →
    (s.queue j.core 3).find? (fun k => k.id == j.cmd) = some m → m.parked = false → s.jobHeld j.core m = false → recPair m.recs = some (p, d) →
    elemLoop (p.count - m.progress) m.progress s (fun v i => v.mergeElem j.core (v.grp j.group) p d j.op i) = (u, none) →
    (u.queue j.core 3) = s.queue j.core 3 →
    ∃ t k, exec (.thresherJobRun c n) s = .next t ∧ (t.bar c n).due = rest ∧ k ∈ t.queue j.core 3 ∧ k.id = m.id ∧ k.finished = true ∧
      u.sameBytes t

/-- R265, R341, R385, R390, R391: the commands of the Glean queue, whose block is in the TLB. GLDESC takes a descriptor that keeps its rules, and the descriptor of its
number changes as it completes; RSLOAD takes an image that passes its checks and journals it, and the slot takes the whole image at the end of the clock in which
the command completes; a block that fails is an illegal instruction or the ring trap. GLINV empties the Glean cache of its core. -/
def gleanCommands : Prop :=
  (∀ (o : SeOps) (s : State) (c q : Nat) (m : Cmd) (p : Nat → Space × Nat) (bs : List Byte), s.starts c q (.gldesc o) o m →
    s.mapped c p { r := true } (m.val 0).toNat 64 → bs = (List.range 64).map (fun k => s.byteAt .hbm (p ((m.val 0).toNat + k)).2) →
    (gdescOk bs = true → ∃ t, exec (.gldesc o) s = .next t ∧ (∃ n ∈ t.queue c q, n.id = m.id ∧ n.finished = true ∧ n.bytes = 0 ∧ n.recs = bs) ∧
      (t.core c).gdescs = (s.core c).gdescs ∧ s.sameBytes t) ∧
    (gdescOk bs = false → ∃ t, exec (.gldesc o) s = .next t ∧ s.cmdTraps t m 0x10 ∧ s.sameBytes t)) ∧
  (∀ (o : SeOps) (s : State) (c q : Nat) (m : Cmd) (p : Nat → Space × Nat) (bs : List Byte), s.starts c q (.rsload o) o m →
    s.mapped c p { r := true } (m.val 0).toNat 16896 → bs = (List.range 16896).map (fun k => s.byteAt .hbm (p ((m.val 0).toNat + k)).2) →
    (ringImageOk bs = true → ∃ t, exec (.rsload o) s = .next t ∧ (∃ n ∈ t.queue c q, n.id = m.id ∧ n.finished = true ∧ n.bytes = 0 ∧ n.recs = bs) ∧
      t.journal = s.journal ++ [{ kind := 4, seq := s.journalNext, time := s.time, body := pad8 (leBytes 8 (m.val 0).toNat ++ bs) }] ∧
      (t.core c).rings = (s.core c).rings ∧ s.sameButJournal t) ∧
    (ringImageOk bs = false → ∃ t, exec (.rsload o) s = .next t ∧ s.cmdTraps t m 0x17 ∧ s.sameBytes t)) ∧
  (∀ (o : SeOps) (s : State) (c q : Nat) (m : Cmd), s.queueOf c m.id = some (q, m) → m.finished = true → m.parked = false → m.reads = [] → m.got = [] →
    (m.row = .gldesc o → ∃ t, exec (.engineCommandComplete c m.id) s = .next t ∧ (t.core c).gdescs = (s.core c).gdescs.put (m.val 2).toNat m.recs) ∧
    (m.row = .rsload o → ∃ t, exec (.engineCommandComplete c m.id) s = .next t ∧ (t.core c).rings = (s.core c).rings ∧
      (t.core c).landing = (s.core c).landing ++ [((m.val 2).toNat, m.recs)])) ∧
  (∀ (s : State) (c n : Nat) (l : List (Nat × List Byte)) (bs : List Byte), (s.core c).landing = l ++ [(n, bs)] →
    ((s.core c).land.rings.get .b15 n = .image bs ∧ (s.core c).land.landing = [] ∧ (s.endClock.core c).rings = (s.core c).land.rings) ∧
    ∀ k, k ≠ n → (∀ e ∈ l, e.1 ≠ k) → (s.core c).land.rings.get .b15 k = (s.core c).rings.get .b15 k) ∧
  (∀ (o : SeOps) (s : State) (c q : Nat) (m : Cmd), s.starts c q (.glinv o) o m → ∃ t, exec (.glinv o) s = .next t ∧ t.cmdDone c q m 0 ∧
    (t.core c).gcache = [] ∧ (t.core c).gleanBad = [] ∧ (∀ d, d ≠ c → (t.core d).gcache = (s.core d).gcache) ∧ s.sameBytes t)

end Sys2Proof.Machine

/-- R265, R341, R343, R344, R385, R390, R391: the commands of the Glean queue and the jobs of the Thresher. -/
def Obligations.GleanAndThresher : Prop := thresherJobs ∧ gleanCommands

namespace Sys2Proof.Machine

/-- The state of a group as it starts (R41, R62, R68, R72 to R75): its one split at the kernel's entry with every lane, its arguments and numbers in
s1 to s19, the lane index in v0, and all else zero. -/
def startsAs (x : Group) (l : Launch) (gid grank crank cluid : Nat) : Prop :=
  x.desc = l.desc ∧ x.gid = gid ∧ x.liveSplits = [0] ∧ x.cur = 0 ∧ (x.split 0).spc = l.desc.entry ∧ (x.split 0).exec = low64 l.desc.w ∧
  (∀ r, 1 ≤ r → r ≤ 15 → (x.split 0).regs.get 0 r = l.args.getD (r - 1) 0) ∧ (x.split 0).regs.get 0 16 = BitVec.ofNat 64 gid ∧
  (x.split 0).regs.get 0 17 = BitVec.ofNat 64 grank ∧ (x.split 0).regs.get 0 18 = BitVec.ofNat 64 crank ∧
  (x.split 0).regs.get 0 19 = BitVec.ofNat 64 cluid ∧ (∀ r, 20 ≤ r → (x.split 0).regs.get 0 r = 0) ∧ x.reg 0 = .a 0 1 ∧
  (∀ r, r ≠ 0 → x.reg r = .u 0) ∧ (∀ m, x.mask m = 0) ∧ (∀ f, x.flagCount f = 0) ∧ (∀ c, x.counter c = 0) ∧
  (∀ k, x.guards.get .unresolved k = .unresolved) ∧ (∀ k, x.tflags.get false k = false) ∧ (∀ q, x.oq.get [] q = []) ∧ x.fpctl = 0 ∧
  x.fpstat = 0 ∧ x.utvec = l.desc.utvec ∧ x.acc = []

end Sys2Proof.Machine

/-- R364, R28, R49, R62, R68: the request at the head of the placement queue. A cluster of one group of a kernel whose launch has been checked is placed at the
first corner at which it fits, and its group is Pending and ready; with no corner it stays at the head. -/
def Obligations.Placement : Prop :=
  ∀ (s : State) (q : PlaceReq) (l : Launch), s.headRequest = some q → q.team = none → s.launch q.launch = some l → l.loaded = true → l.stage = false →
    (∀ x c f k p, s.firstSite l.desc (List.replicate (l.desc.cw * l.desc.ch) l.desc.t) none (List.range 192) = some x → x.cores = [c] →
      x.fits = [f] → f.places = [(k, p)] → ∃ t, exec .clusterPlacement s = .next t ∧ t.nextGroup = s.nextGroup + 1 ∧
        (t.grp s.nextGroup).st = .pending ∧ (t.grp s.nextGroup).ready = true ∧ (t.grp s.nextGroup).core = c ∧
        (t.grp s.nextGroup).sector = k ∧ (t.grp s.nextGroup).place = p ∧ (t.grp s.nextGroup).corner = x.corner ∧
        startsAs (t.grp s.nextGroup) l (q.cluster * (l.desc.cw * l.desc.ch) * l.desc.t) 0 0 q.cluster ∧
        (∀ g, g ≠ s.nextGroup → t.grp g = s.grp g) ∧ (∀ y, y < x.corner →
          s.siteAt l.desc (List.replicate (l.desc.cw * l.desc.ch) l.desc.t) none y = none) ∧ s.sameBytes t) ∧
    (s.firstSite l.desc (List.replicate (l.desc.cw * l.desc.ch) l.desc.t) none (List.range 192) = none →
      exec .clusterPlacement s = .next s)

namespace Sys2Proof.Machine

/-- The drain of a group that nothing holds (R279): no clause issues or is queued, no answer is due, and no access, command or fault record is left. -/
def State.allDone (s : State) (g : Nat) : Prop :=
  (∀ k, k < 4 → ((s.grp g).split k).live = true →
    ((s.grp g).split k).issuing = none ∧ ((s.grp g).split k).lane.1 = [] ∧ ((s.grp g).split k).answerDue = false) ∧
  (s.grp g).acc = [] ∧ s.anyCmd g = false ∧ s.recordsOf g = []

/-- From `s` to `t` group `g` has been saved: its area stands at the places `at'` of its bytes, and no other byte has changed (R279). -/
def State.savedTo (s t : State) (g : Nat) (at' : Nat → Nat) : Prop :=
  (t.grp g).st = .saved ∧ (∀ c a, (t.core c).spad.read a = (s.core c).spad.read a) ∧
  (∀ a, (∀ o, o < ((s.layOut g).grp g).area.length → a ≠ at' o) → t.hbm.read a = s.hbm.read a) ∧
  ((∀ o p, o < ((s.layOut g).grp g).area.length → p < ((s.layOut g).grp g).area.length → at' o = at' p → o = p) →
    ∀ o, o < ((s.layOut g).grp g).area.length → t.hbm.read (at' o) = ((s.layOut g).grp g).area.getD o 0)

/-- A state in which the save of group `g` runs to its end: drained, nothing it reads in error, each byte of its area through the TLB (R226, R279). -/
def State.savesNow (s : State) (g : Nat) (at' : Nat → Nat) : Prop :=
  (s.grp g).st = .yielding ∧ (s.grp g).away = false ∧ (s.grp g).area = [] ∧ s.allDone g ∧ s.saveBad g = none ∧ s.hbm.wf = true ∧
  ∀ o, o < ((s.layOut g).grp g).area.length → s.hits (some (s.grp g).core) (s.areaVa g + BitVec.ofNat 64 o) { w := true } (at' o)

/-- What a restored group has from its area `bs` (R80 to R83, R283). -/
def State.restored (s v : State) (g : Nat) (bs : List Byte) : Prop :=
  (v.grp g).away = false ∧ (v.grp g).fpctl = BitVec.ofNat 64 (numAt bs 0x46 1) ∧ (v.grp g).fpstat = BitVec.ofNat 64 (numAt bs 0x47 1) ∧
  (v.grp g).utvec = BitVec.ofNat 64 (numAt bs 0x50 8) ∧ (v.grp g).skips = BitVec.ofNat 64 (numAt bs 0x58 8) ∧
  (v.grp g).cur = numAt bs 0x0A 1 ∧
  (∀ m, m < 16 → (v.grp g).mask m = BitVec.ofNat 64 (numAt bs (0x1100 + 8 * m) 8) &&& low64 (s.grp g).desc.w) ∧
  (∀ n, n < 640 → numAt bs (0x11C0 + n / 4) 1 / 4 ^ (n % 4) % 4 = 0 → (v.grp g).reg n = .u (BitVec.ofNat 32 (numAt bs (0x1280 + 8 * n) 8))) ∧
  (∀ k r, k < 4 → (numAt bs 0x09 1).testBit k = true → 1 ≤ r → r ≤ 63 → (v.split g k).live = true ∧
    (v.split g k).spc = BitVec.ofNat 64 (numAt bs (0x300 + 1024 * k) 8) ∧
    (v.split g k).regs.get 0 r = BitVec.ofNat 64 (numAt bs (0x100 + 1024 * k + 8 * r) 8)) ∧
  ((v.grp g).st = .pending ∨ (v.grp g).st = .parked)

end Sys2Proof.Machine

/-- R279, R282, R283, R84: pre-emption. At its deadline every group of a launch that is resident, but for one whose area is being written or read,
yields, forced, with its whole allocation and its tiles to be saved if it is its team's first; before the deadline nothing happens. A group that
yields is Saved once its drain is over and its area written, its MAGIC last; until then it waits, and the service is told of a parked command that
holds it (log 100); with the last of them the run is suspended; an error in what it saves is a machine check, of no lane (log 97). A group whose
restore waits keeps its area and its records, and is Saved again. A placed team whose areas read and check goes on from them, and one whose area is
not allowed ends its launch (log 47: which groups are forced). -/
def Obligations.Preemption : Prop :=
  (∀ (s : State) (l d : Nat) (x : Launch), s.launch l = some x → x.req = some d →
    (d ≤ s.time → ∃ t, exec (.preemptDeadline l) s = .next t ∧ ∀ g ∈ s.groupsOf l, (s.grp g).launch = l →
      (s.grp g).st ∈ [.active, .pending, .parked] ∨ (s.grp g).st = .yielding ∧ (s.grp g).forced = false ∧ (s.grp g).area = [] →
      (t.grp g).st = .yielding ∧ (t.grp g).forced = true ∧ s.sameBytes t ∧
      ((s.grp g).away = true → s.recordsOf g = t.recordsOf g) ∧ ((s.grp g).away = false →
        (t.grp g).ltm = (if (s.grp g).grank = 0 then BitVec.ofNat 8 (2 ^ (s.grp g).desc.accn - 1) else 0) ∧
        (t.grp g).range1 = (if (s.grp g).grank = 0 then wholeOf (s.allocation g) else 0) ∧ (t.grp g).range2 = 0 ∧
        (∀ c, ((t.core (s.grp g).core).hal.get HalCtx.reset c).running = true → ((t.core (s.grp g).core).hal.get HalCtx.reset c).owner ≠ g))) ∧
    (s.time < d → exec (.preemptDeadline l) s = .next s)) ∧
  (∀ (s : State) (g : Nat) (at' : Nat → Nat), s.savesNow g at' →
    ((∀ r x, s.runOf g = some r → s.run r = some x → x.st = .saving → ∃ p ∈ s.groups, p.1 ≠ g ∧ p.2.launch = (s.grp g).launch ∧ p.2.st.resident = true) →
      ∃ t, exec (.groupSaveComplete g) s = .next t ∧ s.savedTo t g at') ∧
    (∀ r x, s.runOf g = some r → s.run r = some x → x.st = .saving → x.named = 0 → (∀ p ∈ s.runs, p = (r, x) ∨ p.2.st = .ended) →
      s.groups.filter (fun p => p.2.st.resident) = [(g, s.grp g)] →
      ∃ t y, exec (.groupSaveComplete g) s = .next t ∧ s.savedTo t g at' ∧ t.run r = some y ∧ y.st = .suspended)) ∧
  (∀ (s : State) (g : Nat), (s.grp g).st = .yielding → (s.grp g).away = true → exec (.groupSaveComplete g) s = .next (s.saved g)) ∧
  (∀ (s u : State) (g : Nat), (s.grp g).st = .yielding → (s.grp g).away = false → (s.grp g).area = [] → (∀ r ∈ s.frecs, r.owner ≠ .save g) →
    (s.saveDrained g = false → exec (.groupSaveComplete g) s = .next (s.tellHeld g)) ∧
    (s.saveDrained g = true → ((s.grp g).vBad ≠ [] ∨ (s.callBad g).isSome = true ∨
        (∃ p ∈ (s.core (s.grp g).core).tileBad, ∃ i, i < 8 ∧ (s.grp g).ltm.getLsbD i = true ∧ s.teamTile g i = p.1) ∨
        s.spadBadIn (s.grp g).core (rangeOff (s.grp g).range1) (rangeLen (s.grp g).range1) = true ∨
        s.spadBadIn (s.grp g).core (rangeOff (s.grp g).range2) (rangeLen (s.grp g).range2) = true) →
      ∃ pa, exec (.groupSaveComplete g) s = .next (s.machineCheck g 0 pa 0 0 0 0xFF)) ∧
    (s.saveDrained g = true → s.saveBad g = none → (∀ r x, s.run r = some x → x.st ≠ .saving) →
      (s.layOut g).writeArea g (saveWrites ((s.layOut g).grp g).area) = (u, true) → u.runs = s.runs →
      ∃ t, exec (.groupSaveComplete g) s = .next t ∧ (t.grp g).st = .saved ∧ u.sameBytes t) ∧
    (((s.layOut g).grp g).area.take 4 = leBytes 4 0x5A435458)) ∧
  (∀ (s : State) (t g : Nat) (m : Team) (at' : Nat → Nat) (bs : List Byte) (y : Group) (ts : List (Nat × Tile)), s.teams.find t = some m →
    m.resident = true → s.awayGroups t = [g] → (∀ r ∈ s.frecs, r.owner ≠ .restore g) → (s.grp g).area = [] →
    (∀ o, o < bs.length → s.hits (some (s.grp g).core) (s.areaVa g + BitVec.ofNat 64 o) { r := true } (at' o) ∧
      s.hbmBadIn (at' o) 1 = false ∧ s.hbm.read (at' o) = bs.getD o 0) →
    0x2680 ≤ bs.length → bs.length = numAt bs 0x18 8 → headOk (s.grp g) (((s.launch (s.grp g).launch).map (·.stage)).getD false) (s.allocation g) bs = true → namesAllowed (s.grp g) bs = true →
    groupOf (s.grp g) bs s.nextId s.clock = some y → areaTiles (s.grp g).team bs ((areaLayout (s.grp g) bs).1.getD 5 0) = some ts →
    ∃ v, exec (.teamRestore t) s = .next v ∧ s.restored v g bs ∧ ∀ a, v.hbm.read a = s.hbm.read a) ∧
  (∀ (s u : State) (t g : Nat) (m : Team), s.teams.find t = some m → m.resident = true → s.awayGroups t = [g] →
    (∀ r ∈ s.frecs, r.owner ≠ .restore g) →
    (s.readAreas [g] = (u, none) →
      (∀ v, u.loadGroup g = some v → exec (.teamRestore t) s = .next v ∧ s.restored v g (u.grp g).area) ∧
      (u.loadGroup g = none → exec (.teamRestore t) s = .next (u.fatal g 0x1B 0 0 0 0))) ∧
    (∀ c i, s.readAreas [g] = (u, some (g, .failed c i)) → exec (.teamRestore t) s = .next (u.fatal g c 0 0 i 0)))

namespace Sys2Proof.Machine

/-- R345 to R347, R359, R360, R365, R367: nodes. A kernel node whose launches are done completes, and its successor is decremented; one whose launches are not
stays. A RECPUT's record takes the next slot of its node's pool and enters its bin, which is to be tested in this clock, and its lane reads 0; a record for
no node reads 3. A bin whose oldest record has waited for the node's timer is launched, its records' slots held by the new launch. -/
def nodesAndStages : Prop :=
  (∀ (s : State) (r k : Nat) (x : Run) (gr : Graph) (n : Node), s.run r = some x → x.st = .running → s.graphs.find x.graph = some gr →
    gr.nodes[k]? = some n → n.kind = 1 → (x.nodeSt k).enqueued = true → (x.nodeSt k).done = false →
    (∀ j c, s.launchesOf r k ≠ [] → (∀ p ∈ s.launchesOf r k, s.launchDone p.1 p.2 = true) → (gr.edges.drop n.succ).take n.nsucc = [j] → j ≠ k →
      (x.nodeSt j).counter = c → 2 ≤ c → ∃ t y, exec (.nodeCompletion r k) s = .next t ∧ t.run r = some y ∧ (y.nodeSt k).done = true ∧
        y.completed = x.completed + 1 ∧ (y.nodeSt j).counter = c - 1 ∧ (y.nodeSt j).enqueued = (x.nodeSt j).enqueued ∧ y.st = .running ∧
        s.sameBytes t) ∧
    ((∃ p ∈ s.launchesOf r k, s.launchDone p.1 p.2 = false) → exec (.nodeCompletion r k) s = .next s)) ∧
  (∀ (s : State) (g : Nat) (a : Access) (d : Nat) (l : LaneAcc) (p : Launch) (x : Run), (s.grp g).acc.find? (fun b => b.id == a.id) = some a →
    s.launch (s.grp g).launch = some p → a.op = .recput d → s.run p.run = some x → (s.grp g).mayPerform a = true → (s.grp g).st.resident = true →
    a.lanes = [l] → a.dcount = 1 → a.mreg = 0 → p.stage = false → l.lane < (s.grp g).desc.w → l.lane < 64 →
    (s.node x.graph (l.cmp.headD 0).toNat = none → ∃ t, exec (.recordBinEntry g a.id) s = .next t ∧
      ((t.grp g).reg a.dst).lane l.lane = 3 ∧ (∀ b ∈ (t.grp g).acc, b.id ≠ a.id) ∧ s.sameBytes t) ∧
    (∀ n k u, k = (l.cmp.headD 0).toNat → s.node x.graph k = some n → n.kind = 2 → (x.nodeSt k).done = false →
      nextSlotOf n (x.nodeSt k) = some u →
      ∀ v, s.writeVirt none none (n.slotVa u) ((List.range 4).flatMap (fun i => leBytes 4 (l.data.getD i 0).toNat) ++
        List.replicate (16 * n.rsize - 16) 0) = (v, .ok ()) → v.runs = s.runs → v.clock = s.clock →
      ∃ t y, exec (.recordBinEntry g a.id) s = .next t ∧ ((t.grp g).reg a.dst).lane l.lane = 0 ∧ t.run p.run = some y ∧
        (y.nodeSt k).held = (x.nodeSt k).held ++ [u] ∧ (y.nodeSt k).bin = (x.nodeSt k).bin ++ [{ slot := u, depth := 0, entered := s.clock }] ∧
        (p.run, k) ∈ t.binsDue ∧ v.sameBytes t)) ∧
  (∀ (s : State) (r k : Nat) (x : Run) (n : Node) (o : Rec) (rest : List Rec), s.run r = some x → s.node x.graph k = some n → n.kind = 2 →
    x.st = .running → s.replay = none → (x.nodeSt k).bin = o :: rest → (x.nodeSt k).bin.length < n.count → (x.nodeSt k).counter ≠ 0 →
    (s.openLaunches r k).length < n.maxgrp → n.timer ≠ 0 →
    (o.entered + n.timer ≤ s.clock → ∃ t y l, exec (.stageTimerExpiry r k) s = .next t ∧ t.run r = some y ∧ (y.nodeSt k).bin = [] ∧
      (y.nodeSt k).ordinal = (x.nodeSt k).ordinal + 1 ∧ t.launch s.nextLaunch = some l ∧ l.stage = true ∧ l.records = (o :: rest).map (·.slot) ∧
      l.gid = (x.nodeSt k).ordinal % 2 ^ 32 ∧ s.sameButJournal t) ∧
    (s.clock < o.entered + n.timer → exec (.stageTimerExpiry r k) s = .next s))

/-- R353, R354: the sail plan. A due entry of an idle stream and graph fires: it takes the next firing number, and its run starts with its argument and
priority; with its stream busy an entry of policy 0 is dropped and counted; an entry that is not due does nothing. -/
def sailFires : Prop :=
  ∀ (s : State) (k : Nat) (e : SailEntry), s.sail.find k = some e → s.replay = none → e.valid = true → e.graph ≠ 0xFFFF →
    (s.dueRange e = none → exec (.sailEntryFire k) s = .next s) ∧
    (∀ b, s.dueRange e = some (b, b) → (s.graphs.find e.graph).isSome = true →
      (s.streamBusy e.stream = false → s.graphBusy e.graph = false → ∃ t x f, exec (.sailEntryFire k) s = .next t ∧ t.firingNo = s.firingNo + 1 ∧
        t.run s.nextRun = some x ∧ x.graph = e.graph ∧ x.stream = e.stream ∧ x.prio = e.prio ∧ x.arg = (if e.noarg then none else some e.arg) ∧
        t.sail.find k = some f ∧ f.lastDue = some s.time ∧ f.skips = e.skips) ∧
      (s.streamBusy e.stream = true → e.policy = 0 → ∃ t f, exec (.sailEntryFire k) s = .next t ∧ t.runs = s.runs ∧ t.sail.find k = some f ∧
        f.skips = e.skips + 1 ∧ f.lastDue = some s.time ∧ t.firingNo = s.firingNo + 1 ∧ s.sameButJournal t))

end Sys2Proof.Machine

/-- R345 to R347, R353, R354, R359, R360, R365, R367: nodes, stage bins and the sail plan. -/
def Obligations.GraphRuns : Prop := nodesAndStages ∧ sailFires

/-! ## The service and the package -/

namespace Sys2Proof.Machine

/-- Call `n` stands first in the service-call ring, and its entry at `pa` is neither answered nor abandoned (R426 to R428). -/
def State.callFirst (s : State) (d : RingDesc) (n pa : Nat) (c : SvcCall) : Prop :=
  s.ringDescs.find 2 = some d ∧ s.ringBad d = false ∧ s.calls.find n = some c ∧ c.entry = some pa ∧ pa = d.entryAt 2 (s.ringConsumer d) ∧ s.ringUsed d ≠ 0 ∧
  s.hbmBadIn pa 32 = false ∧ (s.hbm.read (pa + 0x1F)).getLsbD 6 = false ∧ (s.hbm.read (pa + 0x1F)).getLsbD 7 = false ∧ s.hbm.wf = true

/-- From `u` to `t` the entry at `pa` is answered with `v`, and the ring's CONSUMER goes on by one; no other byte changes (R428). -/
def State.answeredWith (u t : State) (d : RingDesc) (pa : Nat) (v : W64) : Prop :=
  t.hbmNat (pa + 0x10) 8 = v.toNat ∧ (t.hbm.read (pa + 0x1F)).getLsbD 7 = true ∧
  t.hbmNat (d.base + 8) 8 = (u.ringConsumer d + 1) % 2 ^ 64 ∧
  (∀ a, (a < pa + 0x10 ∨ pa + 0x18 ≤ a) → a ≠ pa + 0x1F → (a < d.base + 8 ∨ d.base + 16 ≤ a) → t.hbm.read a = u.hbm.read a) ∧
  (∀ c, t.core c = u.core c)

/-- R428, R429: the service's answers. The call that stands first is answered and its ring entry taken: PING gives its argument back; NOTE journals 64
aligned bytes as KIND 11; MAP maps fresh zeroed pages, UNMAP takes out pages that this launch mapped, and DELIVER queues bytes for the client of a
sequence; a bad argument is error 2, an ended or unknown sequence error 5, a byte on a marked page, whatever else its leaf allows, error 4, and an unknown code
error 1. A call behind another waits (logs 22, 80: where pages lie, and the order of calls; log 39: the port, type, flags and request id of what is delivered; log 101: an
error that MAP or UNMAP meets is a device check, and MAP answers 3, UNMAP 2). -/
def serviceCalls : Prop :=
  ∀ (s : State) (d : RingDesc) (n pa : Nat) (c : SvcCall), s.callFirst d n pa c →
    (c.code = 0 → ∃ t, exec (.svcPing n) s = .next t ∧ s.answeredWith t d pa c.arg) ∧
    (4 < c.code.toNat → ∀ i ∈ [Instr.svcPing n, .svcNote n, .svcMap n, .svcUnmap n, .svcDeliver n],
      ∃ t, exec i s = .next t ∧ s.answeredWith t d pa 0x8000000000000001#64) ∧
    (∀ m e pb, s.calls.find m = some e → e.entry = some pb → pb ≠ pa →
      ∀ i ∈ [Instr.svcPing m, .svcNote m, .svcMap m, .svcUnmap m, .svcDeliver m], exec i s = .next s) ∧
    (c.code = 1 → (c.arg.toNat % 8 ≠ 0 → ∃ t, exec (.svcNote n) s = .next t ∧ s.answeredWith t d pa 0x8000000000000002#64) ∧
      (∀ u bs, c.arg.toNat % 8 = 0 → s.readVirt none { r := true } c.arg 64 = (u, .ok bs) → ∃ t, exec (.svcNote n) s = .next t ∧
        (u.note 11 bs).answeredWith t d pa 0 ∧ t.journal = u.journal ++ [{ kind := 11, seq := u.journalNext, time := u.time, body := bs }]) ∧
      (∀ u va k, c.arg.toNat % 8 = 0 → s.readVirt none { r := true } c.arg 64 = (u, .fault va k) → ∃ t, exec (.svcNote n) s = .next t ∧
        u.answeredWith t d pa 0x8000000000000002#64)) ∧
    (∀ u bs, s.readVirt none { r := true } c.arg 24 = (u, .ok bs) →
      ((numAt bs 0 8 % 4096 ≠ 0 ∨ numAt bs 8 8 % 4096 ≠ 0 ∨ 2 ^ 56 < numAt bs 0 8 + numAt bs 8 8 ∨ numAt bs 16 8 = 0 ∨ 3 < numAt bs 16 8) →
        (c.code = 2 → ∃ t, exec (.svcMap n) s = .next t ∧ u.answeredWith t d pa 0x8000000000000002#64) ∧
        (c.code = 3 → ∃ t, exec (.svcUnmap n) s = .next t ∧ u.answeredWith t d pa 0x8000000000000002#64)) ∧
      (numAt bs 0 8 % 4096 = 0 → numAt bs 8 8 = 4096 → numAt bs 0 8 + 4096 ≤ 2 ^ 56 → 1 ≤ numAt bs 16 8 → numAt bs 16 8 ≤ 3 →
        (∀ w p, c.code = 2 → u.mapPage (BitVec.ofNat 64 (numAt bs 0 8)) (2 * numAt bs 16 8) = (w, p) → ∃ t, exec (.svcMap n) s = .next t ∧
          match p with
          | .ok _ => w.answeredWith t d pa 0 ∧ t.svcMaps = w.svcMaps ++ [(c.launch, BitVec.ofNat 64 (numAt bs 0 8), 4096)]
          | .error .overlap => u.answeredWith t d pa 0x8000000000000002#64 ∧ t.svcMaps = u.svcMaps
          | .error .noMemory => u.answeredWith t d pa 0x8000000000000003#64 ∧ t.svcMaps = u.svcMaps
          | .error (.check pb) => (u.deviceCheck pb).answeredWith t d pa 0x8000000000000003#64 ∧ t.svcMaps = u.svcMaps) ∧
        (∀ w p, c.code = 3 → (c.launch, BitVec.ofNat 64 (numAt bs 0 8), 4096) ∈ u.svcMaps →
          u.unmapPage (BitVec.ofNat 64 (numAt bs 0 8)) = (w, p) → ∃ t, exec (.svcUnmap n) s = .next t ∧
          match p with
          | .ok () => w.answeredWith t d pa 0 ∧ ∀ m ∈ t.svcMaps, ¬(m.1 = c.launch ∧ m.2.1 = BitVec.ofNat 64 (numAt bs 0 8))
          | .error pb => (u.deviceCheck pb).answeredWith t d pa 0x8000000000000002#64 ∧ t.svcMaps = u.svcMaps))) ∧
    (∀ u bs, c.code = 4 → s.readVirt none { r := true } c.arg 32 = (u, .ok bs) →
      (1 < numAt bs 24 8 → ∃ t, exec (.svcDeliver n) s = .next t ∧ u.answeredWith t d pa 0x8000000000000002#64) ∧
      (numAt bs 24 8 ≤ 1 → (∀ q, u.sequences.find (numAt bs 0 8) = some q → q.ended = true) →
        ∃ t, exec (.svcDeliver n) s = .next t ∧ u.answeredWith t d pa 0x8000000000000005#64) ∧
      (∀ q w b, numAt bs 24 8 = 0 → u.sequences.find (numAt bs 0 8) = some q → q.ended = false →
        u.firstMarked (BitVec.ofNat 64 (numAt bs 8 8)) (numAt bs 16 8) = none →
        u.readVirt none { r := true } (BitVec.ofNat 64 (numAt bs 8 8)) (numAt bs 16 8) = (w, .ok b) →
        ∃ t, exec (.svcDeliver n) s = .next t ∧ w.answeredWith t d pa 0 ∧ t.replies = w.replies ++ [{
          port := q.port
          type := 4
          flags := 2
          requestId := q.generating.getD 0
          handle := numAt bs 0 8
          status := 0
          body := b }]) ∧
      (∀ q a, numAt bs 24 8 ≤ 1 → u.sequences.find (numAt bs 0 8) = some q → q.ended = false →
        u.firstMarked (BitVec.ofNat 64 (numAt bs 8 8)) (numAt bs 16 8) = some a →
        ∃ t, exec (.svcDeliver n) s = .next t ∧ (u.refusedEgress a 0 q.port q.port).answeredWith t d pa 0x8000000000000004#64 ∧
          t.replies = u.replies ∧
          { kind := 9, seq := u.journalNext, time := u.time, body := leBytes 8 (a.toNat % 2 ^ 56) ++ leBytes 1 0 ++ leBytes 1 q.port ++ leBytes 6 0 } ∈
            t.journal)) ∧
    (∀ (u : State) (va a : W64) (m : Nat), u.firstMarked va m = some a → u.marked none a = true ∧ ∃ j, j < m ∧ a = va + BitVec.ofNat 64 j) ∧
    (∀ (u : State) (va : W64) (m : Nat), u.firstMarked va m = none → ∀ j, j < m → j = 0 ∨ (va.toNat + j) % 4096 = 0 →
      u.marked none (va + BitVec.ofNat 64 j) = false)

/-- R221, R223, R224, R429: the tables as MAP and UNMAP change them. A page whose three upper tables stand is mapped by a leaf in its frame with the access
asked for, and holds zeros, unless the service has no frame left; a page that is mapped already stays, and so does a table entry that holds an error. UNMAP
writes its leaf with zero, and no translation buffer holds the page any more; where its walk meets an error it changes nothing (log 101). -/
def servicePages : Prop :=
  (∀ (s : State) (va : W64) (acc node : Nat), s.hbm.wf = true → acc < 8 → s.hbmBadIn (node + 8 * walkIndex 3 va) 8 = false →
    (BitVec.ofNat 64 (s.hbmNat (node + 8 * walkIndex 3 va) 8)).getLsbD 0 = false →
    (s.takeFrame = none ∧ s.mapFrom va acc 0 3 node = (s, .error .noMemory)) ∨
    ∃ t u f, s.takeFrame = some (u, f) ∧ s.mapFrom va acc 0 3 node = (t, .ok (f * 65536 + va.toNat % 65536)) ∧
      t.hbmNat (node + 8 * walkIndex 3 va) 8 = f * 65536 + acc + 1 ∧
      (∀ a, f * 65536 + va.toNat % 65536 ≤ a → a < f * 65536 + va.toNat % 65536 + 4096 →
        (a < node + 8 * walkIndex 3 va ∨ node + 8 * walkIndex 3 va + 8 ≤ a) → t.hbm.read a = 0) ∧
      (∀ a, (a < f * 65536 + va.toNat % 65536 ∨ f * 65536 + va.toNat % 65536 + 4096 ≤ a) →
        (a < node + 8 * walkIndex 3 va ∨ node + 8 * walkIndex 3 va + 8 ≤ a) → t.hbm.read a = s.hbm.read a)) ∧
  (∀ (s : State) (va : W64) (acc node : Nat), s.hbmBadIn (node + 8 * walkIndex 3 va) 8 = false →
    (BitVec.ofNat 64 (s.hbmNat (node + 8 * walkIndex 3 va) 8)).getLsbD 0 = true → s.mapFrom va acc 0 3 node = (s, .error .overlap)) ∧
  (∀ (s : State) (va : W64) (acc node : Nat), s.hbmBadIn (node + 8 * walkIndex 3 va) 8 = true →
    s.mapFrom va acc 0 3 node = (s, .error (.check (node + 8 * walkIndex 3 va)))) ∧
  (∀ (s : State) (va : W64) (slot : Nat) (e : W64), s.hbm.wf = true → s.walk va = .leaf slot e →
    ∃ t, s.unmapPage va = (t, .ok ()) ∧ t.hbmNat slot 8 = 0 ∧ (∀ a, (a < slot ∨ slot + 8 ≤ a) → t.hbm.read a = s.hbm.read a) ∧
    (∀ x ∈ t.ioTlb, x.maps va = false) ∧ (∀ c, ∀ x ∈ (t.core c).tlb, x.maps va = false)) ∧
  (∀ (s : State) (va : W64) (pa : Nat), s.walk va = .check pa → s.unmapPage va = (s, .error pa))

end Sys2Proof.Machine

/-- R428, R429: the service's answers, and the pages that it maps (log 22: where pages lie; log 39: the port, type, flags and request id of what DELIVER queues; log 80: calls are taken in ring order; log 101: an error that MAP or UNMAP meets). -/
def Obligations.ServiceAnswers : Prop := serviceCalls ∧ servicePages

namespace Sys2Proof.Machine

/-- R426, R428: a ring takes its oldest report: its bytes stand in the entry that PRODUCER numbers, PRODUCER goes on by one, and a service call learns
where its entry lies. A full ring takes nothing, and one whose counts hold an error is journalled (log 101). -/
def ringReports : Prop :=
  ∀ (s : State) (k : Nat) (d : RingDesc) (call : Option Nat) (bs : List Byte) (rest : List (Option Nat × List Byte)),
    s.ringDescs.find k = some d → s.reports.get [] k = (call, bs) :: rest → bs.length = (if k = 4 then 64 else 32) → s.hbm.wf = true →
    (s.ringBad d = true → exec (.ringReportPost k) s = .next (s.deviceCheck d.base)) ∧
    (s.ringBad d = false → s.ringUsed d < 2 ^ d.log2n → d.entryAt k (s.ringProducer d) + 64 ≤ 0x6000000000 →
      ∃ t, exec (.ringReportPost k) s = .next t ∧ t.reports.get [] k = rest ∧
        t.hbmRead (d.base + 64 + (if k = 4 then 64 else 32) * (s.ringProducer d % 2 ^ d.log2n)) bs.length = bs ∧
        t.hbmNat d.base 8 = (s.ringProducer d + 1) % 2 ^ 64 ∧
        (∀ n c, call = some n → s.calls.find n = some c →
          t.calls.find n = some { c with entry := some (d.base + 64 + (if k = 4 then 64 else 32) * (s.ringProducer d % 2 ^ d.log2n)) })) ∧
    (s.ringBad d = false → 2 ^ d.log2n ≤ s.ringUsed d → exec (.ringReportPost k) s = .next s)

/-- Service core `k` runs, and the word at its pc, which stands on a word, is `w`, fetched through TLB entries with no error (R424). -/
def State.ownWord (s : State) (k : Nat) (w : W32) : Prop :=
  k < 8 ∧ (s.svc k).halted = false ∧ (s.svc k).pc.extractLsb' 0 2 = 0 ∧ ∃ p q, s.hits none (s.svc k).pc { x := true } p ∧
    s.hits none ((s.svc k).pc + 2) { x := true } q ∧ s.hbmBadIn p 2 = false ∧ s.hbmBadIn q 2 = false ∧
    w = BitVec.ofNat 32 (s.hbmNat p 2 + 65536 * s.hbmNat q 2)

/-- Scalar register `a` of a service core; s0 reads as zero (R62). -/
def SvcCore.reg (c : SvcCore) (a : BitVec 6) : W64 := if a = 0 then 0 else c.regs.get 0 a.toNat

/-- The next word of service core `k`, or its fetch, raises a trap (R425): a word that is none or is for compute cores alone, a TRAP, a JR to a target that is no
word's, a pc that is no word's, or a fetch that the page does not allow. -/
inductive State.ownTraps (s : State) (k : Nat) : BitVec 8 → W64 → Prop where
  | illegal (w : W32) (e : DecodeError) : s.ownWord k w → decodeScalar w = .error e → s.ownTraps k 0x10 0
  | foreign (w : W32) (i : Instr) : s.ownWord k w → decodeScalar w = .ok i → i ∈ [.join, .exit, .utret, .yield, .execAll] → s.ownTraps k 0x10 0
  | trap (w : W32) (a : BitVec 6) : s.ownWord k w → decodeScalar w = .ok (.trap a) → s.ownTraps k 0x02 ((s.svc k).reg a)
  | jr (w : W32) (a : BitVec 6) : s.ownWord k w → decodeScalar w = .ok (.jr a) → ((s.svc k).reg a).extractLsb' 0 2 ≠ 0 →
      s.ownTraps k 0x12 ((s.svc k).reg a)
  | pc : k < 8 → (s.svc k).halted = false → (s.svc k).pc.extractLsb' 0 2 ≠ 0 → s.ownTraps k 0x12 (s.svc k).pc
  | fetch (e : TlbEntry) : k < 8 → (s.svc k).halted = false → (s.svc k).pc.extractLsb' 0 2 = 0 →
      s.ioTlb.find? (fun t => t.maps (((s.svc k).pc.setWidth 56).setWidth 64)) = some e → ({ x := true } : Need).allows e.leaf = false →
      s.ownTraps k 0x20 (s.svc k).pc

/-- Service core `k` has taken a trap: SCAUSE, SEPC and SINFO hold the cause, the pc and the information, and the core goes on at STVEC; with STVEC 0 it halts,
and the events ring is told (R425, R427). -/
def State.serviceTrapped (s t : State) (k : Nat) (cause : BitVec 8) (info : W64) : Prop :=
  (t.svc k).scause = cause.setWidth 64 ∧ (t.svc k).sepc = (s.svc k).pc ∧ (t.svc k).sinfo = info ∧ (t.svc k).regs = (s.svc k).regs ∧
  (t.svc k).stvec = (s.svc k).stvec ∧ ((s.svc k).stvec ≠ 0 → (t.svc k).pc = (s.svc k).stvec ∧ (t.svc k).halted = false) ∧
  ((s.svc k).stvec = 0 → (t.svc k).halted = true ∧ ∀ d, s.ringDescs.find 3 = some d → t.reports.get [] 3 = s.reports.get [] 3 ++
    [(none, leBytes 1 0 ++ leBytes 1 cause.toNat ++ leBytes 2 k ++ leBytes 4 0 ++ leBytes 8 (s.svc k).pc.toNat ++ leBytes 8 s.time ++ leBytes 8 0)])

/-- R425: the traps of service cores. A running core traps by its own word or its fetch alone: an illegal word is 0x10, TRAP 0x02 with its register as the
information, a misaligned target 0x12 and a fetch that translation refuses 0x20, with the address; and no other cause or information is taken then. An error in the
word is 0x19, and is journalled. A halted core takes none, and neither does one whose word is an ADD or a NOP. -/
def serviceTraps : Prop :=
  (∀ (s : State) (k : Nat) (cause : BitVec 8) (info : W64), s.ownTraps k cause info →
    (∃ t, exec (.serviceCoreTrap k cause info) s = .next t ∧ s.serviceTrapped t k cause info ∧ s.sameBytes t ∧
      ((s.svc k).stvec ≠ 0 → s.onlyService t k)) ∧
    ∀ c i, (c, i) ≠ (cause, info) → exec (.serviceCoreTrap k c i) s = .next s) ∧
  (∀ (s : State) (k p : Nat), k < 8 → (s.svc k).halted = false → (s.svc k).pc.extractLsb' 0 2 = 0 → s.hits none (s.svc k).pc { x := true } p →
    s.hbmBadIn p 2 = true → ∃ t, exec (.serviceCoreTrap k 0x19 (BitVec.ofNat 64 p)) s = .next t ∧ s.serviceTrapped t k 0x19 (BitVec.ofNat 64 p) ∧
      s.sameButJournal t ∧ t.journal = s.journal ++ [{
        kind := 8
        seq := s.journalNext
        time := s.time
        body := leBytes 8 p ++ leBytes 8 (s.svc k).pc.toNat ++ leBytes 8 (s.svc k).pc.toNat ++ leBytes 1 0xFF ++ leBytes 1 0xFF ++ leBytes 1 0xFF ++
          leBytes 5 0 }]) ∧
  (∀ (s : State) (k : Nat) (cause : BitVec 8) (info : W64), (s.svc k).halted = true ∨ 8 ≤ k ∨
      (∃ w d a b, s.ownWord k w ∧ (decodeScalar w = .ok .nop ∨ decodeScalar w = .ok (.add d a b))) →
    exec (.serviceCoreTrap k cause info) s = .next s)

end Sys2Proof.Machine

/-- R425, R426: reports, and the traps of service cores (log 101: a ring whose counts hold an error is journalled). -/
def Obligations.RingsAndServiceTraps : Prop := ringReports ∧ serviceTraps

namespace Sys2Proof.Machine

/-- A request of TYPE `type` is taken as it stands: the ports are open, the transport supports it, the header has its MAGIC, a zero STATUS and no FLAGS
bit beyond bit 2, and no replay runs (R430 to R432, R441). -/
def State.accepts (s : State) (r : Request) (type : Nat) : Prop :=
  s.taking r = true ∧ r.magic = 0x54494C52 ∧ r.type = type ∧ r.status = 0 ∧ r.flags < 8 ∧ s.replay = none

/-- The request is the next journal entry, of KIND 1, ahead of what it does (R439, R440). -/
def State.journaled (s t : State) (r : Request) : Prop :=
  ∃ more, t.journal = s.journal ++ { kind := 1, seq := s.journalNext, time := s.time, body := pad8 (requestBytes r) } :: more

/-- The one reply to a request. -/
def State.repliesWith (s t : State) (r : Request) (type handle status : Nat) (body : List Byte) : Prop :=
  t.replies = s.replies ++ [{
    port := r.port
    type := type
    flags := 1
    requestId := r.requestId
    handle := handle
    status := status
    body := body }]

/-- The requests, by their type number (R431). -/
noncomputable def requestInstr (type : Nat) (r : Request) : Instr :=
  match type with
  | 1 => .reqLoad r
  | 2 => .reqOpen r
  | 3 => .reqAppend r
  | 4 => .reqGenerate r ⟨false, []⟩ none
  | 5 => .reqCancel r
  | 6 => .reqClose r
  | 7 => .reqSail r
  | 8 => .reqStats r
  | 9 => .reqJournalRead r
  | 10 => .reqAttest r
  | _ => .reqPower r

/-- The body of a refusal: a GENERATE's names the cause ERROR (R432). -/
def refusalBody (type : Nat) : List Byte := if type = 4 then leBytes 8 4 else []

/-- R430 to R432, R441, R442: requests that are not taken. With the ports closed none arrives, and none that the transport does not support; one with a FLAGS
bit beyond bit 2, another MAGIC, a STATUS or an unknown TYPE is answered with STATUS 1; one whose body is too short with STATUS 2; one that names no
sequence with STATUS 3; and, while a replay runs that has no request left to feed, one that changes the device with STATUS 9. Each that arrives is journalled. -/
def requestsRefused : Prop :=
  (∀ (s : State) (r : Request) (y : Nat), 1 ≤ y → y ≤ 11 → (s.portsOpen = false ∨ s.heldInReset = true ∨ r.delivery ≠ .rod ∨ r.op ≠ .send ∨
      r.secured = false ∨ 16384 ≤ r.context ∨ 67108864 < 32 + r.body.length) → exec (requestInstr y r) s = .next s) ∧
  (∀ (s : State) (r : Request) (y : Nat), 1 ≤ y → y ≤ 11 → s.taking r = true → r.type = y → (8 ≤ r.flags ∨ r.magic ≠ 0x54494C52 ∨ r.status ≠ 0) →
    ∃ t, exec (requestInstr y r) s = .next t ∧ s.journaled t r ∧ s.repliesWith t r y r.handle 1 (refusalBody y) ∧ s.sameButJournal t) ∧
  (∀ (s : State) (r : Request) (y : Nat), 1 ≤ y → y ≤ 11 → s.taking r = true → (r.type % 65536 = 0 ∨ 11 < r.type % 65536) →
    ∃ t, exec (requestInstr y r) s = .next t ∧ s.journaled t r ∧ s.repliesWith t r (r.type % 65536) r.handle 1 [] ∧ s.sameButJournal t) ∧
  (∀ (s : State) (r : Request) (y : Nat), y ∈ [1, 2, 3, 4, 7, 9, 10, 11] → s.accepts r y → r.body.length < 4 →
    ∃ t, exec (requestInstr y r) s = .next t ∧ s.journaled t r ∧ s.repliesWith t r y r.handle 2 (refusalBody y) ∧ s.sameButJournal t) ∧
  (∀ (s : State) (r : Request) (y : Nat), y ∈ [5, 6] → s.accepts r y → r.body = [] → s.sequences.find r.handle = none →
    ∃ t, exec (requestInstr y r) s = .next t ∧ s.journaled t r ∧ s.repliesWith t r y r.handle 3 [] ∧ s.sameButJournal t) ∧
  (∀ (s : State) (r : Request) (y : Nat) (l : List JEntry), y ∈ [1, 2, 3, 4, 5, 6, 7] → s.taking r = true → r.magic = 0x54494C52 → r.type = y →
    r.status = 0 → r.flags < 8 → s.replay = some l → (∀ e ∈ l, e.kind ≠ 1) →
    ∃ t, exec (requestInstr y r) s = .next t ∧ s.journaled t r ∧ s.repliesWith t r y r.handle 9 (refusalBody y) ∧ t.replay = some l ∧
      s.sameButJournal t)

/-- The service reads the whole prefix table through its TLB, its bytes at the places `p`, and meets no error (R226, R420). -/
def State.tableRead (s : State) (p : Nat → Space × Nat) : Prop :=
  ∀ j, s.prefixBase.toNat ≤ j → j < s.prefixBase.toNat + 32 * s.prefixSize →
    (p j).1 = .hbm ∧ s.hits none (BitVec.ofNat 64 j) { r := true } (p j).2 ∧ s.hbmBadIn (p j).2 1 = false

/-- In the undelivered bytes and a token's bytes `v` after them the stop string `x` stands after `a`, and the token completes it (R433). -/
def Sequence.completes (q : Sequence) (v a x : List Byte) : Prop :=
  x ∈ q.stops ∧ ∃ c, q.held ++ v = a ++ x ++ c ∧ q.held.length < a.length + x.length

/-- `z` is a proper prefix of a stop string. -/
def Sequence.begins (q : Sequence) (z : List Byte) : Prop := ∃ x ∈ q.stops, z <+: x ∧ z ≠ x

/-- R433: the stop strings. A token that completes none is delivered, with holdback up to the longest end that begins a stop string, which is held. One that
completes a stop string, of several the one that ends first and of those the longest, ends the generation with cause STOP: what stands before it is delivered, and
without holdback a stop event says how many of its bytes had been delivered (log 41). -/
def stopStrings : Prop :=
  ∀ (s : State) (r : Request) (q : Sequence) (k : Nat) (v : List Byte), s.sequences.find r.handle = some q → q.generating = some r.requestId →
    Config.tokenBytes q.model.toNat k = v → (∀ x ∈ q.stops, 1 ≤ x.length ∧ x.length ≤ 64) →
    ((∀ a x, ¬q.completes v a x) → 2 ≤ q.limit → q.holdback = true → ∃ t m send, exec (.reqGenerate r ⟨true, [k]⟩ none) s = .next t ∧
      t.sequences.find r.handle = some m ∧ m.tokens = q.tokens ++ [k] ∧ m.generating = q.generating ∧ q.held ++ v = send ++ m.held ∧
      (m.held ≠ [] → q.begins m.held) ∧ (∀ z, z <:+ q.held ++ v → q.begins z → z.length ≤ m.held.length) ∧
      (t.replies.drop s.replies.length).map (fun p => (p.type, p.flags, p.requestId, p.status, p.body)) =
        if send = [] then [] else [(4, 2, r.requestId, 0, send)]) ∧
    ((∀ a x, ¬q.completes v a x) → 2 ≤ q.limit → q.holdback = false → ∃ t m, exec (.reqGenerate r ⟨true, [k]⟩ none) s = .next t ∧
      t.sequences.find r.handle = some m ∧ m.tokens = q.tokens ++ [k] ∧ m.generating = q.generating ∧
      (t.replies.drop s.replies.length).map (fun p => (p.type, p.flags, p.requestId, p.status, p.body)) =
        if v = [] then [] else [(4, 2, r.requestId, 0, v)]) ∧
    (∀ a x send, q.completes v a x → 1 ≤ q.limit → (∀ b y, q.completes v b y → a.length + x.length ≤ b.length + y.length ∧
        (a.length + x.length = b.length + y.length → a.length ≤ b.length)) →
      send = (if q.holdback then a else v.take (a.length - q.held.length)) → ∃ t m, exec (.reqGenerate r ⟨true, [k]⟩ none) s = .next t ∧
      t.sequences.find r.handle = some m ∧ m.tokens = q.tokens ++ [k] ∧ m.generating = none ∧
      (t.replies.drop s.replies.length).map (fun p => (p.type, p.flags, p.requestId, p.status, p.body)) =
        (if send = [] then [] else [(4, 2, r.requestId, 0, send)]) ++
        (if q.holdback then [] else [(4, 4, r.requestId, 0, leBytes 4 (q.held.length - a.length) ++ leBytes 4 0)]) ++
        [(4, 1, r.requestId, 0, leBytes 8 1)])

/-- R431 to R433: requests about a sequence. OPEN gives the next handle and a sequence with its key, program, parameters and stop strings, and journals the
key; APPEND adds tokens and tells how many of their blocks, from the first on, the prefix table holds; GENERATE starts, delivers each committed token's bytes, and ends at
its limit with cause LIMIT; a second one, whatever its REQUEST ID, is refused with STATUS 7 and the cause ERROR; CANCEL and CLOSE end it with cause CANCEL, and CLOSE
ends the sequence and has no reply. -/
def sequenceAsks : Prop :=
  ∀ (s : State) (r : Request),
    (∀ xs : List (List Byte), s.accepts r 2 → 0x60 ≤ r.body.length → numAt r.body 0x5C 4 = 0 → numAt r.body 0x58 4 = xs.length → xs.length ≤ 8 →
      (∀ x ∈ xs, 1 ≤ x.length ∧ x.length ≤ 64) → r.body.drop 0x60 = xs.flatMap (fun x => pad8 (leBytes 2 x.length ++ x)) →
      numAt r.body 0x14 4 < 2 → numAt r.body 0x10 4 < 256 → BitVec.ofNat 64 (numAt r.body 0 8) ∈ s.models → ∃ t q, exec (.reqOpen r) s = .next t ∧ s.journaled t r ∧
        s.repliesWith t r 2 s.nextHandle 0 [] ∧ t.sequences.find s.nextHandle = some q ∧ q.port = r.port ∧
        q.model = BitVec.ofNat 64 (numAt r.body 0 8) ∧ q.key = BitVec.ofNat 64 (numAt r.body 8 8) ∧ q.prog = numAt r.body 0x10 4 ∧
        (∀ i, i < 16 → q.params.getD i 0 = BitVec.ofNat 32 (numAt r.body (0x18 + 4 * i) 4)) ∧ q.tokens = [] ∧ q.stops = xs ∧
        q.generating = none ∧ q.ended = false ∧ (q.holdback = true ↔ numAt r.body 0x14 4 = 0) ∧ t.nextHandle = s.nextHandle + 1 ∧
        { kind := 3, seq := s.journalNext + 1, time := s.time, body := leBytes 8 s.nextHandle ++ leBytes 8 (numAt r.body 8 8) } ∈ t.journal ∧
        s.sameButJournal t) ∧
    (∀ q, s.sequences.find r.handle = some q →
      (q.ended = true → ∀ y ∈ [5, 6], s.accepts r y → r.body = [] → ∃ t, exec (requestInstr y r) s = .next t ∧ s.journaled t r ∧
        s.repliesWith t r y r.handle 8 []) ∧
      (s.accepts r 3 → q.ended = false → r.body.length = 8 + 4 * numAt r.body 0 4 → numAt r.body 4 4 = 0 → ∃ t m b, exec (.reqAppend r) s = .next t ∧
        s.journaled t r ∧ s.repliesWith t r 3 r.handle 0 (leBytes 4 b ++ leBytes 4 0) ∧ t.sequences.find r.handle = some m ∧
        m.tokens = q.tokens ++ (List.range (numAt r.body 0 4)).map (fun i => numAt r.body (8 + 4 * i) 4) ∧
        b ≤ m.tokens.length / 16 ∧
        ∀ u p, u = s.note 1 (requestBytes r) → u.tableRead p →
          b = (u.pfxRun (u.pfxEntry u.byteAt p) (q.model.toNat % 2 ^ 32) (hashesOf (m.tokens.length / 16) m.tokens)).length) ∧
      (s.accepts r 4 → q.ended = false → r.body.length = 16 → numAt r.body 4 4 = 0 → numAt r.body 8 8 = 0 →
        (q.generating = none → numAt r.body 0 4 ≠ 0 → ∃ t m, exec (.reqGenerate r ⟨false, []⟩ none) s = .next t ∧ s.journaled t r ∧
          t.replies = s.replies ∧ t.sequences.find r.handle = some m ∧ m.generating = some r.requestId ∧ m.limit = numAt r.body 0 4 ∧
          m.tokens = q.tokens ∧ s.sameButJournal t) ∧
        (∀ id, q.generating = some id → ∃ t, exec (.reqGenerate r ⟨false, []⟩ none) s = .next t ∧ s.journaled t r ∧
          s.repliesWith t r 4 r.handle 7 (leBytes 8 4) ∧ t.sequences = s.sequences ∧ s.sameButJournal t)) ∧
      (∀ k v, q.generating = some r.requestId → q.stops = [] → q.held = [] → q.holdback = true → Config.tokenBytes q.model.toNat k = v →
        (2 ≤ q.limit → ∃ t m, exec (.reqGenerate r ⟨true, [k]⟩ none) s = .next t ∧ t.sequences.find r.handle = some m ∧ m.tokens = q.tokens ++ [k] ∧
          m.limit = q.limit - 1 ∧ m.generating = some r.requestId ∧ t.replies = s.replies ++ if v = [] then [] else [{
            port := q.port
            type := 4
            flags := 2
            requestId := r.requestId
            handle := r.handle
            status := 0
            body := v }]) ∧
        (q.limit = 1 → ∃ t m, exec (.reqGenerate r ⟨true, [k]⟩ none) s = .next t ∧ t.sequences.find r.handle = some m ∧ m.generating = none ∧
          (t.replies.getLast?).map (fun p => (p.type, p.flags, p.requestId, p.status, p.body)) = some (4, 1, r.requestId, 0, leBytes 8 2))) ∧
      (s.accepts r 5 → q.ended = false → r.body = [] → ∃ t m, exec (.reqCancel r) s = .next t ∧ s.journaled t r ∧
        t.sequences.find r.handle = some m ∧ m.generating = none ∧ m.ended = false ∧ (q.generating = none → s.repliesWith t r 5 r.handle 0 []) ∧
        (∀ id, q.generating = some id → (t.replies.drop s.replies.length).map (fun p => (p.type, p.flags, p.requestId, p.status, p.body)) =
          [(4, 1, id, 0, leBytes 8 3), (5, 1, r.requestId, 0, [])])) ∧
      (s.accepts r 6 → q.ended = false → r.body = [] → ∃ t m, exec (.reqClose r) s = .next t ∧ s.journaled t r ∧
        t.sequences.find r.handle = some m ∧ m.ended = true ∧ m.generating = none ∧ (q.generating = none → t.replies = s.replies) ∧
        (∀ id, q.generating = some id → (t.replies.drop s.replies.length).map (fun p => (p.type, p.flags, p.requestId, p.status, p.body)) =
          [(4, 1, id, 0, leBytes 8 3)])))

end Sys2Proof.Machine

/-- R423, R431 to R433: the requests about sequences, and the stop strings of a generation (log 21: the bytes of a token; log 41: the details of holdback). -/
def Obligations.SequenceRequests : Prop := sequenceAsks ∧ stopStrings

namespace Sys2Proof.Machine

/-- R431, R432, R440 to R442, R444: the other requests. LOAD makes its model known, or leaves the device as it was and says why; SAIL sets PERIOD and EPOCH
and writes its entries; STATS gives the counters; JOURNAL reads a range of entries, its own request included, or starts a replay; ATTEST gives the report;
POWER sets the cap. -/
def deviceRequests : Prop :=
  ∀ (s : State) (r : Request),
    (∀ v gs ps n, s.accepts r 1 → 8 ≤ r.body.length → (s.note 1 (requestBytes r)).loadImage (r.body.drop 8) = (v, .ok (gs, ps, n)) →
      ∃ t, exec (.reqLoad r) s = .next t ∧ BitVec.ofNat 64 (numAt r.body 0 8) ∈ t.models ∧ (∀ m ∈ v.models, m ∈ t.models) ∧
        t.hbm = v.hbm ∧ t.graphs = v.graphs ∧ t.sail = v.sail ∧ t.wprogs = v.wprogs ∧ v.repliesWith t r 1 r.handle 0 (leBytes 4 gs.length ++
          leBytes 4 ps.length ++ leBytes 4 n ++ leBytes 4 0 ++ pad8 (gs.flatMap (leBytes 2) ++ ps.flatMap (leBytes 1)))) ∧
    (∀ v k o, s.accepts r 1 → 8 ≤ r.body.length → (s.note 1 (requestBytes r)).loadImage (r.body.drop 8) = (v, .error (.refused k o)) →
      ∃ t, exec (.reqLoad r) s = .next t ∧ s.journaled t r ∧ s.repliesWith t r 1 r.handle 4 (leBytes 8 k ++ leBytes 8 o) ∧
        s.sameButJournal t ∧ t.graphs = s.graphs ∧ t.sail = s.sail ∧ t.wprogs = s.wprogs ∧ t.models = s.models) ∧
    (∀ e k, s.accepts r 7 → r.body.length = 0x40 → numAt r.body 0x10 4 = 1 → numAt r.body 0x14 4 = 0 → 1000 ≤ numAt r.body 0 8 →
      numAt r.body 0 8 ≤ 10000000000 → numAt r.body 0x18 8 = k → k < 4096 → sailOf ((r.body.drop 0x20).take 32) s.time = some e →
      ∃ t f, exec (.reqSail r) s = .next t ∧ s.journaled t r ∧ t.sailPeriod = numAt r.body 0 8 ∧ t.sailEpoch = numAt r.body 8 8 ∧ t.sailFrom = s.time ∧
        t.sail.find k = some f ∧ f.graph = e.graph ∧ f.stream = e.stream ∧ f.offset = e.offset ∧ f.valid = e.valid ∧ f.arg = e.arg ∧ f.skips = 0 ∧
        (∀ j, j ≠ k → t.sail.find j = s.sail.find j) ∧ s.repliesWith t r 7 r.handle 0 (leBytes 4 (s.sail.get SailEntry.reset k).skips.toNat) ∧
        s.sameButJournal t) ∧
    (s.accepts r 7 → (numAt r.body 0 8 < 1000 ∨ 10000000000 < numAt r.body 0 8) → r.body.length = 0x18 + 40 * numAt r.body 0x10 4 →
      numAt r.body 0x14 4 = 0 →
      ∃ t, exec (.reqSail r) s = .next t ∧ s.repliesWith t r 7 r.handle 6 [] ∧ t.sailPeriod = s.sailPeriod ∧ t.sail = s.sail) ∧
    (s.accepts r 8 → r.body = [] → ∃ t, exec (.reqStats r) s = .next t ∧ s.journaled t r ∧ s.repliesWith t r 8 r.handle 0 s.statsBody ∧
      s.sameButJournal t) ∧
    (s.accepts r 9 → r.body.length = 0x18 → numAt r.body 4 4 = 0 → numAt r.body 0 4 = 0 → ∃ t, exec (.reqJournalRead r) s = .next t ∧
      t.journal = s.journal ++ [{ kind := 1, seq := s.journalNext, time := s.time, body := pad8 (requestBytes r) }] ∧
      s.repliesWith t r 9 r.handle 0 ((t.journal.filter (fun e => decide (numAt r.body 8 8 ≤ e.seq) && decide (e.seq ≤ numAt r.body 0x10 8))).flatMap
        (fun e => leBytes 2 e.kind ++ leBytes 2 0 ++ leBytes 4 e.body.length ++ leBytes 8 e.seq ++ leBytes 8 e.time ++ leBytes 8 0 ++ e.body)) ∧
      t.replay = none ∧ s.sameButJournal t) ∧
    (∀ e, s.accepts r 9 → r.body.length = 0x18 → numAt r.body 4 4 = 0 → numAt r.body 0 4 = 1 → e ∈ s.journal → e.kind = 2 → numAt r.body 8 8 ≤ e.seq →
      e.seq ≤ numAt r.body 0x10 8 → ∃ t l, exec (.reqJournalReplay r) s = .next t ∧ s.journaled t r ∧ s.repliesWith t r 9 r.handle 0 [] ∧
        t.replay = some l ∧ e ∈ l ∧ s.sameButJournal t) ∧
    (s.accepts r 10 → r.body.length = 32 → ∃ t, exec (.reqAttest r) s = .next t ∧ s.journaled t r ∧
      s.repliesWith t r 10 r.handle 0 (s.attestBody r.body) ∧ s.sameButJournal t) ∧
    (s.accepts r 11 → r.body.length = 8 → numAt r.body 4 4 = 0 → 1000 ≤ numAt r.body 0 4 → numAt r.body 0 4 ≤ 1800 → ∃ t,
      exec (.reqPower r) s = .next t ∧ s.journaled t r ∧ t.powerCap = numAt r.body 0 4 ∧ s.repliesWith t r 11 r.handle 0 r.body ∧
      s.sameButJournal t) ∧
    (s.accepts r 11 → r.body.length = 8 → numAt r.body 4 4 = 0 → (numAt r.body 0 4 < 1000 ∨ 1800 < numAt r.body 0 4) → ∃ t,
      exec (.reqPower r) s = .next t ∧ t.powerCap = s.powerCap ∧ s.repliesWith t r 11 r.handle 6 [] ∧ s.sameButJournal t)

/-- R439, R440: the journal as it stands in HBM. A new entry is written behind the last one, its 32-byte header and its body padded to 8 bytes, and the next entry goes
behind it; only these bytes change (log 82: an entry that would run past the end of HBM is not written). -/
def journalInMemory : Prop :=
  ∀ (s : State) (kind a : Nat) (body : List Byte) (n : Nat), s.journalAt = some a → s.hbm.wf = true → n = (pad8 body).length →
    a + 32 + n ≤ 0x6000000000 →
    (s.note kind body).hbmRead a (32 + n) = leBytes 2 kind ++ leBytes 2 0 ++ leBytes 4 n ++ leBytes 8 s.journalNext ++ leBytes 8 s.time ++
      leBytes 8 0 ++ pad8 body ∧
    (s.note kind body).journalAt = some (a + 32 + n) ∧ (s.note kind body).journalNext = s.journalNext + 1 ∧ s.sameButJournal (s.note kind body)

end Sys2Proof.Machine

/-- R430 to R432, R439 to R444: requests that are not taken, those about the whole device, and the journal in memory (log 40: the requests taken during a replay; log 42: the SKIPCOUNT that SAIL answers; log 82: an entry past the end of HBM; log 84: an unknown TYPE answers STATUS 1; log 102: what the transport does not support has no effect). -/
def Obligations.OtherRequests : Prop := requestsRefused ∧ deviceRequests ∧ journalInMemory

namespace Sys2Proof.Machine

/-- An entry of the events ring, told if the ring is in use (R427). -/
def State.tells (s t : State) (kind unit value : Nat) : Prop :=
  ∀ d, s.ringDescs.find 3 = some d → t.reports.get [] 3 = s.reports.get [] 3 ++
    [(none, leBytes 1 kind ++ leBytes 1 0 ++ leBytes 2 unit ++ leBytes 4 0 ++ leBytes 8 value ++ leBytes 8 s.time ++ leBytes 8 0)]

/-- R427, R434, R437, R442 to R444, R448: links, ports, TIME and power. From boot step 3 on link 0's port id becomes the device id; another link that meets the
same comes up, and one that meets another stays down and is told. A link that was up goes down and is told. TIME, nominal until then, steps forward when it is a
millisecond or more behind, and slews otherwise. A sample enters the window of power; while the average is above the cap nothing is raised and an island goes down a
point (log 44); a core island that is too hot drops to point 6. -/
def packageEvents : Prop :=
  (∀ (s : State) (p : Nat), s.linksReady = true → s.links = [] → s.deviceId = none → ∃ t, exec (.linkTraining 0 (some p)) s = .next t ∧
    t.deviceId = some p ∧ t.links.find 0 = some { up := true, port := some p } ∧ s.tells t 2 0 p ∧ s.sameBytes t) ∧
  (∀ (s : State) (j p v : Nat), s.linksReady = true → j ≤ 15 → s.deviceId = some v → ∃ t, exec (.linkTraining j (some p)) s = .next t ∧
    t.deviceId = some v ∧ t.links.find j = some { up := decide (p = v), port := some p } ∧ s.tells t (if p = v then 2 else 1) j p ∧ s.sameBytes t) ∧
  (∀ (s : State) (j : Nat) (p : Option Nat), 15 < j ∨ s.bootStep < 3 ∨ s.heldInReset = true → exec (.linkTraining j p) s = .next s) ∧
  (∀ (s : State) (j : Nat) (l : Link), s.links.find j = some l →
    (l.up = true → ∃ t, exec (.linkDown j) s = .next t ∧ t.links.find j = some { l with up := false } ∧ s.tells t 1 j (l.port.getD 0xFFFF) ∧
      s.sameBytes t) ∧
    (l.up = false → exec (.linkDown j) s = .next s)) ∧
  (∀ (s : State) (p : Nat), p < 4 → (∃ t, exec (.ethernetPortDown p) s = .next t ∧ t.portsUp.get true p = false ∧
      (∀ q, q ≠ p → t.portsUp.get true q = s.portsUp.get true q) ∧ s.sameBytes t) ∧
    (∃ t, exec (.ethernetPortUp p) s = .next t ∧ t.portsUp.get true p = true ∧
      (∀ q, q ≠ p → t.portsUp.get true q = s.portsUp.get true q) ∧ s.sameBytes t)) ∧
  (∀ (s : State) (n : Int), (s.bootStep < 3 ∨ s.heldInReset = true → exec (.ptpOffsetUpdate n) s = .next s) ∧
    (s.linksReady = true → ∃ t, exec (.ptpOffsetUpdate n) s = .next t ∧ s.time ≤ t.time ∧ s.sameBytes t ∧
      (1000000 ≤ n → (t.time : Int) = s.time + n ∧ t.slew = 0) ∧ (n < 1000000 → t.time = s.time ∧ t.slew = n))) ∧
  (∀ (s : State) (mw i w c : Nat), i < 24 → ∃ t, exec (.powerSample mw [(i, w, c)] []) s = .next t ∧ t.powers = (mw :: s.powers).take 100 ∧
    (t.island i).power = w ∧ (t.island i).temp = c ∧ s.sameBytes t ∧
    (t.powers.foldl (· + ·) 0 ≤ s.powerCap * 1000 * t.powers.length → (t.island i).point = (s.island i).point) ∧
    (s.powerCap * 1000 * t.powers.length < t.powers.foldl (· + ·) 0 → (∀ j, j < 20 → (s.island j).point ≤ (t.island j).point) ∧
      ((∃ j, j < 20 ∧ (s.island j).point < 6) → ∃ j, j < 20 ∧ (t.island j).point = (s.island j).point + 1))) ∧
  (∀ (s : State) (mw i : Nat), i < 16 → (s.island i).point < 6 →
    ∃ t, exec (.powerSample mw [] [(i, (s.island i).point + 1)]) s = .next t ∧ (t.island i).point = (s.island i).point + 1) ∧
  (∀ (s : State) (mw i n : Nat), i < 20 → n < (s.island i).point →
    s.powerCap * 1000 * ((mw :: s.powers).take 100).length < ((mw :: s.powers).take 100).foldl (· + ·) 0 →
    ∃ t, exec (.powerSample mw [] [(i, n)]) s = .next t ∧ (s.island i).point ≤ (t.island i).point) ∧
  (∀ (s : State) (i c : Nat), i < 16 → ∃ t, exec (.thermalTrip i c) s = .next t ∧ (t.island i).point = 6 ∧ (t.island i).temp = c ∧
    (∀ j, j ≠ i → t.island j = s.island j) ∧ s.tells t 4 i c ∧ s.sameBytes t) ∧
  (∀ (s : State) (i : Nat) (w : W64), i < 24 → ∃ t, exec (.regulatorFault i w) s = .next t ∧ (t.island i).word = w ∧ s.tells t 5 i w.toNat ∧
    s.sameBytes t)

/-- R220, R238: errors that arise in the storage. One in HBM or in a line that is written back leaves check bits that the next reader meets, and so does one in a scratchpad,
a scale store, an accumulator tile, a lane register or a cached Glean line; one in a tag table or a TLB takes the entry out and is counted for the island, and a corrected one
is only counted. No byte changes. -/
def errorsArise : Prop :=
  (∀ (s t : State) (x : Upset), s.nextTurn = (some (.upset x), t) → step s = .next (t.upset x) ∧ t.sameBytes (t.upset x) ∧
    (t.upset x).journal = t.journal) ∧
  (∀ (s : State) (n : Nat), n < 0x300000000 → (s.upset (.hbm n)).hbmBadIn (32 * n) 32 = true ∧
    ∀ pa m, (s.upset (.hbm n)).hbmBadIn pa m = (s.hbmBadIn pa m || (decide (0 < m) && decide (pa < 32 * n + 32) && decide (32 * n < pa + m)))) ∧
  (∀ (s : State) (n : Nat), n < 0x180000000 →
    ∀ pa m, (s.upset (.writeBack n)).hbmBadIn pa m = (s.hbmBadIn pa m || (decide (0 < m) && decide (pa < 64 * n + 64) && decide (64 * n < pa + m)))) ∧
  (∀ (s : State) (c n : Nat), c < 192 → (n < 65536 → (s.upset (.spad c n)).spadBadIn c (32 * n) 32 = true ∧ n ∈ ((s.upset (.scale c n)).core c).scaleBad) ∧
    (∀ t e, t < 8 → e < 16388 → (t, e) ∈ ((s.upset (.tile c t e)).core c).tileBad) ∧
    ((s.core c).gcache.any (fun p => p.1 == n / 2) = true → n ∈ ((s.upset (.glean c n)).core c).gleanBad)) ∧
  (∀ (s : State) (g n : Nat), (s.groups.find g).isSome = true → n < 640 → n ∈ ((s.upset (.reg g n)).grp g).vBad) ∧
  (∀ (s : State) (c k : Nat), c < 192 → k < 1024 → (((s.upset (.tagSlot c k)).core c).tags.find k).map (·.valid) = some false ∧
    (s.upset (.tagSlot c k)).corrected.get 0 (c / 96 * 8 + c % 96 / 8 / 3 * 2 + c % 8 / 4) =
      s.corrected.get 0 (c / 96 * 8 + c % 96 / 8 / 3 * 2 + c % 8 / 4) + 1) ∧
  (∀ (s : State) (c i : Nat), ((s.upset (.tlb (some c) i)).core c).tlb = (s.core c).tlb.take i ++ (s.core c).tlb.drop (i + 1) ∧
    (s.upset (.tlb none i)).ioTlb = s.ioTlb.take i ++ s.ioTlb.drop (i + 1) ∧
    (s.upset (.tlb (some c) i)).corrected.get 0 (c / 96 * 8 + c % 96 / 8 / 3 * 2 + c % 8 / 4) =
      s.corrected.get 0 (c / 96 * 8 + c % 96 / 8 / 3 * 2 + c % 8 / 4) + 1 ∧
    (s.upset (.tlb none i)).corrected.get 0 22 = s.corrected.get 0 22 + 1) ∧
  (∀ (s : State) (i : Nat), (i < 24 → s.upset (.corrected i) = { s with corrected := s.corrected.put i (s.corrected.get 0 i + 1) }) ∧
    (i < 8 → s.upset (.correctedHbm i) = { s with corrected := s.corrected.put (24 + i) (s.corrected.get 0 (24 + i) + 1) }))

/-- R442, R445, R447: boot and reset. Boot measures its two stages, trains the links and synchronizes TIME, and leaves the ports open with every service core running from the
Tiller image's entry; where the first stage or the Tiller image fails its verification it halts with the ports closed, with memory of zeros once it is initialized. The board
controller's hold puts the package into reset, where nothing goes on but what the controller does, and recovery boot starts at the ROM. -/
def bootAndReset : Prop :=
  (∀ (s : State) (links : List (Option Nat)) (n : Int), s.heldInReset = false → s.bootHalted = false → s.portsOpen = false →
    (∃ t, exec (.boot ⟨true, true, links, n⟩) s = .next t ∧ t.portsOpen = true ∧ t.bootStep = 6 ∧ t.bootHalted = false ∧
      (∀ k, k < 8 → (t.svc k).halted = false ∧ (t.svc k).pc = Config.tillerEntry k) ∧ t.hbmBad = [] ∧ (∀ c a, (t.core c).spad.read a = 0) ∧
      t.measure = sha256 (sha256 (List.replicate 32 0 ++ sha256 (Config.stageImage 0)) ++ sha256 (Config.stageImage 1)) ∧
      (∀ m, m ≤ (Config.stageImage 1).length → Config.tillerBase + m ≤ 0x6000000000 → t.hbmRead Config.tillerBase m = (Config.stageImage 1).take m) ∧
      (1000000 ≤ n → (t.time : Int) = s.time + n) ∧ (n < 1000000 → t.slew = n)) ∧
    (∀ v, ∃ t, exec (.boot ⟨false, v, links, n⟩) s = .next t ∧ t.portsOpen = false ∧ t.bootHalted = true ∧ t.bootStep = 1 ∧ s.sameBytes t) ∧
    (∃ t, exec (.boot ⟨true, false, links, n⟩) s = .next t ∧ t.portsOpen = false ∧ t.bootHalted = true ∧ t.bootStep = 4 ∧ (∀ a, t.hbm.read a = 0) ∧
      t.hbmBad = [] ∧ ∀ c a, (t.core c).spad.read a = 0) ∧
    (∀ p, s.links = [] → s.deviceId = none → ∃ t, exec (.boot ⟨true, true, [some p], n⟩) s = .next t ∧ t.deviceId = some p)) ∧
  (∀ (s : State) (f v : Bool) (links : List (Option Nat)) (n : Int), s.portsOpen = true ∨ s.heldInReset = true ∨ s.bootHalted = true →
    exec (.boot ⟨f, v, links, n⟩) s = .next s) ∧
  (∀ (s : State) (x : Turn) (rest : List Turn), s.heldInReset = true → s.turns = x :: rest → x.inReset = false →
    step s = .next { s with turns := rest }) ∧
  (∀ (s : State), (∃ t, exec (.i3cHoldReset true) s = .next t ∧ t.heldInReset = true ∧ t.portsOpen = false ∧ t.groups = [] ∧ t.runs = [] ∧
      t.time = 0 ∧ t.deviceId = none ∧ t.powerCap = 1800) ∧
    (∃ t, exec (.i3cHoldReset false) s = .next t ∧ t.heldInReset = false ∧ t.portsOpen = s.portsOpen ∧ t.bootStep = s.bootStep ∧ s.sameBytes t) ∧
    (∃ t, exec .i3cRecoveryBoot s = .next t ∧ t.bootStep = 1 ∧ t.heldInReset = false ∧ t.portsOpen = false ∧ t.groups = [] ∧ t.time = 0))

end Sys2Proof.Machine

/-- R220, R238, R427, R434, R442 to R448: what happens to the package (the model's readings of its samples and of the links: logs 44, 81, 90; what a reset keeps: log 45; the entries of the Tiller image: log 20). -/
def Obligations.PackageAndBoot : Prop := packageEvents ∧ bootAndReset ∧ errorsArise

namespace Sys2Proof.Machine

/-- Where the byte `c` of row `r` of a frame's luma plane stands, and of its chroma plane `v`, 0 for U and 1 for V (R437). -/
def FrameJob.lumaVa (j : FrameJob) (r c : Nat) : W64 := j.frame + BitVec.ofNat 64 (j.pitch * r + c)
def FrameJob.chromaVa (j : FrameJob) (v r c : Nat) : W64 :=
  j.frame + BitVec.ofNat 64 (j.pitch * j.height + v * (j.pitch / 2 * (j.height / 2)) + j.pitch / 2 * r + c)

/-- In state `u` the Pennant reads the frame of job `j` at the places `lp` and `cp`, byte by byte through its TLB (R226, R437). -/
def State.frameReads (u : State) (j : FrameJob) (lp : Nat → Nat → Nat) (cp : Nat → Nat → Nat → Nat) : Prop :=
  (∀ r c, r < j.height → c < j.width * j.sample → u.hits none (j.lumaVa r c) { r := true } (lp r c) ∧ u.hbmBadIn (lp r c) 1 = false) ∧
  ∀ v r c, v < 2 → r < j.height / 2 → c < j.width / 2 * j.sample →
    u.hits none (j.chromaVa v r c) { r := true } (cp v r c) ∧ u.hbmBadIn (cp v r c) 1 = false

/-- The luma bytes at those places, and the chroma bytes. -/
def State.frameLuma (u : State) (j : FrameJob) (lp : Nat → Nat → Nat) : List Byte :=
  (List.range j.height).flatMap (fun r => (List.range (j.width * j.sample)).map (fun c => u.hbm.read (lp r c)))
def State.frameChroma (u : State) (j : FrameJob) (cp : Nat → Nat → Nat → Nat) : List Byte :=
  (List.range 2).flatMap (fun v => (List.range (j.height / 2)).flatMap (fun r =>
    (List.range (j.width / 2 * j.sample)).map (fun c => u.hbm.read (cp v r c))))

/-- The completion entry of a job (R437). -/
def State.jobCompletes (s t : State) (j : FrameJob) (status : Nat) : Prop :=
  ∀ y, s.ringDescs.find 5 = some y → t.reports.get [] 5 = s.reports.get [] 5 ++
    [(none, leBytes 8 j.id ++ leBytes 4 status ++ leBytes 4 0 ++ leBytes 8 s.time ++ leBytes 8 0)]

end Sys2Proof.Machine

/-- R436 to R438, R440: the Pennant's jobs. The job that stands first is taken, and goes as its fields say. One that the table allows, whose port is up, whose request has an
open GENERATE, and whose frame and manifest the Pennant can reach, is sent marked on its port, followed by its manifest, which stands in memory too, and its completion has
status 0. One whose fields break the table is refused with status 1, one whose port is down with 2, one without such a GENERATE with 3, and one that it cannot read or
whose manifest it cannot write with 5, each journalled as KIND 9 with PATH 3; an error that it meets ends it with 4, journalled as KIND 8. With no job nothing happens
(logs 20, 85: the mark and the rows of a frame; log 101: an error in the ring is journalled and nothing else happens). -/
def Obligations.PennantJobs : Prop :=
  ∀ (s : State) (d : RingDesc) (j : FrameJob) (u : State), s.ringDescs.find 4 = some d → s.hbm.wf = true →
    (s.ringBad d = true → exec .pennantJob s = .next (s.deviceCheck d.base)) ∧
    (s.ringBad d = false → s.ringUsed d = 0 → exec .pennantJob s = .next s) ∧
    (s.ringBad d = false → s.ringUsed d ≠ 0 → s.hbmBadIn (d.base + 64 + 64 * (s.ringConsumer d % 2 ^ d.log2n)) 64 = true →
      exec .pennantJob s = .next (s.deviceCheck (d.base + 64 + 64 * (s.ringConsumer d % 2 ^ d.log2n)))) ∧
    (s.ringBad d = false → s.ringUsed d ≠ 0 → s.hbmBadIn (d.base + 64 + 64 * (s.ringConsumer d % 2 ^ d.log2n)) 64 = false →
      j = frameJobOf (s.hbmRead (d.base + 64 + 64 * (s.ringConsumer d % 2 ^ d.log2n)) 64) → u = s.ringTake d →
      (u.hbmNat (d.base + 8) 8 = (s.ringConsumer d + 1) % 2 ^ 64 ∧
        ∀ a, (a < d.base + 8 ∨ d.base + 16 ≤ a) → u.hbm.read a = s.hbm.read a) ∧
      (∀ n, (j.ok = false ∧ n = 1 ∨ j.ok = true ∧ s.portsUp.get true j.port = false ∧ n = 2 ∨
          j.ok = true ∧ s.portsUp.get true j.port = true ∧ s.generateOf j.request = none ∧ n = 3) →
        ∃ t, exec .pennantJob s = .next t ∧ t.replies = s.replies ∧ u.sameButJournal t ∧ s.jobCompletes t j n ∧
          { kind := 9, seq := s.journalNext, time := s.time, body := leBytes 8 (j.frame.toNat % 2 ^ 56) ++ leBytes 1 3 ++ leBytes 1 j.port ++
            leBytes 6 0 } ∈ t.journal) ∧
      (∀ h q, j.ok = true → s.portsUp.get true j.port = true → s.generateOf j.request = some (h, q) →
        (∀ (lp : Nat → Nat → Nat) (cp : Nat → Nat → Nat → Nat) (mp : Nat → Nat) (f m : List Byte), u.frameReads j lp cp →
          (∀ k, k < 8 → u.hits none (j.manifest + BitVec.ofNat 64 (32 * k)) { w := true } (mp k)) →
          f = markedLuma (u.frameLuma j lp) ++ u.frameChroma j cp → m = u.manifestOf j f →
          ∃ t, exec .pennantJob s = .next t ∧ s.jobCompletes t j 0 ∧ t.replies = s.replies ++ [{
            port := j.port
            type := 4
            flags := 2
            requestId := j.request
            handle := h
            status := 0
            body := f ++ m }] ∧
          (∀ a, (∀ k, k < 8 → a < mp k ∨ mp k + 32 ≤ a) → t.hbm.read a = u.hbm.read a) ∧
          ((∀ k l, k < l → l < 8 → mp k + 32 ≤ mp l ∨ mp l + 32 ≤ mp k) → ∀ k, k < 8 → t.hbmRead (mp k) 32 = (m.drop (32 * k)).take 32)) ∧
        (∀ v w luma chroma, u.readFrame j = (v, .ok (luma, chroma)) →
          ({ v with freeNo := v.freeNo + 1 } : State).writeVirt none none j.manifest (v.manifestOf j (markedLuma luma ++ chroma)) = (w, .ok ()) →
          ∃ t, exec .pennantJob s = .next t ∧ w.sameBytes t ∧ t.replies = w.replies ++ [{
            port := j.port
            type := 4
            flags := 2
            requestId := j.request
            handle := h
            status := 0
            body := markedLuma luma ++ chroma ++ v.manifestOf j (markedLuma luma ++ chroma) }]) ∧
        (∀ v va c w luma chroma, u.readFrame j = (v, .fault va c) ∨ u.readFrame j = (v, .ok (luma, chroma)) ∧
            ({ v with freeNo := v.freeNo + 1 } : State).writeVirt none none j.manifest (v.manifestOf j (markedLuma luma ++ chroma)) = (w, .fault va c) →
          ∃ t, exec .pennantJob s = .next t ∧ t.replies = s.replies ∧ v.jobCompletes t j 5 ∧
            { kind := 9, seq := v.journalNext, time := v.time, body := leBytes 8 (j.frame.toNat % 2 ^ 56) ++ leBytes 1 3 ++ leBytes 1 j.port ++
              leBytes 6 0 } ∈ t.journal) ∧
        (∀ v pa va, u.readFrame j = (v, .check pa va) → ∃ t, exec .pennantJob s = .next t ∧ v.jobCompletes t j 4 ∧
          { kind := 8, seq := v.journalNext, time := v.time, body := leBytes 8 pa ++ leBytes 8 va.toNat ++ leBytes 8 0 ++ leBytes 1 0xFF ++
            leBytes 1 0xFF ++ leBytes 1 0xFF ++ leBytes 5 0 } ∈ t.journal)))

/-! ## Translation -/

namespace Sys2Proof.Machine

/-- What makes a valid entry of level `level` malformed (R224), in numbers. -/
def badEntry (level : Nat) (e : W64) : Prop :=
  e.toNat / 2 ^ 48 % 2 ^ 8 ≠ 0 ∨ e.toNat / 2 ^ 9 % 8 ≠ 0 ∨
  (if e.toNat / 2 % 8 ≠ 0 then
    level < 2 ∨ (level = 2 ∧ e.toNat / 2 ^ 12 % 16 < 9) ∨ (level = 3 ∧ 8 < e.toNat / 2 ^ 12 % 16) ∨
      e.toNat / 2 ^ 16 % 2 ^ 32 * 65536 % max (4096 * 2 ^ (e.toNat / 2 ^ 12 % 16)) 65536 ≠ 0 ∨
      0x6000000000 < e.toNat / 2 ^ 16 % 2 ^ 32 * 65536 + max (4096 * 2 ^ (e.toNat / 2 ^ 12 % 16)) 65536
  else level = 3 ∨ e.toNat / 2 ^ 4 % 32 ≠ 0 ∨
    0x6000000000 < e.toNat / 2 ^ 16 % 2 ^ 32 * 65536 + e.toNat / 2 ^ 12 % 16 * 4096 + 4096)

end Sys2Proof.Machine

/-- R221 to R227: translation. A walk reads the entry of its level, indexed by VA[55:39], VA[38:30], VA[29:21] or VA[20:12]: V = 0 ends it with CAUSE 0, a malformed
entry with CAUSE 2, a table entry leads to its node, and a leaf ends it. A leaf that allows the access gives PFN times 64 KiB plus the address within the page, or
within 64 KiB for a smaller page; the walker sets A, and D for a write, in the slot; a leaf without the right faults with CAUSE 1. An entry that a buffer holds is
used without a walk, unless a write has to set D first; one without the right faults with CAUSE 1. No fault has a CAUSE above 2. -/
def Obligations.Translation : Prop :=
  (∀ va : W64, walkIndex 0 va = va.toNat / 2 ^ 39 % 2 ^ 17 ∧ walkIndex 1 va = va.toNat / 2 ^ 30 % 512 ∧
    walkIndex 2 va = va.toNat / 2 ^ 21 % 512 ∧ walkIndex 3 va = va.toNat / 2 ^ 12 % 512) ∧
  (∀ (s : State) (va e : W64) (level node : Nat), level ≤ 3 → s.hbmBadIn (node + 8 * walkIndex level va) 8 = false →
    e = BitVec.ofNat 64 (s.hbmNat (node + 8 * walkIndex level va) 8) →
    (e.getLsbD 0 = false → s.walkFrom va (4 - level) node = .fault 0) ∧
    (e.getLsbD 0 = true → badEntry level e → s.walkFrom va (4 - level) node = .fault 2) ∧
    (e.getLsbD 0 = true → ¬ badEntry level e → e.toNat / 2 % 8 ≠ 0 →
      s.walkFrom va (4 - level) node = .leaf (node + 8 * walkIndex level va) e) ∧
    (e.getLsbD 0 = true → ¬ badEntry level e → e.toNat / 2 % 8 = 0 → s.walkFrom va (4 - level) node =
      s.walkFrom va (3 - level) (e.toNat / 2 ^ 16 % 2 ^ 32 * 65536 + e.toNat / 2 ^ 12 % 16 * 4096))) ∧
  (∀ (s : State) (b : Option Nat) (va : W64) (n : Need), va.toNat < 2 ^ 56 → s.hbm.wf = true → (∀ x ∈ s.tlbOf b, x.maps va = false) →
    (∀ c, s.walk va = .fault c → s.translate b va n = (s, .fault c)) ∧
    (∀ slot e, s.walk va = .leaf slot e →
      ((n.r = true ∧ e.getLsbD 1 = false) ∨ (n.w = true ∧ e.getLsbD 2 = false) ∨ (n.x = true ∧ e.getLsbD 3 = false) ∨
        (n.egress = true ∧ e.getLsbD 5 = true) → s.translate b va n = (s, .fault 1)) ∧
      ((n.r = true → e.getLsbD 1 = true) → (n.w = true → e.getLsbD 2 = true) → (n.x = true → e.getLsbD 3 = true) →
        (n.egress = true → e.getLsbD 5 = false) →
        ∃ t, s.translate b va n = (t, .ok (e.toNat / 2 ^ 16 % 2 ^ 32 * 65536 + va.toNat % max (4096 * 2 ^ (e.toNat / 2 ^ 12 % 16)) 65536)) ∧
          t.hbmNat slot 8 = s.hbmNat slot 8 ||| (if n.w then 0x180 else 0x80) ∧
          (∀ a, (a < slot ∨ slot + 8 ≤ a) → t.hbm.read a = s.hbm.read a) ∧ ∃ x ∈ t.tlbOf b, x.maps va = true))) ∧
  (∀ (s : State) (b : Option Nat) (va : W64) (n : Need) (x : TlbEntry), va.toNat < 2 ^ 56 → (s.tlbOf b).find? (fun y => y.maps va) = some x →
    n.allows x.leaf = true →
    (n.w = false ∨ x.leaf.getLsbD 8 = true → s.translate b va n = (s, .ok (x.leaf.toNat / 2 ^ 16 % 2 ^ 32 * 65536 +
      va.toNat % max (4096 * 2 ^ (x.leaf.toNat / 2 ^ 12 % 16)) 65536))) ∧
    (n.w = true → x.leaf.getLsbD 8 = false → ∀ c, s.walk va = .fault c → s.translate b va n = (s, .fault c))) ∧
  (∀ (s : State) (b : Option Nat) (va : W64) (n : Need) (x : TlbEntry), va.toNat < 2 ^ 56 → (s.tlbOf b).find? (fun y => y.maps va) = some x →
    ((n.r = true ∧ x.leaf.getLsbD 1 = false) ∨ (n.w = true ∧ x.leaf.getLsbD 2 = false) ∨ (n.x = true ∧ x.leaf.getLsbD 3 = false) ∨
      (n.egress = true ∧ x.leaf.getLsbD 5 = true)) → s.translate b va n = (s, .fault 1)) ∧
  (∀ (s t : State) (b : Option Nat) (va : W64) (n : Need) (c : Nat), s.translate b va n = (t, .fault c) → c ≤ 2)

/-! ## The machine -/

namespace Sys2Proof.Machine

/-- R32, R35, R88, R110, R324, R372, R424, with the model's agenda (log 1): one step of the agent whose turn it is, where it may issue, fetches the bytes at its pc, and is exec of the
instruction that they decode to, which takes the agent's issue slot of the clock. A scalar stream and a service core fetch four bytes, a lane stream a code within its clause, a
Halyard context eight; an engine takes the command that its queue starts next. A word that is no instruction is the illegal-instruction trap, and a code that would run past its
clause's end the illegal-clause trap. An event is exec of itself. -/
def stepDecodes : Prop :=
  (∀ (s u t : State) (g sp : Nat) (bs : List Byte), s.takesTurn (.scalar g sp) u → u.scalarMay g sp = true → (u.split g sp).spc.toNat % 4 = 0 →
    u.fetchHalves (some (u.grp g).core) (u.split g sp).spc 2 = (t, .ok bs) →
    (∀ i, decodeScalar (BitVec.ofNat 32 (numAt bs 0 4)) = .ok i → step s = exec i (t.takeSlot i (.scalar g sp))) ∧
    (∀ e, decodeScalar (BitVec.ofNat 32 (numAt bs 0 4)) = .error e → step s = .next (t.takeTrap 0x10 0 0))) ∧
  (∀ (s u t : State) (k : Nat) (bs : List Byte), s.takesTurn (.service k) u → (u.svc k).halted = false → (u.svc k).pc.toNat % 4 = 0 →
    u.fetchHalves none (u.svc k).pc 2 = (t, .ok bs) →
    (∀ i, decodeScalar (BitVec.ofNat 32 (numAt bs 0 4)) = .ok i → step s = exec i t) ∧
    (∀ e, decodeScalar (BitVec.ofNat 32 (numAt bs 0 4)) = .error e → step s = .next (t.takeTrap 0x10 0 0))) ∧
  (∀ (s u t : State) (g sp : Nat) (h : Bool) (r : Running), s.takesTurn (.lane g sp) u → u.laneIssues g sp = true →
    (u.split g sp).issuing = some (h, r) →
    (∀ bs i, u.fetchCode (u.grp g).core (r.addr + BitVec.ofNat 64 (2 * r.off)) (r.len - r.off) = (t, some (.ok bs)) →
      decodeLane (laneCodeOf bs) = .ok i → step s = exec i (({ t with fetchLen := bs.length } : State).takeSlot i (.lane g sp))) ∧
    (u.fetchCode (u.grp g).core (r.addr + BitVec.ofNat 64 (2 * r.off)) (r.len - r.off) = (t, none) → step s = .next (t.takeTrap 0x11 0 0))) ∧
  (∀ (s u t : State) (c x : Nat) (bs : List Byte) (i : Instr), s.takesTurn (.halyard c x) u → (u.hal c x).running = true →
    (u.hal c x).parked = false → (u.core c).halted = false → u.fetchHalves (some c) (u.hal c x).pc 4 = (t, .ok bs) →
    decodeHalyard (BitVec.ofNat 64 (numAt bs 0 8)) = .ok i → step s = exec i (t.takeSlot i (.halyard c x))) ∧
  (∀ (s u : State) (c q : Nat) (m : Cmd), s.takesTurn (.engine c q) u → (u.core c).halted = false → nextCmd (u.queue c q) = some m →
    step s = exec m.row u) ∧
  (∀ (s t : State) (i : Instr), s.nextTurn = (some (.event i), t) → step s = exec i { t with cur := .device }) ∧
  (∀ (s t : State) (x : Upset), s.nextTurn = (some (.upset x), t) → step s = .next (t.upset x))

/-- R46, R47, R353, R360, R372, R443, R448, with the model's agenda (log 1, log 94): what a step may be. A choice whose place in the order of its clock has passed is none, and one
that has no place is taken as it stands. In a clock a sector issues one scalar word, a 64-lane group's lane instruction takes two cycles, and an older Active group of the
sector that can issue goes first; a core's Halyard issues one word, of the next context in turn that can (log 99: which is the first after reset). When time passes the clock ends, TIME and the clock go on, and each core's CYCLE
counts its island's own clock; an offset of TIME slews by 500 ppm, the rest carried (log 35). Many clocks pass one after the other. -/
def stepOrder : Prop :=
  (List.range 7).map pointClock = [100, 92, 83, 75, 67, 54, 42] ∧
  (∀ (s : State) (x : Turn) (rest : List Turn), s.turns = x :: rest → s.heldInReset = false →
    (({ s with turns := rest } : State).rankOf x = none → s.nextTurn = (some x, { s with turns := rest })) ∧
    (∀ r, ({ s with turns := rest } : State).rankOf x = some r → rankLe s.phase r = false → step s = .next { s with turns := rest })) ∧
  (∀ (s : State) (g sp : Nat),
    (s.clock < (s.sector (s.grp g).core (s.grp g).sector).scalarFree → s.mayIssue (.scalar g sp) = false) ∧
    (s.clock < (s.sector (s.grp g).core (s.grp g).sector).laneFree → s.mayIssue (.lane g sp) = false) ∧
    ((s.slotTaken (.scalar g sp)).sector (s.grp g).core (s.grp g).sector).scalarFree = s.clock + 1 ∧
    ((s.slotTaken (.lane g sp)).sector (s.grp g).core (s.grp g).sector).laneFree = s.clock + (if (s.grp g).desc.w = 64 then 2 else 1)) ∧
  (∀ (s : State) (g h sp k : Nat), (s.grp g).st = .active → (s.grp h).st = .active → (h, s.grp h) ∈ s.groups → (s.grp h).core = (s.grp g).core →
    (s.grp h).sector = (s.grp g).sector → ((s.grp h).age < (s.grp g).age ∨ (s.grp h).age = (s.grp g).age ∧ (s.grp h).gid < (s.grp g).gid) →
    (s.canGo (.scalar h (s.grp h).cur) = true → s.mayIssue (.scalar g sp) = false) ∧
    (k < 4 → s.canGo (.lane h k) = true → s.mayIssue (.lane g sp) = false)) ∧
  (∀ (s : State) (c x y : Nat), x < 8 → y < 8 →
    (s.clock < (s.core c).halFree → s.mayIssue (.halyard c x) = false) ∧
    ((y + 7 * ((s.core c).halLast + 1)) % 8 < (x + 7 * ((s.core c).halLast + 1)) % 8 → s.canGo (.halyard c y) = true →
      s.mayIssue (.halyard c x) = false) ∧
    ((s.slotTaken (.halyard c x)).core c).halFree = s.clock + 1 ∧ ((s.slotTaken (.halyard c x)).core c).halLast = x) ∧
  (∀ (s t e : State) (c n : Nat), s.nextTurn = (some (.elapse c n), t) → c ≤ 1 → e = (if c = 0 then t else t.endClock) → e.slew = 0 →
    ∃ v, step s = .next v ∧ v.clock = e.clock + c ∧ v.time = e.time + n ∧ (∀ g, v.grp g = e.grp g) ∧ e.sameBytes v ∧
      (∀ k, k < 192 → (v.core k).cycle = (e.core k).cycle + BitVec.ofNat 64
        (((e.core k).cycleRem + c * pointClock (e.island (k / 96 * 8 + k % 96 / 8 / 3 * 2 + k % 8 / 4)).point) / 100)) ∧
      (e.slewRem = 0 → v.slew = 0)) ∧
  (∀ (s t e : State) (c n : Nat), s.nextTurn = (some (.elapse c n), t) → c ≤ 1 → e = (if c = 0 then t else t.endClock) → 0 < e.slew →
    ∃ v, step s = .next v ∧ v.time = e.time + n + min ((e.slewRem + n) / 2000) e.slew.toNat ∧
      v.slew = e.slew - min ((e.slewRem + n) / 2000) e.slew.toNat) ∧
  (∀ (s t : State) (c n : Nat), s.nextTurn = (some (.elapse (c + 2) n), t) →
    step s = .next ((t.elapse 1 (n / (c + 2))).elapse (c + 1) (n - n / (c + 2))))

end Sys2Proof.Machine

/-- R32, R35, R46, R47, R88, R110, R324, R360, R372, R424, R443, R448: a step of the machine (log 1: the agenda; log 35: TIME slews by the full 500 ppm, with a carry; log 94: the order of a clock; log 99: the first Halyard context after reset). -/
def Obligations.StepRunsDecoded : Prop := stepDecodes ∧ stepOrder

/-- R89 to R100, R375: words written out from the encoding tables. -/
def Obligations.DecodeWords : Prop :=
  decodeTableWord 32 0x04310500 = some (.add 3 4 5) ∧
  decodeTableWord 16 0x6004 = some (.dictionaryCode 6 1) ∧
  decodeTableWord 16 0x1000 = some (.laneNopL16 1) ∧
  decodeLane (.l32 (BitVec.ofNat 32 (2 ^ 29 * 5 + 2 ^ 22 * 9 + 2 ^ 15 * 8 + 2 ^ 8 * 7 + 4 * 3 + 1))) =
    .ok (.laneAddL32 { msel := 5, b := 9, a := 8, d := 7 }) ∧
  decodeTableWord 64 (2 ^ 60 * 8) = some (.hlEnd { d := 0, a := 0, b := 0, x := 0, y := 0, imm := 0 })

/-- R89 to R100, R323, R372 to R376: decoding and encoding agree. Every well-formed instruction that has a word is read back from it with every
operand, as the row that stands for its word where several rows of the table share one (log 6). -/
def Obligations.EncodeDecode : Prop :=
  ∀ i : Instr, i.wellFormed = true →
    (∀ w, encodeScalar i = some w → decodeScalar w = .ok i.wordRow) ∧
    (∀ c, encodeLane i = some c → decodeLane c = .ok i.wordRow) ∧
    (∀ w, encodeHalyard i = some w → decodeHalyard w = .ok i.wordRow)

/-- Every step keeps the canonical form of every memory: addresses rise, and no zero byte is listed, so that equal memories are equal data. That form
is the model's own choice (log 5). -/
def Obligations.MemoryStaysCanonical : Prop := ∀ s t : State, s.memoryOk = true → step s = .next t → t.memoryOk = true

namespace Sys2Proof.Machine

/-- The invariant holds after reset. -/
def resetMemoryCanonical : Prop := State.reset.memoryOk = true

/-- R76, R231, R304, R349, R353, R387, R424, R440, R442, R444, R447, R448: what reset leaves: memory of zeros with valid check bits, TIME 0, no group, run or record, the fault
queue's next number 1, the bring-up registers and every service core's trap registers 0, barriers at zero, ring slots of B15, a measurement of zeros, ports closed, no device
id, and a cap of 1,800 W. -/
def resetValues : Prop :=
  State.reset.sramOk = true ∧ State.reset.phase = (0, 0, 0) ∧ State.reset.fatals = [] ∧ State.reset.heldInReset = false ∧ State.reset.bootStep = 0 ∧
  (∀ a, State.reset.hbm.read a = 0) ∧ (∀ a n, State.reset.hbmBadIn a n = false) ∧ State.reset.time = 0 ∧ State.reset.groups = [] ∧
  State.reset.runs = [] ∧ State.reset.frecs = [] ∧ State.reset.fqNext = 1 ∧ State.reset.nextRun = 1 ∧ State.reset.journalNext = 1 ∧
  State.reset.journal = [] ∧ State.reset.troot = 0 ∧ State.reset.fqbase = 0 ∧ State.reset.ringsReg = 0 ∧ State.reset.pfxbase = 0 ∧
  State.reset.measure = List.replicate 32 0 ∧ State.reset.portsOpen = false ∧ State.reset.deviceId = none ∧ State.reset.powerCap = 1800 ∧
  (∀ k, (State.reset.svc k).stvec = 0 ∧ (State.reset.svc k).scause = 0 ∧ (State.reset.svc k).sepc = 0 ∧ (State.reset.svc k).sinfo = 0 ∧
    (State.reset.svc k).serr = 0) ∧
  (∀ c, (∀ a, (State.reset.core c).spad.read a = 0) ∧ (∀ n, State.reset.bar c n = Barrier.reset) ∧
    (∀ n, (State.reset.core c).rings.get .b15 n = .b15) ∧ (State.reset.core c).cycle = 0 ∧ (State.reset.core c).gdescs = [])

end Sys2Proof.Machine

/-- R447 and the reset columns of the tables: the state after reset, its memory in canonical form. Every value here is the manual's; the canonical
form is the model's own (log 5). -/
def Obligations.ResetState : Prop := resetMemoryCanonical ∧ resetValues
end

