-- ==== Sys2Proof/Laws/Map.lean ====
section
/-! SUPPORT. Sparse tables and memories: reading after a write, and the canonical form of memory. -/

namespace Sys2Proof.Machine

theorem Map.get_put {α : Type} (m : Map α) (d : α) (k j : Nat) (v : α) : (m.put k v).get d j = if j = k then v else m.get d j := by
  induction m with
  | nil => simp only [Map.put, Map.get]; split_ifs <;> first | rfl | (exfalso; omega)
  | cons p t ih =>
    obtain ⟨i, w⟩ := p
    simp only [Map.put]
    split
    · subst_vars
      simp only [Map.get]
      split_ifs <;> first | rfl | (exfalso; omega)
    · split
      · simp only [Map.get]
        split_ifs <;> first | rfl | (exfalso; omega)
      · simp only [Map.get, ih]
        split_ifs <;> first | rfl | (exfalso; omega)

theorem Map.find_put {α : Type} (m : Map α) (k j : Nat) (v : α) : (m.put k v).find j = if j = k then some v else m.find j := by
  induction m with
  | nil => simp only [Map.put, Map.find]; split_ifs <;> first | rfl | (exfalso; omega)
  | cons p t ih =>
    obtain ⟨i, w⟩ := p
    simp only [Map.put]
    split
    · subst_vars
      simp only [Map.find]
      split_ifs <;> first | rfl | (exfalso; omega)
    · split
      · simp only [Map.find]
        split_ifs <;> first | rfl | (exfalso; omega)
      · simp only [Map.find, ih]
        split_ifs <;> first | rfl | (exfalso; omega)

theorem Map.find_erase {α : Type} (m : Map α) (k j : Nat) : (m.erase k).find j = if j = k then none else m.find j := by
  induction m with
  | nil => simp [Map.erase, Map.find]
  | cons p t ih =>
    obtain ⟨i, w⟩ := p
    simp only [Map.erase] at ih
    by_cases h : i = k
    · simp only [Map.erase, Map.find, h, List.filter_cons, bne_self_eq_false, Bool.false_eq_true, if_false, ih]
      split_ifs <;> first | rfl | (exfalso; omega)
    · simp only [Map.erase, Map.find, List.filter_cons, bne_iff_ne, ne_eq, h, not_false_eq_true, if_true, ih]
      split_ifs <;> first | rfl | (exfalso; omega)

theorem Map.put_put {α : Type} (m : Map α) (k : Nat) (v w : α) : (m.put k v).put k w = m.put k w := by
  induction m with
  | nil => simp [Map.put]
  | cons p t ih =>
    obtain ⟨i, u⟩ := p
    by_cases h1 : i = k
    · simp [Map.put, h1]
    · by_cases h2 : k < i
      · simp [Map.put, h1, h2]
      · simp [Map.put, h1, h2, ih]

/-! Memory. -/

/-- A memory whose addresses are all at or above `lo` reads as 0 below it. -/
theorem Memory.read_below (m : Memory) (lo a : Nat) (h : m.wfFrom lo = true) (ha : a < lo) : m.read a = 0 := by
  induction m generalizing lo with
  | nil => rfl
  | cons p t ih =>
    obtain ⟨i, v⟩ := p
    simp only [Memory.wfFrom, Bool.and_eq_true, decide_eq_true_eq, bne_iff_ne] at h
    rw [Memory.read, if_neg (by omega)]
    exact ih (i + 1) h.2 (by omega)

theorem Memory.wfFrom_mono (m : Memory) (lo lo' : Nat) (h : m.wfFrom lo = true) (hl : lo' ≤ lo) : m.wfFrom lo' = true := by
  cases m with
  | nil => rfl
  | cons p t =>
    obtain ⟨i, v⟩ := p
    simp only [Memory.wfFrom, Bool.and_eq_true, decide_eq_true_eq] at h ⊢
    exact ⟨⟨by omega, h.1.2⟩, h.2⟩

/-- A write keeps the canonical form. -/
theorem Memory.write_wfFrom (m : Memory) (lo a : Nat) (b : Byte) (h : m.wfFrom lo = true) (ha : lo ≤ a) :
    (m.write a b).wfFrom lo = true := by
  induction m generalizing lo with
  | nil =>
    simp only [Memory.write]
    split
    · rfl
    · simp_all [Memory.wfFrom]
  | cons p t ih =>
    obtain ⟨i, v⟩ := p
    simp only [Memory.wfFrom, Bool.and_eq_true, decide_eq_true_eq, bne_iff_ne] at h
    simp only [Memory.write]
    split_ifs with h1 h2 h3 h4
    · exact Memory.wfFrom_mono t (i + 1) lo h.2 (by omega)
    · subst h1
      simp_all [Memory.wfFrom]
    · simp_all [Memory.wfFrom]
    · have := Memory.wfFrom_mono t (i + 1) (i + 1) h.2 (by omega)
      simp_all [Memory.wfFrom]
    · have := ih (i + 1) h.2 (by omega)
      simp_all [Memory.wfFrom]

theorem Memory.write_wf (m : Memory) (a : Nat) (b : Byte) (h : m.wf = true) : (m.write a b).wf = true :=
  Memory.write_wfFrom m 0 a b h (Nat.zero_le a)

theorem Memory.writeN_wf (m : Memory) (a : Nat) (bs : List Byte) (h : m.wf = true) : (m.writeN a bs).wf = true := by
  induction bs generalizing m a with
  | nil => exact h
  | cons b t ih => exact ih (m.write a b) (a + 1) (Memory.write_wf m a b h)

/-- Reading after a write of one byte. -/
theorem Memory.read_write_from (m : Memory) (lo a c : Nat) (b : Byte) (h : m.wfFrom lo = true) :
    (m.write a b).read c = if c = a then b else m.read c := by
  induction m generalizing lo with
  | nil =>
    simp only [Memory.write]
    split_ifs <;> simp only [Memory.read] <;> (try split_ifs) <;> simp_all
  | cons p t ih =>
    obtain ⟨i, v⟩ := p
    simp only [Memory.wfFrom, Bool.and_eq_true, decide_eq_true_eq, bne_iff_ne] at h
    simp only [Memory.write]
    by_cases hi : i = a
    · subst hi
      rw [if_pos rfl]
      by_cases hb : b = 0
      · rw [if_pos hb]
        by_cases hc : c = i
        · subst hc
          rw [if_pos rfl, hb, Memory.read_below t (c + 1) c h.2 (by omega)]
        · rw [if_neg hc, Memory.read, if_neg (Ne.symm hc)]
      · rw [if_neg hb]
        simp only [Memory.read]
        by_cases hc : c = i
        · rw [if_pos hc, if_pos hc.symm]
        · rw [if_neg hc, if_neg (Ne.symm hc), if_neg (Ne.symm hc)]
    · rw [if_neg hi]
      by_cases hl : a < i
      · rw [if_pos hl]
        by_cases hb : b = 0
        · rw [if_pos hb]
          by_cases hc : c = a
          · subst hc
            rw [if_pos rfl, hb]
            exact Memory.read_below ((i, v) :: t) i c (by
              simp only [Memory.wfFrom, Bool.and_eq_true, decide_eq_true_eq, bne_iff_ne]
              exact ⟨⟨Nat.le_refl _, h.1.2⟩, h.2⟩) hl
          · rw [if_neg hc]
        · rw [if_neg hb]
          by_cases hc : c = a
          · subst hc
            simp [Memory.read]
          · rw [if_neg hc, Memory.read, if_neg (Ne.symm hc)]
      · rw [if_neg hl]
        simp only [Memory.read, ih (i + 1) h.2]
        split_ifs <;> simp_all

theorem Memory.read_write (m : Memory) (a c : Nat) (b : Byte) (h : m.wf = true) :
    (m.write a b).read c = if c = a then b else m.read c := Memory.read_write_from m 0 a c b h

/-- Reading after a write of several bytes. -/
theorem Memory.read_writeN (m : Memory) (a c : Nat) (bs : List Byte) (h : m.wf = true) :
    (m.writeN a bs).read c = if a ≤ c ∧ c < a + bs.length then bs.getD (c - a) 0 else m.read c := by
  induction bs generalizing m a with
  | nil => simp [Memory.writeN]
  | cons b t ih =>
    rw [Memory.writeN, ih (m.write a b) (a + 1) (Memory.write_wf m a b h), Memory.read_write m a c b h]
    simp only [List.length_cons]
    by_cases h1 : c = a
    · subst h1
      simp
    · by_cases h2 : a + 1 ≤ c ∧ c < a + 1 + t.length
      · rw [if_pos h2, if_pos ⟨by omega, by omega⟩]
        have : c - a = (c - (a + 1)) + 1 := by omega
        rw [this, List.getD_cons_succ]
      · rw [if_neg h2, if_neg h1, if_neg (by omega)]

end Sys2Proof.Machine
end

