-- ==== Sys2Proof/Laws/State.lean ====
section
/-! SUPPORT. What each update of State leaves alone, field by field, and what the accessors read after it. -/

namespace Sys2Proof.Machine

@[simp] theorem State.setGrp_cur (s : State) (g : Nat) (x : Group) : (s.setGrp g x).cur = s.cur := rfl
@[simp] theorem State.setGrp_fetchLen (s : State) (g : Nat) (x : Group) : (s.setGrp g x).fetchLen = s.fetchLen := rfl
@[simp] theorem State.setGrp_turns (s : State) (g : Nat) (x : Group) : (s.setGrp g x).turns = s.turns := rfl
@[simp] theorem State.setGrp_turnNo (s : State) (g : Nat) (x : Group) : (s.setGrp g x).turnNo = s.turnNo := rfl
@[simp] theorem State.setGrp_freeNo (s : State) (g : Nat) (x : Group) : (s.setGrp g x).freeNo = s.freeNo := rfl
@[simp] theorem State.setGrp_clock (s : State) (g : Nat) (x : Group) : (s.setGrp g x).clock = s.clock := rfl
@[simp] theorem State.setGrp_phase (s : State) (g : Nat) (x : Group) : (s.setGrp g x).phase = s.phase := rfl
@[simp] theorem State.setGrp_fatals (s : State) (g : Nat) (x : Group) : (s.setGrp g x).fatals = s.fatals := rfl
@[simp] theorem State.setGrp_binsDue (s : State) (g : Nat) (x : Group) : (s.setGrp g x).binsDue = s.binsDue := rfl
@[simp] theorem State.setGrp_blocked (s : State) (g : Nat) (x : Group) : (s.setGrp g x).blocked = s.blocked := rfl
@[simp] theorem State.setGrp_again (s : State) (g : Nat) (x : Group) : (s.setGrp g x).again = s.again := rfl
@[simp] theorem State.setGrp_read (s : State) (g : Nat) (x : Group) : (s.setGrp g x).read = s.read := rfl
@[simp] theorem State.setGrp_pfxLine (s : State) (g : Nat) (x : Group) : (s.setGrp g x).pfxLine = s.pfxLine := rfl
@[simp] theorem State.setGrp_slewRem (s : State) (g : Nat) (x : Group) : (s.setGrp g x).slewRem = s.slewRem := rfl
@[simp] theorem State.setGrp_identity (s : State) (g : Nat) (x : Group) : (s.setGrp g x).identity = s.identity := rfl
@[simp] theorem State.setGrp_planNext (s : State) (g : Nat) (x : Group) : (s.setGrp g x).planNext = s.planNext := rfl
@[simp] theorem State.setGrp_journalAt (s : State) (g : Nat) (x : Group) : (s.setGrp g x).journalAt = s.journalAt := rfl
@[simp] theorem State.setGrp_nextFrame (s : State) (g : Nat) (x : Group) : (s.setGrp g x).nextFrame = s.nextFrame := rfl
@[simp] theorem State.setGrp_nextGroup (s : State) (g : Nat) (x : Group) : (s.setGrp g x).nextGroup = s.nextGroup := rfl
@[simp] theorem State.setGrp_nextTeam (s : State) (g : Nat) (x : Group) : (s.setGrp g x).nextTeam = s.nextTeam := rfl
@[simp] theorem State.setGrp_nextLaunch (s : State) (g : Nat) (x : Group) : (s.setGrp g x).nextLaunch = s.nextLaunch := rfl
@[simp] theorem State.setGrp_nextId (s : State) (g : Nat) (x : Group) : (s.setGrp g x).nextId = s.nextId := rfl
@[simp] theorem State.setGrp_hbm (s : State) (g : Nat) (x : Group) : (s.setGrp g x).hbm = s.hbm := rfl
@[simp] theorem State.setGrp_hbmBad (s : State) (g : Nat) (x : Group) : (s.setGrp g x).hbmBad = s.hbmBad := rfl
@[simp] theorem State.setGrp_time (s : State) (g : Nat) (x : Group) : (s.setGrp g x).time = s.time := rfl
@[simp] theorem State.setGrp_slew (s : State) (g : Nat) (x : Group) : (s.setGrp g x).slew = s.slew := rfl
@[simp] theorem State.setGrp_bootStep (s : State) (g : Nat) (x : Group) : (s.setGrp g x).bootStep = s.bootStep := rfl
@[simp] theorem State.setGrp_bootHalted (s : State) (g : Nat) (x : Group) : (s.setGrp g x).bootHalted = s.bootHalted := rfl
@[simp] theorem State.setGrp_portsOpen (s : State) (g : Nat) (x : Group) : (s.setGrp g x).portsOpen = s.portsOpen := rfl
@[simp] theorem State.setGrp_heldInReset (s : State) (g : Nat) (x : Group) : (s.setGrp g x).heldInReset = s.heldInReset := rfl
@[simp] theorem State.setGrp_measure (s : State) (g : Nat) (x : Group) : (s.setGrp g x).measure = s.measure := rfl
@[simp] theorem State.setGrp_troot (s : State) (g : Nat) (x : Group) : (s.setGrp g x).troot = s.troot := rfl
@[simp] theorem State.setGrp_fqbase (s : State) (g : Nat) (x : Group) : (s.setGrp g x).fqbase = s.fqbase := rfl
@[simp] theorem State.setGrp_ringsReg (s : State) (g : Nat) (x : Group) : (s.setGrp g x).ringsReg = s.ringsReg := rfl
@[simp] theorem State.setGrp_pfxbase (s : State) (g : Nat) (x : Group) : (s.setGrp g x).pfxbase = s.pfxbase := rfl
@[simp] theorem State.setGrp_wpaddr (s : State) (g : Nat) (x : Group) : (s.setGrp g x).wpaddr = s.wpaddr := rfl
@[simp] theorem State.setGrp_ringDescs (s : State) (g : Nat) (x : Group) : (s.setGrp g x).ringDescs = s.ringDescs := rfl
@[simp] theorem State.setGrp_reports (s : State) (g : Nat) (x : Group) : (s.setGrp g x).reports = s.reports := rfl
@[simp] theorem State.setGrp_dropped (s : State) (g : Nat) (x : Group) : (s.setGrp g x).dropped = s.dropped := rfl
@[simp] theorem State.setGrp_wprogs (s : State) (g : Nat) (x : Group) : (s.setGrp g x).wprogs = s.wprogs := rfl
@[simp] theorem State.setGrp_models (s : State) (g : Nat) (x : Group) : (s.setGrp g x).models = s.models := rfl
@[simp] theorem State.setGrp_ioTlb (s : State) (g : Nat) (x : Group) : (s.setGrp g x).ioTlb = s.ioTlb := rfl
@[simp] theorem State.setGrp_fqNext (s : State) (g : Nat) (x : Group) : (s.setGrp g x).fqNext = s.fqNext := rfl
@[simp] theorem State.setGrp_frecs (s : State) (g : Nat) (x : Group) : (s.setGrp g x).frecs = s.frecs := rfl
@[simp] theorem State.setGrp_cores (s : State) (g : Nat) (x : Group) : (s.setGrp g x).cores = s.cores := rfl
@[simp] theorem State.setGrp_services (s : State) (g : Nat) (x : Group) : (s.setGrp g x).services = s.services := rfl
@[simp] theorem State.setGrp_teams (s : State) (g : Nat) (x : Group) : (s.setGrp g x).teams = s.teams := rfl
@[simp] theorem State.setGrp_launches (s : State) (g : Nat) (x : Group) : (s.setGrp g x).launches = s.launches := rfl
@[simp] theorem State.setGrp_graphs (s : State) (g : Nat) (x : Group) : (s.setGrp g x).graphs = s.graphs := rfl
@[simp] theorem State.setGrp_runs (s : State) (g : Nat) (x : Group) : (s.setGrp g x).runs = s.runs := rfl
@[simp] theorem State.setGrp_nextRun (s : State) (g : Nat) (x : Group) : (s.setGrp g x).nextRun = s.nextRun := rfl
@[simp] theorem State.setGrp_nextNamed (s : State) (g : Nat) (x : Group) : (s.setGrp g x).nextNamed = s.nextNamed := rfl
@[simp] theorem State.setGrp_placeQ (s : State) (g : Nat) (x : Group) : (s.setGrp g x).placeQ = s.placeQ := rfl
@[simp] theorem State.setGrp_launchSeq (s : State) (g : Nat) (x : Group) : (s.setGrp g x).launchSeq = s.launchSeq := rfl
@[simp] theorem State.setGrp_sailPeriod (s : State) (g : Nat) (x : Group) : (s.setGrp g x).sailPeriod = s.sailPeriod := rfl
@[simp] theorem State.setGrp_sailEpoch (s : State) (g : Nat) (x : Group) : (s.setGrp g x).sailEpoch = s.sailEpoch := rfl
@[simp] theorem State.setGrp_sailFrom (s : State) (g : Nat) (x : Group) : (s.setGrp g x).sailFrom = s.sailFrom := rfl
@[simp] theorem State.setGrp_sail (s : State) (g : Nat) (x : Group) : (s.setGrp g x).sail = s.sail := rfl
@[simp] theorem State.setGrp_firingNo (s : State) (g : Nat) (x : Group) : (s.setGrp g x).firingNo = s.firingNo := rfl
@[simp] theorem State.setGrp_calls (s : State) (g : Nat) (x : Group) : (s.setGrp g x).calls = s.calls := rfl
@[simp] theorem State.setGrp_links (s : State) (g : Nat) (x : Group) : (s.setGrp g x).links = s.links := rfl
@[simp] theorem State.setGrp_deviceId (s : State) (g : Nat) (x : Group) : (s.setGrp g x).deviceId = s.deviceId := rfl
@[simp] theorem State.setGrp_portsUp (s : State) (g : Nat) (x : Group) : (s.setGrp g x).portsUp = s.portsUp := rfl
@[simp] theorem State.setGrp_islands (s : State) (g : Nat) (x : Group) : (s.setGrp g x).islands = s.islands := rfl
@[simp] theorem State.setGrp_powerCap (s : State) (g : Nat) (x : Group) : (s.setGrp g x).powerCap = s.powerCap := rfl
@[simp] theorem State.setGrp_powers (s : State) (g : Nat) (x : Group) : (s.setGrp g x).powers = s.powers := rfl
@[simp] theorem State.setGrp_journal (s : State) (g : Nat) (x : Group) : (s.setGrp g x).journal = s.journal := rfl
@[simp] theorem State.setGrp_journalNext (s : State) (g : Nat) (x : Group) : (s.setGrp g x).journalNext = s.journalNext := rfl
@[simp] theorem State.setGrp_replay (s : State) (g : Nat) (x : Group) : (s.setGrp g x).replay = s.replay := rfl
@[simp] theorem State.setGrp_sequences (s : State) (g : Nat) (x : Group) : (s.setGrp g x).sequences = s.sequences := rfl
@[simp] theorem State.setGrp_nextHandle (s : State) (g : Nat) (x : Group) : (s.setGrp g x).nextHandle = s.nextHandle := rfl
@[simp] theorem State.setGrp_replies (s : State) (g : Nat) (x : Group) : (s.setGrp g x).replies = s.replies := rfl
@[simp] theorem State.setGrp_fleetOut (s : State) (g : Nat) (x : Group) : (s.setGrp g x).fleetOut = s.fleetOut := rfl
@[simp] theorem State.setGrp_svcMaps (s : State) (g : Nat) (x : Group) : (s.setGrp g x).svcMaps = s.svcMaps := rfl
@[simp] theorem State.setGrp_corrected (s : State) (g : Nat) (x : Group) : (s.setGrp g x).corrected = s.corrected := rfl

@[simp] theorem State.modGrp_cur (s : State) (g : Nat) (f : Group → Group) : (s.modGrp g f).cur = s.cur := rfl
@[simp] theorem State.modGrp_fetchLen (s : State) (g : Nat) (f : Group → Group) : (s.modGrp g f).fetchLen = s.fetchLen := rfl
@[simp] theorem State.modGrp_turns (s : State) (g : Nat) (f : Group → Group) : (s.modGrp g f).turns = s.turns := rfl
@[simp] theorem State.modGrp_turnNo (s : State) (g : Nat) (f : Group → Group) : (s.modGrp g f).turnNo = s.turnNo := rfl
@[simp] theorem State.modGrp_freeNo (s : State) (g : Nat) (f : Group → Group) : (s.modGrp g f).freeNo = s.freeNo := rfl
@[simp] theorem State.modGrp_clock (s : State) (g : Nat) (f : Group → Group) : (s.modGrp g f).clock = s.clock := rfl
@[simp] theorem State.modGrp_phase (s : State) (g : Nat) (f : Group → Group) : (s.modGrp g f).phase = s.phase := rfl
@[simp] theorem State.modGrp_fatals (s : State) (g : Nat) (f : Group → Group) : (s.modGrp g f).fatals = s.fatals := rfl
@[simp] theorem State.modGrp_binsDue (s : State) (g : Nat) (f : Group → Group) : (s.modGrp g f).binsDue = s.binsDue := rfl
@[simp] theorem State.modGrp_blocked (s : State) (g : Nat) (f : Group → Group) : (s.modGrp g f).blocked = s.blocked := rfl
@[simp] theorem State.modGrp_again (s : State) (g : Nat) (f : Group → Group) : (s.modGrp g f).again = s.again := rfl
@[simp] theorem State.modGrp_read (s : State) (g : Nat) (f : Group → Group) : (s.modGrp g f).read = s.read := rfl
@[simp] theorem State.modGrp_pfxLine (s : State) (g : Nat) (f : Group → Group) : (s.modGrp g f).pfxLine = s.pfxLine := rfl
@[simp] theorem State.modGrp_slewRem (s : State) (g : Nat) (f : Group → Group) : (s.modGrp g f).slewRem = s.slewRem := rfl
@[simp] theorem State.modGrp_identity (s : State) (g : Nat) (f : Group → Group) : (s.modGrp g f).identity = s.identity := rfl
@[simp] theorem State.modGrp_planNext (s : State) (g : Nat) (f : Group → Group) : (s.modGrp g f).planNext = s.planNext := rfl
@[simp] theorem State.modGrp_journalAt (s : State) (g : Nat) (f : Group → Group) : (s.modGrp g f).journalAt = s.journalAt := rfl
@[simp] theorem State.modGrp_nextFrame (s : State) (g : Nat) (f : Group → Group) : (s.modGrp g f).nextFrame = s.nextFrame := rfl
@[simp] theorem State.modGrp_nextGroup (s : State) (g : Nat) (f : Group → Group) : (s.modGrp g f).nextGroup = s.nextGroup := rfl
@[simp] theorem State.modGrp_nextTeam (s : State) (g : Nat) (f : Group → Group) : (s.modGrp g f).nextTeam = s.nextTeam := rfl
@[simp] theorem State.modGrp_nextLaunch (s : State) (g : Nat) (f : Group → Group) : (s.modGrp g f).nextLaunch = s.nextLaunch := rfl
@[simp] theorem State.modGrp_nextId (s : State) (g : Nat) (f : Group → Group) : (s.modGrp g f).nextId = s.nextId := rfl
@[simp] theorem State.modGrp_hbm (s : State) (g : Nat) (f : Group → Group) : (s.modGrp g f).hbm = s.hbm := rfl
@[simp] theorem State.modGrp_hbmBad (s : State) (g : Nat) (f : Group → Group) : (s.modGrp g f).hbmBad = s.hbmBad := rfl
@[simp] theorem State.modGrp_time (s : State) (g : Nat) (f : Group → Group) : (s.modGrp g f).time = s.time := rfl
@[simp] theorem State.modGrp_slew (s : State) (g : Nat) (f : Group → Group) : (s.modGrp g f).slew = s.slew := rfl
@[simp] theorem State.modGrp_bootStep (s : State) (g : Nat) (f : Group → Group) : (s.modGrp g f).bootStep = s.bootStep := rfl
@[simp] theorem State.modGrp_bootHalted (s : State) (g : Nat) (f : Group → Group) : (s.modGrp g f).bootHalted = s.bootHalted := rfl
@[simp] theorem State.modGrp_portsOpen (s : State) (g : Nat) (f : Group → Group) : (s.modGrp g f).portsOpen = s.portsOpen := rfl
@[simp] theorem State.modGrp_heldInReset (s : State) (g : Nat) (f : Group → Group) : (s.modGrp g f).heldInReset = s.heldInReset := rfl
@[simp] theorem State.modGrp_measure (s : State) (g : Nat) (f : Group → Group) : (s.modGrp g f).measure = s.measure := rfl
@[simp] theorem State.modGrp_troot (s : State) (g : Nat) (f : Group → Group) : (s.modGrp g f).troot = s.troot := rfl
@[simp] theorem State.modGrp_fqbase (s : State) (g : Nat) (f : Group → Group) : (s.modGrp g f).fqbase = s.fqbase := rfl
@[simp] theorem State.modGrp_ringsReg (s : State) (g : Nat) (f : Group → Group) : (s.modGrp g f).ringsReg = s.ringsReg := rfl
@[simp] theorem State.modGrp_pfxbase (s : State) (g : Nat) (f : Group → Group) : (s.modGrp g f).pfxbase = s.pfxbase := rfl
@[simp] theorem State.modGrp_wpaddr (s : State) (g : Nat) (f : Group → Group) : (s.modGrp g f).wpaddr = s.wpaddr := rfl
@[simp] theorem State.modGrp_ringDescs (s : State) (g : Nat) (f : Group → Group) : (s.modGrp g f).ringDescs = s.ringDescs := rfl
@[simp] theorem State.modGrp_reports (s : State) (g : Nat) (f : Group → Group) : (s.modGrp g f).reports = s.reports := rfl
@[simp] theorem State.modGrp_dropped (s : State) (g : Nat) (f : Group → Group) : (s.modGrp g f).dropped = s.dropped := rfl
@[simp] theorem State.modGrp_wprogs (s : State) (g : Nat) (f : Group → Group) : (s.modGrp g f).wprogs = s.wprogs := rfl
@[simp] theorem State.modGrp_models (s : State) (g : Nat) (f : Group → Group) : (s.modGrp g f).models = s.models := rfl
@[simp] theorem State.modGrp_ioTlb (s : State) (g : Nat) (f : Group → Group) : (s.modGrp g f).ioTlb = s.ioTlb := rfl
@[simp] theorem State.modGrp_fqNext (s : State) (g : Nat) (f : Group → Group) : (s.modGrp g f).fqNext = s.fqNext := rfl
@[simp] theorem State.modGrp_frecs (s : State) (g : Nat) (f : Group → Group) : (s.modGrp g f).frecs = s.frecs := rfl
@[simp] theorem State.modGrp_cores (s : State) (g : Nat) (f : Group → Group) : (s.modGrp g f).cores = s.cores := rfl
@[simp] theorem State.modGrp_services (s : State) (g : Nat) (f : Group → Group) : (s.modGrp g f).services = s.services := rfl
@[simp] theorem State.modGrp_teams (s : State) (g : Nat) (f : Group → Group) : (s.modGrp g f).teams = s.teams := rfl
@[simp] theorem State.modGrp_launches (s : State) (g : Nat) (f : Group → Group) : (s.modGrp g f).launches = s.launches := rfl
@[simp] theorem State.modGrp_graphs (s : State) (g : Nat) (f : Group → Group) : (s.modGrp g f).graphs = s.graphs := rfl
@[simp] theorem State.modGrp_runs (s : State) (g : Nat) (f : Group → Group) : (s.modGrp g f).runs = s.runs := rfl
@[simp] theorem State.modGrp_nextRun (s : State) (g : Nat) (f : Group → Group) : (s.modGrp g f).nextRun = s.nextRun := rfl
@[simp] theorem State.modGrp_nextNamed (s : State) (g : Nat) (f : Group → Group) : (s.modGrp g f).nextNamed = s.nextNamed := rfl
@[simp] theorem State.modGrp_placeQ (s : State) (g : Nat) (f : Group → Group) : (s.modGrp g f).placeQ = s.placeQ := rfl
@[simp] theorem State.modGrp_launchSeq (s : State) (g : Nat) (f : Group → Group) : (s.modGrp g f).launchSeq = s.launchSeq := rfl
@[simp] theorem State.modGrp_sailPeriod (s : State) (g : Nat) (f : Group → Group) : (s.modGrp g f).sailPeriod = s.sailPeriod := rfl
@[simp] theorem State.modGrp_sailEpoch (s : State) (g : Nat) (f : Group → Group) : (s.modGrp g f).sailEpoch = s.sailEpoch := rfl
@[simp] theorem State.modGrp_sailFrom (s : State) (g : Nat) (f : Group → Group) : (s.modGrp g f).sailFrom = s.sailFrom := rfl
@[simp] theorem State.modGrp_sail (s : State) (g : Nat) (f : Group → Group) : (s.modGrp g f).sail = s.sail := rfl
@[simp] theorem State.modGrp_firingNo (s : State) (g : Nat) (f : Group → Group) : (s.modGrp g f).firingNo = s.firingNo := rfl
@[simp] theorem State.modGrp_calls (s : State) (g : Nat) (f : Group → Group) : (s.modGrp g f).calls = s.calls := rfl
@[simp] theorem State.modGrp_links (s : State) (g : Nat) (f : Group → Group) : (s.modGrp g f).links = s.links := rfl
@[simp] theorem State.modGrp_deviceId (s : State) (g : Nat) (f : Group → Group) : (s.modGrp g f).deviceId = s.deviceId := rfl
@[simp] theorem State.modGrp_portsUp (s : State) (g : Nat) (f : Group → Group) : (s.modGrp g f).portsUp = s.portsUp := rfl
@[simp] theorem State.modGrp_islands (s : State) (g : Nat) (f : Group → Group) : (s.modGrp g f).islands = s.islands := rfl
@[simp] theorem State.modGrp_powerCap (s : State) (g : Nat) (f : Group → Group) : (s.modGrp g f).powerCap = s.powerCap := rfl
@[simp] theorem State.modGrp_powers (s : State) (g : Nat) (f : Group → Group) : (s.modGrp g f).powers = s.powers := rfl
@[simp] theorem State.modGrp_journal (s : State) (g : Nat) (f : Group → Group) : (s.modGrp g f).journal = s.journal := rfl
@[simp] theorem State.modGrp_journalNext (s : State) (g : Nat) (f : Group → Group) : (s.modGrp g f).journalNext = s.journalNext := rfl
@[simp] theorem State.modGrp_replay (s : State) (g : Nat) (f : Group → Group) : (s.modGrp g f).replay = s.replay := rfl
@[simp] theorem State.modGrp_sequences (s : State) (g : Nat) (f : Group → Group) : (s.modGrp g f).sequences = s.sequences := rfl
@[simp] theorem State.modGrp_nextHandle (s : State) (g : Nat) (f : Group → Group) : (s.modGrp g f).nextHandle = s.nextHandle := rfl
@[simp] theorem State.modGrp_replies (s : State) (g : Nat) (f : Group → Group) : (s.modGrp g f).replies = s.replies := rfl
@[simp] theorem State.modGrp_fleetOut (s : State) (g : Nat) (f : Group → Group) : (s.modGrp g f).fleetOut = s.fleetOut := rfl
@[simp] theorem State.modGrp_svcMaps (s : State) (g : Nat) (f : Group → Group) : (s.modGrp g f).svcMaps = s.svcMaps := rfl
@[simp] theorem State.modGrp_corrected (s : State) (g : Nat) (f : Group → Group) : (s.modGrp g f).corrected = s.corrected := rfl

@[simp] theorem State.setSplit_cur (s : State) (g sp : Nat) (p : Split) : (s.setSplit g sp p).cur = s.cur := rfl
@[simp] theorem State.setSplit_fetchLen (s : State) (g sp : Nat) (p : Split) : (s.setSplit g sp p).fetchLen = s.fetchLen := rfl
@[simp] theorem State.setSplit_turns (s : State) (g sp : Nat) (p : Split) : (s.setSplit g sp p).turns = s.turns := rfl
@[simp] theorem State.setSplit_turnNo (s : State) (g sp : Nat) (p : Split) : (s.setSplit g sp p).turnNo = s.turnNo := rfl
@[simp] theorem State.setSplit_freeNo (s : State) (g sp : Nat) (p : Split) : (s.setSplit g sp p).freeNo = s.freeNo := rfl
@[simp] theorem State.setSplit_clock (s : State) (g sp : Nat) (p : Split) : (s.setSplit g sp p).clock = s.clock := rfl
@[simp] theorem State.setSplit_phase (s : State) (g sp : Nat) (p : Split) : (s.setSplit g sp p).phase = s.phase := rfl
@[simp] theorem State.setSplit_fatals (s : State) (g sp : Nat) (p : Split) : (s.setSplit g sp p).fatals = s.fatals := rfl
@[simp] theorem State.setSplit_binsDue (s : State) (g sp : Nat) (p : Split) : (s.setSplit g sp p).binsDue = s.binsDue := rfl
@[simp] theorem State.setSplit_blocked (s : State) (g sp : Nat) (p : Split) : (s.setSplit g sp p).blocked = s.blocked := rfl
@[simp] theorem State.setSplit_again (s : State) (g sp : Nat) (p : Split) : (s.setSplit g sp p).again = s.again := rfl
@[simp] theorem State.setSplit_read (s : State) (g sp : Nat) (p : Split) : (s.setSplit g sp p).read = s.read := rfl
@[simp] theorem State.setSplit_pfxLine (s : State) (g sp : Nat) (p : Split) : (s.setSplit g sp p).pfxLine = s.pfxLine := rfl
@[simp] theorem State.setSplit_slewRem (s : State) (g sp : Nat) (p : Split) : (s.setSplit g sp p).slewRem = s.slewRem := rfl
@[simp] theorem State.setSplit_identity (s : State) (g sp : Nat) (p : Split) : (s.setSplit g sp p).identity = s.identity := rfl
@[simp] theorem State.setSplit_planNext (s : State) (g sp : Nat) (p : Split) : (s.setSplit g sp p).planNext = s.planNext := rfl
@[simp] theorem State.setSplit_journalAt (s : State) (g sp : Nat) (p : Split) : (s.setSplit g sp p).journalAt = s.journalAt := rfl
@[simp] theorem State.setSplit_nextFrame (s : State) (g sp : Nat) (p : Split) : (s.setSplit g sp p).nextFrame = s.nextFrame := rfl
@[simp] theorem State.setSplit_nextGroup (s : State) (g sp : Nat) (p : Split) : (s.setSplit g sp p).nextGroup = s.nextGroup := rfl
@[simp] theorem State.setSplit_nextTeam (s : State) (g sp : Nat) (p : Split) : (s.setSplit g sp p).nextTeam = s.nextTeam := rfl
@[simp] theorem State.setSplit_nextLaunch (s : State) (g sp : Nat) (p : Split) : (s.setSplit g sp p).nextLaunch = s.nextLaunch := rfl
@[simp] theorem State.setSplit_nextId (s : State) (g sp : Nat) (p : Split) : (s.setSplit g sp p).nextId = s.nextId := rfl
@[simp] theorem State.setSplit_hbm (s : State) (g sp : Nat) (p : Split) : (s.setSplit g sp p).hbm = s.hbm := rfl
@[simp] theorem State.setSplit_hbmBad (s : State) (g sp : Nat) (p : Split) : (s.setSplit g sp p).hbmBad = s.hbmBad := rfl
@[simp] theorem State.setSplit_time (s : State) (g sp : Nat) (p : Split) : (s.setSplit g sp p).time = s.time := rfl
@[simp] theorem State.setSplit_slew (s : State) (g sp : Nat) (p : Split) : (s.setSplit g sp p).slew = s.slew := rfl
@[simp] theorem State.setSplit_bootStep (s : State) (g sp : Nat) (p : Split) : (s.setSplit g sp p).bootStep = s.bootStep := rfl
@[simp] theorem State.setSplit_bootHalted (s : State) (g sp : Nat) (p : Split) : (s.setSplit g sp p).bootHalted = s.bootHalted := rfl
@[simp] theorem State.setSplit_portsOpen (s : State) (g sp : Nat) (p : Split) : (s.setSplit g sp p).portsOpen = s.portsOpen := rfl
@[simp] theorem State.setSplit_heldInReset (s : State) (g sp : Nat) (p : Split) : (s.setSplit g sp p).heldInReset = s.heldInReset := rfl
@[simp] theorem State.setSplit_measure (s : State) (g sp : Nat) (p : Split) : (s.setSplit g sp p).measure = s.measure := rfl
@[simp] theorem State.setSplit_troot (s : State) (g sp : Nat) (p : Split) : (s.setSplit g sp p).troot = s.troot := rfl
@[simp] theorem State.setSplit_fqbase (s : State) (g sp : Nat) (p : Split) : (s.setSplit g sp p).fqbase = s.fqbase := rfl
@[simp] theorem State.setSplit_ringsReg (s : State) (g sp : Nat) (p : Split) : (s.setSplit g sp p).ringsReg = s.ringsReg := rfl
@[simp] theorem State.setSplit_pfxbase (s : State) (g sp : Nat) (p : Split) : (s.setSplit g sp p).pfxbase = s.pfxbase := rfl
@[simp] theorem State.setSplit_wpaddr (s : State) (g sp : Nat) (p : Split) : (s.setSplit g sp p).wpaddr = s.wpaddr := rfl
@[simp] theorem State.setSplit_ringDescs (s : State) (g sp : Nat) (p : Split) : (s.setSplit g sp p).ringDescs = s.ringDescs := rfl
@[simp] theorem State.setSplit_reports (s : State) (g sp : Nat) (p : Split) : (s.setSplit g sp p).reports = s.reports := rfl
@[simp] theorem State.setSplit_dropped (s : State) (g sp : Nat) (p : Split) : (s.setSplit g sp p).dropped = s.dropped := rfl
@[simp] theorem State.setSplit_wprogs (s : State) (g sp : Nat) (p : Split) : (s.setSplit g sp p).wprogs = s.wprogs := rfl
@[simp] theorem State.setSplit_models (s : State) (g sp : Nat) (p : Split) : (s.setSplit g sp p).models = s.models := rfl
@[simp] theorem State.setSplit_ioTlb (s : State) (g sp : Nat) (p : Split) : (s.setSplit g sp p).ioTlb = s.ioTlb := rfl
@[simp] theorem State.setSplit_fqNext (s : State) (g sp : Nat) (p : Split) : (s.setSplit g sp p).fqNext = s.fqNext := rfl
@[simp] theorem State.setSplit_frecs (s : State) (g sp : Nat) (p : Split) : (s.setSplit g sp p).frecs = s.frecs := rfl
@[simp] theorem State.setSplit_cores (s : State) (g sp : Nat) (p : Split) : (s.setSplit g sp p).cores = s.cores := rfl
@[simp] theorem State.setSplit_services (s : State) (g sp : Nat) (p : Split) : (s.setSplit g sp p).services = s.services := rfl
@[simp] theorem State.setSplit_teams (s : State) (g sp : Nat) (p : Split) : (s.setSplit g sp p).teams = s.teams := rfl
@[simp] theorem State.setSplit_launches (s : State) (g sp : Nat) (p : Split) : (s.setSplit g sp p).launches = s.launches := rfl
@[simp] theorem State.setSplit_graphs (s : State) (g sp : Nat) (p : Split) : (s.setSplit g sp p).graphs = s.graphs := rfl
@[simp] theorem State.setSplit_runs (s : State) (g sp : Nat) (p : Split) : (s.setSplit g sp p).runs = s.runs := rfl
@[simp] theorem State.setSplit_nextRun (s : State) (g sp : Nat) (p : Split) : (s.setSplit g sp p).nextRun = s.nextRun := rfl
@[simp] theorem State.setSplit_nextNamed (s : State) (g sp : Nat) (p : Split) : (s.setSplit g sp p).nextNamed = s.nextNamed := rfl
@[simp] theorem State.setSplit_placeQ (s : State) (g sp : Nat) (p : Split) : (s.setSplit g sp p).placeQ = s.placeQ := rfl
@[simp] theorem State.setSplit_launchSeq (s : State) (g sp : Nat) (p : Split) : (s.setSplit g sp p).launchSeq = s.launchSeq := rfl
@[simp] theorem State.setSplit_sailPeriod (s : State) (g sp : Nat) (p : Split) : (s.setSplit g sp p).sailPeriod = s.sailPeriod := rfl
@[simp] theorem State.setSplit_sailEpoch (s : State) (g sp : Nat) (p : Split) : (s.setSplit g sp p).sailEpoch = s.sailEpoch := rfl
@[simp] theorem State.setSplit_sailFrom (s : State) (g sp : Nat) (p : Split) : (s.setSplit g sp p).sailFrom = s.sailFrom := rfl
@[simp] theorem State.setSplit_sail (s : State) (g sp : Nat) (p : Split) : (s.setSplit g sp p).sail = s.sail := rfl
@[simp] theorem State.setSplit_firingNo (s : State) (g sp : Nat) (p : Split) : (s.setSplit g sp p).firingNo = s.firingNo := rfl
@[simp] theorem State.setSplit_calls (s : State) (g sp : Nat) (p : Split) : (s.setSplit g sp p).calls = s.calls := rfl
@[simp] theorem State.setSplit_links (s : State) (g sp : Nat) (p : Split) : (s.setSplit g sp p).links = s.links := rfl
@[simp] theorem State.setSplit_deviceId (s : State) (g sp : Nat) (p : Split) : (s.setSplit g sp p).deviceId = s.deviceId := rfl
@[simp] theorem State.setSplit_portsUp (s : State) (g sp : Nat) (p : Split) : (s.setSplit g sp p).portsUp = s.portsUp := rfl
@[simp] theorem State.setSplit_islands (s : State) (g sp : Nat) (p : Split) : (s.setSplit g sp p).islands = s.islands := rfl
@[simp] theorem State.setSplit_powerCap (s : State) (g sp : Nat) (p : Split) : (s.setSplit g sp p).powerCap = s.powerCap := rfl
@[simp] theorem State.setSplit_powers (s : State) (g sp : Nat) (p : Split) : (s.setSplit g sp p).powers = s.powers := rfl
@[simp] theorem State.setSplit_journal (s : State) (g sp : Nat) (p : Split) : (s.setSplit g sp p).journal = s.journal := rfl
@[simp] theorem State.setSplit_journalNext (s : State) (g sp : Nat) (p : Split) : (s.setSplit g sp p).journalNext = s.journalNext := rfl
@[simp] theorem State.setSplit_replay (s : State) (g sp : Nat) (p : Split) : (s.setSplit g sp p).replay = s.replay := rfl
@[simp] theorem State.setSplit_sequences (s : State) (g sp : Nat) (p : Split) : (s.setSplit g sp p).sequences = s.sequences := rfl
@[simp] theorem State.setSplit_nextHandle (s : State) (g sp : Nat) (p : Split) : (s.setSplit g sp p).nextHandle = s.nextHandle := rfl
@[simp] theorem State.setSplit_replies (s : State) (g sp : Nat) (p : Split) : (s.setSplit g sp p).replies = s.replies := rfl
@[simp] theorem State.setSplit_fleetOut (s : State) (g sp : Nat) (p : Split) : (s.setSplit g sp p).fleetOut = s.fleetOut := rfl
@[simp] theorem State.setSplit_svcMaps (s : State) (g sp : Nat) (p : Split) : (s.setSplit g sp p).svcMaps = s.svcMaps := rfl
@[simp] theorem State.setSplit_corrected (s : State) (g sp : Nat) (p : Split) : (s.setSplit g sp p).corrected = s.corrected := rfl

@[simp] theorem State.modSplit_cur (s : State) (g sp : Nat) (f : Split → Split) : (s.modSplit g sp f).cur = s.cur := rfl
@[simp] theorem State.modSplit_fetchLen (s : State) (g sp : Nat) (f : Split → Split) : (s.modSplit g sp f).fetchLen = s.fetchLen := rfl
@[simp] theorem State.modSplit_turns (s : State) (g sp : Nat) (f : Split → Split) : (s.modSplit g sp f).turns = s.turns := rfl
@[simp] theorem State.modSplit_turnNo (s : State) (g sp : Nat) (f : Split → Split) : (s.modSplit g sp f).turnNo = s.turnNo := rfl
@[simp] theorem State.modSplit_freeNo (s : State) (g sp : Nat) (f : Split → Split) : (s.modSplit g sp f).freeNo = s.freeNo := rfl
@[simp] theorem State.modSplit_clock (s : State) (g sp : Nat) (f : Split → Split) : (s.modSplit g sp f).clock = s.clock := rfl
@[simp] theorem State.modSplit_phase (s : State) (g sp : Nat) (f : Split → Split) : (s.modSplit g sp f).phase = s.phase := rfl
@[simp] theorem State.modSplit_fatals (s : State) (g sp : Nat) (f : Split → Split) : (s.modSplit g sp f).fatals = s.fatals := rfl
@[simp] theorem State.modSplit_binsDue (s : State) (g sp : Nat) (f : Split → Split) : (s.modSplit g sp f).binsDue = s.binsDue := rfl
@[simp] theorem State.modSplit_blocked (s : State) (g sp : Nat) (f : Split → Split) : (s.modSplit g sp f).blocked = s.blocked := rfl
@[simp] theorem State.modSplit_again (s : State) (g sp : Nat) (f : Split → Split) : (s.modSplit g sp f).again = s.again := rfl
@[simp] theorem State.modSplit_read (s : State) (g sp : Nat) (f : Split → Split) : (s.modSplit g sp f).read = s.read := rfl
@[simp] theorem State.modSplit_pfxLine (s : State) (g sp : Nat) (f : Split → Split) : (s.modSplit g sp f).pfxLine = s.pfxLine := rfl
@[simp] theorem State.modSplit_slewRem (s : State) (g sp : Nat) (f : Split → Split) : (s.modSplit g sp f).slewRem = s.slewRem := rfl
@[simp] theorem State.modSplit_identity (s : State) (g sp : Nat) (f : Split → Split) : (s.modSplit g sp f).identity = s.identity := rfl
@[simp] theorem State.modSplit_planNext (s : State) (g sp : Nat) (f : Split → Split) : (s.modSplit g sp f).planNext = s.planNext := rfl
@[simp] theorem State.modSplit_journalAt (s : State) (g sp : Nat) (f : Split → Split) : (s.modSplit g sp f).journalAt = s.journalAt := rfl
@[simp] theorem State.modSplit_nextFrame (s : State) (g sp : Nat) (f : Split → Split) : (s.modSplit g sp f).nextFrame = s.nextFrame := rfl
@[simp] theorem State.modSplit_nextGroup (s : State) (g sp : Nat) (f : Split → Split) : (s.modSplit g sp f).nextGroup = s.nextGroup := rfl
@[simp] theorem State.modSplit_nextTeam (s : State) (g sp : Nat) (f : Split → Split) : (s.modSplit g sp f).nextTeam = s.nextTeam := rfl
@[simp] theorem State.modSplit_nextLaunch (s : State) (g sp : Nat) (f : Split → Split) : (s.modSplit g sp f).nextLaunch = s.nextLaunch := rfl
@[simp] theorem State.modSplit_nextId (s : State) (g sp : Nat) (f : Split → Split) : (s.modSplit g sp f).nextId = s.nextId := rfl
@[simp] theorem State.modSplit_hbm (s : State) (g sp : Nat) (f : Split → Split) : (s.modSplit g sp f).hbm = s.hbm := rfl
@[simp] theorem State.modSplit_hbmBad (s : State) (g sp : Nat) (f : Split → Split) : (s.modSplit g sp f).hbmBad = s.hbmBad := rfl
@[simp] theorem State.modSplit_time (s : State) (g sp : Nat) (f : Split → Split) : (s.modSplit g sp f).time = s.time := rfl
@[simp] theorem State.modSplit_slew (s : State) (g sp : Nat) (f : Split → Split) : (s.modSplit g sp f).slew = s.slew := rfl
@[simp] theorem State.modSplit_bootStep (s : State) (g sp : Nat) (f : Split → Split) : (s.modSplit g sp f).bootStep = s.bootStep := rfl
@[simp] theorem State.modSplit_bootHalted (s : State) (g sp : Nat) (f : Split → Split) : (s.modSplit g sp f).bootHalted = s.bootHalted := rfl
@[simp] theorem State.modSplit_portsOpen (s : State) (g sp : Nat) (f : Split → Split) : (s.modSplit g sp f).portsOpen = s.portsOpen := rfl
@[simp] theorem State.modSplit_heldInReset (s : State) (g sp : Nat) (f : Split → Split) : (s.modSplit g sp f).heldInReset = s.heldInReset := rfl
@[simp] theorem State.modSplit_measure (s : State) (g sp : Nat) (f : Split → Split) : (s.modSplit g sp f).measure = s.measure := rfl
@[simp] theorem State.modSplit_troot (s : State) (g sp : Nat) (f : Split → Split) : (s.modSplit g sp f).troot = s.troot := rfl
@[simp] theorem State.modSplit_fqbase (s : State) (g sp : Nat) (f : Split → Split) : (s.modSplit g sp f).fqbase = s.fqbase := rfl
@[simp] theorem State.modSplit_ringsReg (s : State) (g sp : Nat) (f : Split → Split) : (s.modSplit g sp f).ringsReg = s.ringsReg := rfl
@[simp] theorem State.modSplit_pfxbase (s : State) (g sp : Nat) (f : Split → Split) : (s.modSplit g sp f).pfxbase = s.pfxbase := rfl
@[simp] theorem State.modSplit_wpaddr (s : State) (g sp : Nat) (f : Split → Split) : (s.modSplit g sp f).wpaddr = s.wpaddr := rfl
@[simp] theorem State.modSplit_ringDescs (s : State) (g sp : Nat) (f : Split → Split) : (s.modSplit g sp f).ringDescs = s.ringDescs := rfl
@[simp] theorem State.modSplit_reports (s : State) (g sp : Nat) (f : Split → Split) : (s.modSplit g sp f).reports = s.reports := rfl
@[simp] theorem State.modSplit_dropped (s : State) (g sp : Nat) (f : Split → Split) : (s.modSplit g sp f).dropped = s.dropped := rfl
@[simp] theorem State.modSplit_wprogs (s : State) (g sp : Nat) (f : Split → Split) : (s.modSplit g sp f).wprogs = s.wprogs := rfl
@[simp] theorem State.modSplit_models (s : State) (g sp : Nat) (f : Split → Split) : (s.modSplit g sp f).models = s.models := rfl
@[simp] theorem State.modSplit_ioTlb (s : State) (g sp : Nat) (f : Split → Split) : (s.modSplit g sp f).ioTlb = s.ioTlb := rfl
@[simp] theorem State.modSplit_fqNext (s : State) (g sp : Nat) (f : Split → Split) : (s.modSplit g sp f).fqNext = s.fqNext := rfl
@[simp] theorem State.modSplit_frecs (s : State) (g sp : Nat) (f : Split → Split) : (s.modSplit g sp f).frecs = s.frecs := rfl
@[simp] theorem State.modSplit_cores (s : State) (g sp : Nat) (f : Split → Split) : (s.modSplit g sp f).cores = s.cores := rfl
@[simp] theorem State.modSplit_services (s : State) (g sp : Nat) (f : Split → Split) : (s.modSplit g sp f).services = s.services := rfl
@[simp] theorem State.modSplit_teams (s : State) (g sp : Nat) (f : Split → Split) : (s.modSplit g sp f).teams = s.teams := rfl
@[simp] theorem State.modSplit_launches (s : State) (g sp : Nat) (f : Split → Split) : (s.modSplit g sp f).launches = s.launches := rfl
@[simp] theorem State.modSplit_graphs (s : State) (g sp : Nat) (f : Split → Split) : (s.modSplit g sp f).graphs = s.graphs := rfl
@[simp] theorem State.modSplit_runs (s : State) (g sp : Nat) (f : Split → Split) : (s.modSplit g sp f).runs = s.runs := rfl
@[simp] theorem State.modSplit_nextRun (s : State) (g sp : Nat) (f : Split → Split) : (s.modSplit g sp f).nextRun = s.nextRun := rfl
@[simp] theorem State.modSplit_nextNamed (s : State) (g sp : Nat) (f : Split → Split) : (s.modSplit g sp f).nextNamed = s.nextNamed := rfl
@[simp] theorem State.modSplit_placeQ (s : State) (g sp : Nat) (f : Split → Split) : (s.modSplit g sp f).placeQ = s.placeQ := rfl
@[simp] theorem State.modSplit_launchSeq (s : State) (g sp : Nat) (f : Split → Split) : (s.modSplit g sp f).launchSeq = s.launchSeq := rfl
@[simp] theorem State.modSplit_sailPeriod (s : State) (g sp : Nat) (f : Split → Split) : (s.modSplit g sp f).sailPeriod = s.sailPeriod := rfl
@[simp] theorem State.modSplit_sailEpoch (s : State) (g sp : Nat) (f : Split → Split) : (s.modSplit g sp f).sailEpoch = s.sailEpoch := rfl
@[simp] theorem State.modSplit_sailFrom (s : State) (g sp : Nat) (f : Split → Split) : (s.modSplit g sp f).sailFrom = s.sailFrom := rfl
@[simp] theorem State.modSplit_sail (s : State) (g sp : Nat) (f : Split → Split) : (s.modSplit g sp f).sail = s.sail := rfl
@[simp] theorem State.modSplit_firingNo (s : State) (g sp : Nat) (f : Split → Split) : (s.modSplit g sp f).firingNo = s.firingNo := rfl
@[simp] theorem State.modSplit_calls (s : State) (g sp : Nat) (f : Split → Split) : (s.modSplit g sp f).calls = s.calls := rfl
@[simp] theorem State.modSplit_links (s : State) (g sp : Nat) (f : Split → Split) : (s.modSplit g sp f).links = s.links := rfl
@[simp] theorem State.modSplit_deviceId (s : State) (g sp : Nat) (f : Split → Split) : (s.modSplit g sp f).deviceId = s.deviceId := rfl
@[simp] theorem State.modSplit_portsUp (s : State) (g sp : Nat) (f : Split → Split) : (s.modSplit g sp f).portsUp = s.portsUp := rfl
@[simp] theorem State.modSplit_islands (s : State) (g sp : Nat) (f : Split → Split) : (s.modSplit g sp f).islands = s.islands := rfl
@[simp] theorem State.modSplit_powerCap (s : State) (g sp : Nat) (f : Split → Split) : (s.modSplit g sp f).powerCap = s.powerCap := rfl
@[simp] theorem State.modSplit_powers (s : State) (g sp : Nat) (f : Split → Split) : (s.modSplit g sp f).powers = s.powers := rfl
@[simp] theorem State.modSplit_journal (s : State) (g sp : Nat) (f : Split → Split) : (s.modSplit g sp f).journal = s.journal := rfl
@[simp] theorem State.modSplit_journalNext (s : State) (g sp : Nat) (f : Split → Split) : (s.modSplit g sp f).journalNext = s.journalNext := rfl
@[simp] theorem State.modSplit_replay (s : State) (g sp : Nat) (f : Split → Split) : (s.modSplit g sp f).replay = s.replay := rfl
@[simp] theorem State.modSplit_sequences (s : State) (g sp : Nat) (f : Split → Split) : (s.modSplit g sp f).sequences = s.sequences := rfl
@[simp] theorem State.modSplit_nextHandle (s : State) (g sp : Nat) (f : Split → Split) : (s.modSplit g sp f).nextHandle = s.nextHandle := rfl
@[simp] theorem State.modSplit_replies (s : State) (g sp : Nat) (f : Split → Split) : (s.modSplit g sp f).replies = s.replies := rfl
@[simp] theorem State.modSplit_fleetOut (s : State) (g sp : Nat) (f : Split → Split) : (s.modSplit g sp f).fleetOut = s.fleetOut := rfl
@[simp] theorem State.modSplit_svcMaps (s : State) (g sp : Nat) (f : Split → Split) : (s.modSplit g sp f).svcMaps = s.svcMaps := rfl
@[simp] theorem State.modSplit_corrected (s : State) (g sp : Nat) (f : Split → Split) : (s.modSplit g sp f).corrected = s.corrected := rfl

@[simp] theorem State.setCore_cur (s : State) (c : Nat) (x : Core) : (s.setCore c x).cur = s.cur := rfl
@[simp] theorem State.setCore_fetchLen (s : State) (c : Nat) (x : Core) : (s.setCore c x).fetchLen = s.fetchLen := rfl
@[simp] theorem State.setCore_turns (s : State) (c : Nat) (x : Core) : (s.setCore c x).turns = s.turns := rfl
@[simp] theorem State.setCore_turnNo (s : State) (c : Nat) (x : Core) : (s.setCore c x).turnNo = s.turnNo := rfl
@[simp] theorem State.setCore_freeNo (s : State) (c : Nat) (x : Core) : (s.setCore c x).freeNo = s.freeNo := rfl
@[simp] theorem State.setCore_clock (s : State) (c : Nat) (x : Core) : (s.setCore c x).clock = s.clock := rfl
@[simp] theorem State.setCore_phase (s : State) (c : Nat) (x : Core) : (s.setCore c x).phase = s.phase := rfl
@[simp] theorem State.setCore_fatals (s : State) (c : Nat) (x : Core) : (s.setCore c x).fatals = s.fatals := rfl
@[simp] theorem State.setCore_binsDue (s : State) (c : Nat) (x : Core) : (s.setCore c x).binsDue = s.binsDue := rfl
@[simp] theorem State.setCore_blocked (s : State) (c : Nat) (x : Core) : (s.setCore c x).blocked = s.blocked := rfl
@[simp] theorem State.setCore_again (s : State) (c : Nat) (x : Core) : (s.setCore c x).again = s.again := rfl
@[simp] theorem State.setCore_read (s : State) (c : Nat) (x : Core) : (s.setCore c x).read = s.read := rfl
@[simp] theorem State.setCore_pfxLine (s : State) (c : Nat) (x : Core) : (s.setCore c x).pfxLine = s.pfxLine := rfl
@[simp] theorem State.setCore_slewRem (s : State) (c : Nat) (x : Core) : (s.setCore c x).slewRem = s.slewRem := rfl
@[simp] theorem State.setCore_identity (s : State) (c : Nat) (x : Core) : (s.setCore c x).identity = s.identity := rfl
@[simp] theorem State.setCore_planNext (s : State) (c : Nat) (x : Core) : (s.setCore c x).planNext = s.planNext := rfl
@[simp] theorem State.setCore_journalAt (s : State) (c : Nat) (x : Core) : (s.setCore c x).journalAt = s.journalAt := rfl
@[simp] theorem State.setCore_nextFrame (s : State) (c : Nat) (x : Core) : (s.setCore c x).nextFrame = s.nextFrame := rfl
@[simp] theorem State.setCore_nextGroup (s : State) (c : Nat) (x : Core) : (s.setCore c x).nextGroup = s.nextGroup := rfl
@[simp] theorem State.setCore_nextTeam (s : State) (c : Nat) (x : Core) : (s.setCore c x).nextTeam = s.nextTeam := rfl
@[simp] theorem State.setCore_nextLaunch (s : State) (c : Nat) (x : Core) : (s.setCore c x).nextLaunch = s.nextLaunch := rfl
@[simp] theorem State.setCore_nextId (s : State) (c : Nat) (x : Core) : (s.setCore c x).nextId = s.nextId := rfl
@[simp] theorem State.setCore_hbm (s : State) (c : Nat) (x : Core) : (s.setCore c x).hbm = s.hbm := rfl
@[simp] theorem State.setCore_hbmBad (s : State) (c : Nat) (x : Core) : (s.setCore c x).hbmBad = s.hbmBad := rfl
@[simp] theorem State.setCore_time (s : State) (c : Nat) (x : Core) : (s.setCore c x).time = s.time := rfl
@[simp] theorem State.setCore_slew (s : State) (c : Nat) (x : Core) : (s.setCore c x).slew = s.slew := rfl
@[simp] theorem State.setCore_bootStep (s : State) (c : Nat) (x : Core) : (s.setCore c x).bootStep = s.bootStep := rfl
@[simp] theorem State.setCore_bootHalted (s : State) (c : Nat) (x : Core) : (s.setCore c x).bootHalted = s.bootHalted := rfl
@[simp] theorem State.setCore_portsOpen (s : State) (c : Nat) (x : Core) : (s.setCore c x).portsOpen = s.portsOpen := rfl
@[simp] theorem State.setCore_heldInReset (s : State) (c : Nat) (x : Core) : (s.setCore c x).heldInReset = s.heldInReset := rfl
@[simp] theorem State.setCore_measure (s : State) (c : Nat) (x : Core) : (s.setCore c x).measure = s.measure := rfl
@[simp] theorem State.setCore_troot (s : State) (c : Nat) (x : Core) : (s.setCore c x).troot = s.troot := rfl
@[simp] theorem State.setCore_fqbase (s : State) (c : Nat) (x : Core) : (s.setCore c x).fqbase = s.fqbase := rfl
@[simp] theorem State.setCore_ringsReg (s : State) (c : Nat) (x : Core) : (s.setCore c x).ringsReg = s.ringsReg := rfl
@[simp] theorem State.setCore_pfxbase (s : State) (c : Nat) (x : Core) : (s.setCore c x).pfxbase = s.pfxbase := rfl
@[simp] theorem State.setCore_wpaddr (s : State) (c : Nat) (x : Core) : (s.setCore c x).wpaddr = s.wpaddr := rfl
@[simp] theorem State.setCore_ringDescs (s : State) (c : Nat) (x : Core) : (s.setCore c x).ringDescs = s.ringDescs := rfl
@[simp] theorem State.setCore_reports (s : State) (c : Nat) (x : Core) : (s.setCore c x).reports = s.reports := rfl
@[simp] theorem State.setCore_dropped (s : State) (c : Nat) (x : Core) : (s.setCore c x).dropped = s.dropped := rfl
@[simp] theorem State.setCore_wprogs (s : State) (c : Nat) (x : Core) : (s.setCore c x).wprogs = s.wprogs := rfl
@[simp] theorem State.setCore_models (s : State) (c : Nat) (x : Core) : (s.setCore c x).models = s.models := rfl
@[simp] theorem State.setCore_ioTlb (s : State) (c : Nat) (x : Core) : (s.setCore c x).ioTlb = s.ioTlb := rfl
@[simp] theorem State.setCore_fqNext (s : State) (c : Nat) (x : Core) : (s.setCore c x).fqNext = s.fqNext := rfl
@[simp] theorem State.setCore_frecs (s : State) (c : Nat) (x : Core) : (s.setCore c x).frecs = s.frecs := rfl
@[simp] theorem State.setCore_services (s : State) (c : Nat) (x : Core) : (s.setCore c x).services = s.services := rfl
@[simp] theorem State.setCore_groups (s : State) (c : Nat) (x : Core) : (s.setCore c x).groups = s.groups := rfl
@[simp] theorem State.setCore_teams (s : State) (c : Nat) (x : Core) : (s.setCore c x).teams = s.teams := rfl
@[simp] theorem State.setCore_launches (s : State) (c : Nat) (x : Core) : (s.setCore c x).launches = s.launches := rfl
@[simp] theorem State.setCore_graphs (s : State) (c : Nat) (x : Core) : (s.setCore c x).graphs = s.graphs := rfl
@[simp] theorem State.setCore_runs (s : State) (c : Nat) (x : Core) : (s.setCore c x).runs = s.runs := rfl
@[simp] theorem State.setCore_nextRun (s : State) (c : Nat) (x : Core) : (s.setCore c x).nextRun = s.nextRun := rfl
@[simp] theorem State.setCore_nextNamed (s : State) (c : Nat) (x : Core) : (s.setCore c x).nextNamed = s.nextNamed := rfl
@[simp] theorem State.setCore_placeQ (s : State) (c : Nat) (x : Core) : (s.setCore c x).placeQ = s.placeQ := rfl
@[simp] theorem State.setCore_launchSeq (s : State) (c : Nat) (x : Core) : (s.setCore c x).launchSeq = s.launchSeq := rfl
@[simp] theorem State.setCore_sailPeriod (s : State) (c : Nat) (x : Core) : (s.setCore c x).sailPeriod = s.sailPeriod := rfl
@[simp] theorem State.setCore_sailEpoch (s : State) (c : Nat) (x : Core) : (s.setCore c x).sailEpoch = s.sailEpoch := rfl
@[simp] theorem State.setCore_sailFrom (s : State) (c : Nat) (x : Core) : (s.setCore c x).sailFrom = s.sailFrom := rfl
@[simp] theorem State.setCore_sail (s : State) (c : Nat) (x : Core) : (s.setCore c x).sail = s.sail := rfl
@[simp] theorem State.setCore_firingNo (s : State) (c : Nat) (x : Core) : (s.setCore c x).firingNo = s.firingNo := rfl
@[simp] theorem State.setCore_calls (s : State) (c : Nat) (x : Core) : (s.setCore c x).calls = s.calls := rfl
@[simp] theorem State.setCore_links (s : State) (c : Nat) (x : Core) : (s.setCore c x).links = s.links := rfl
@[simp] theorem State.setCore_deviceId (s : State) (c : Nat) (x : Core) : (s.setCore c x).deviceId = s.deviceId := rfl
@[simp] theorem State.setCore_portsUp (s : State) (c : Nat) (x : Core) : (s.setCore c x).portsUp = s.portsUp := rfl
@[simp] theorem State.setCore_islands (s : State) (c : Nat) (x : Core) : (s.setCore c x).islands = s.islands := rfl
@[simp] theorem State.setCore_powerCap (s : State) (c : Nat) (x : Core) : (s.setCore c x).powerCap = s.powerCap := rfl
@[simp] theorem State.setCore_powers (s : State) (c : Nat) (x : Core) : (s.setCore c x).powers = s.powers := rfl
@[simp] theorem State.setCore_journal (s : State) (c : Nat) (x : Core) : (s.setCore c x).journal = s.journal := rfl
@[simp] theorem State.setCore_journalNext (s : State) (c : Nat) (x : Core) : (s.setCore c x).journalNext = s.journalNext := rfl
@[simp] theorem State.setCore_replay (s : State) (c : Nat) (x : Core) : (s.setCore c x).replay = s.replay := rfl
@[simp] theorem State.setCore_sequences (s : State) (c : Nat) (x : Core) : (s.setCore c x).sequences = s.sequences := rfl
@[simp] theorem State.setCore_nextHandle (s : State) (c : Nat) (x : Core) : (s.setCore c x).nextHandle = s.nextHandle := rfl
@[simp] theorem State.setCore_replies (s : State) (c : Nat) (x : Core) : (s.setCore c x).replies = s.replies := rfl
@[simp] theorem State.setCore_fleetOut (s : State) (c : Nat) (x : Core) : (s.setCore c x).fleetOut = s.fleetOut := rfl
@[simp] theorem State.setCore_svcMaps (s : State) (c : Nat) (x : Core) : (s.setCore c x).svcMaps = s.svcMaps := rfl
@[simp] theorem State.setCore_corrected (s : State) (c : Nat) (x : Core) : (s.setCore c x).corrected = s.corrected := rfl

@[simp] theorem State.modCore_cur (s : State) (c : Nat) (f : Core → Core) : (s.modCore c f).cur = s.cur := rfl
@[simp] theorem State.modCore_fetchLen (s : State) (c : Nat) (f : Core → Core) : (s.modCore c f).fetchLen = s.fetchLen := rfl
@[simp] theorem State.modCore_turns (s : State) (c : Nat) (f : Core → Core) : (s.modCore c f).turns = s.turns := rfl
@[simp] theorem State.modCore_turnNo (s : State) (c : Nat) (f : Core → Core) : (s.modCore c f).turnNo = s.turnNo := rfl
@[simp] theorem State.modCore_freeNo (s : State) (c : Nat) (f : Core → Core) : (s.modCore c f).freeNo = s.freeNo := rfl
@[simp] theorem State.modCore_clock (s : State) (c : Nat) (f : Core → Core) : (s.modCore c f).clock = s.clock := rfl
@[simp] theorem State.modCore_phase (s : State) (c : Nat) (f : Core → Core) : (s.modCore c f).phase = s.phase := rfl
@[simp] theorem State.modCore_fatals (s : State) (c : Nat) (f : Core → Core) : (s.modCore c f).fatals = s.fatals := rfl
@[simp] theorem State.modCore_binsDue (s : State) (c : Nat) (f : Core → Core) : (s.modCore c f).binsDue = s.binsDue := rfl
@[simp] theorem State.modCore_blocked (s : State) (c : Nat) (f : Core → Core) : (s.modCore c f).blocked = s.blocked := rfl
@[simp] theorem State.modCore_again (s : State) (c : Nat) (f : Core → Core) : (s.modCore c f).again = s.again := rfl
@[simp] theorem State.modCore_read (s : State) (c : Nat) (f : Core → Core) : (s.modCore c f).read = s.read := rfl
@[simp] theorem State.modCore_pfxLine (s : State) (c : Nat) (f : Core → Core) : (s.modCore c f).pfxLine = s.pfxLine := rfl
@[simp] theorem State.modCore_slewRem (s : State) (c : Nat) (f : Core → Core) : (s.modCore c f).slewRem = s.slewRem := rfl
@[simp] theorem State.modCore_identity (s : State) (c : Nat) (f : Core → Core) : (s.modCore c f).identity = s.identity := rfl
@[simp] theorem State.modCore_planNext (s : State) (c : Nat) (f : Core → Core) : (s.modCore c f).planNext = s.planNext := rfl
@[simp] theorem State.modCore_journalAt (s : State) (c : Nat) (f : Core → Core) : (s.modCore c f).journalAt = s.journalAt := rfl
@[simp] theorem State.modCore_nextFrame (s : State) (c : Nat) (f : Core → Core) : (s.modCore c f).nextFrame = s.nextFrame := rfl
@[simp] theorem State.modCore_nextGroup (s : State) (c : Nat) (f : Core → Core) : (s.modCore c f).nextGroup = s.nextGroup := rfl
@[simp] theorem State.modCore_nextTeam (s : State) (c : Nat) (f : Core → Core) : (s.modCore c f).nextTeam = s.nextTeam := rfl
@[simp] theorem State.modCore_nextLaunch (s : State) (c : Nat) (f : Core → Core) : (s.modCore c f).nextLaunch = s.nextLaunch := rfl
@[simp] theorem State.modCore_nextId (s : State) (c : Nat) (f : Core → Core) : (s.modCore c f).nextId = s.nextId := rfl
@[simp] theorem State.modCore_hbm (s : State) (c : Nat) (f : Core → Core) : (s.modCore c f).hbm = s.hbm := rfl
@[simp] theorem State.modCore_hbmBad (s : State) (c : Nat) (f : Core → Core) : (s.modCore c f).hbmBad = s.hbmBad := rfl
@[simp] theorem State.modCore_time (s : State) (c : Nat) (f : Core → Core) : (s.modCore c f).time = s.time := rfl
@[simp] theorem State.modCore_slew (s : State) (c : Nat) (f : Core → Core) : (s.modCore c f).slew = s.slew := rfl
@[simp] theorem State.modCore_bootStep (s : State) (c : Nat) (f : Core → Core) : (s.modCore c f).bootStep = s.bootStep := rfl
@[simp] theorem State.modCore_bootHalted (s : State) (c : Nat) (f : Core → Core) : (s.modCore c f).bootHalted = s.bootHalted := rfl
@[simp] theorem State.modCore_portsOpen (s : State) (c : Nat) (f : Core → Core) : (s.modCore c f).portsOpen = s.portsOpen := rfl
@[simp] theorem State.modCore_heldInReset (s : State) (c : Nat) (f : Core → Core) : (s.modCore c f).heldInReset = s.heldInReset := rfl
@[simp] theorem State.modCore_measure (s : State) (c : Nat) (f : Core → Core) : (s.modCore c f).measure = s.measure := rfl
@[simp] theorem State.modCore_troot (s : State) (c : Nat) (f : Core → Core) : (s.modCore c f).troot = s.troot := rfl
@[simp] theorem State.modCore_fqbase (s : State) (c : Nat) (f : Core → Core) : (s.modCore c f).fqbase = s.fqbase := rfl
@[simp] theorem State.modCore_ringsReg (s : State) (c : Nat) (f : Core → Core) : (s.modCore c f).ringsReg = s.ringsReg := rfl
@[simp] theorem State.modCore_pfxbase (s : State) (c : Nat) (f : Core → Core) : (s.modCore c f).pfxbase = s.pfxbase := rfl
@[simp] theorem State.modCore_wpaddr (s : State) (c : Nat) (f : Core → Core) : (s.modCore c f).wpaddr = s.wpaddr := rfl
@[simp] theorem State.modCore_ringDescs (s : State) (c : Nat) (f : Core → Core) : (s.modCore c f).ringDescs = s.ringDescs := rfl
@[simp] theorem State.modCore_reports (s : State) (c : Nat) (f : Core → Core) : (s.modCore c f).reports = s.reports := rfl
@[simp] theorem State.modCore_dropped (s : State) (c : Nat) (f : Core → Core) : (s.modCore c f).dropped = s.dropped := rfl
@[simp] theorem State.modCore_wprogs (s : State) (c : Nat) (f : Core → Core) : (s.modCore c f).wprogs = s.wprogs := rfl
@[simp] theorem State.modCore_models (s : State) (c : Nat) (f : Core → Core) : (s.modCore c f).models = s.models := rfl
@[simp] theorem State.modCore_ioTlb (s : State) (c : Nat) (f : Core → Core) : (s.modCore c f).ioTlb = s.ioTlb := rfl
@[simp] theorem State.modCore_fqNext (s : State) (c : Nat) (f : Core → Core) : (s.modCore c f).fqNext = s.fqNext := rfl
@[simp] theorem State.modCore_frecs (s : State) (c : Nat) (f : Core → Core) : (s.modCore c f).frecs = s.frecs := rfl
@[simp] theorem State.modCore_services (s : State) (c : Nat) (f : Core → Core) : (s.modCore c f).services = s.services := rfl
@[simp] theorem State.modCore_groups (s : State) (c : Nat) (f : Core → Core) : (s.modCore c f).groups = s.groups := rfl
@[simp] theorem State.modCore_teams (s : State) (c : Nat) (f : Core → Core) : (s.modCore c f).teams = s.teams := rfl
@[simp] theorem State.modCore_launches (s : State) (c : Nat) (f : Core → Core) : (s.modCore c f).launches = s.launches := rfl
@[simp] theorem State.modCore_graphs (s : State) (c : Nat) (f : Core → Core) : (s.modCore c f).graphs = s.graphs := rfl
@[simp] theorem State.modCore_runs (s : State) (c : Nat) (f : Core → Core) : (s.modCore c f).runs = s.runs := rfl
@[simp] theorem State.modCore_nextRun (s : State) (c : Nat) (f : Core → Core) : (s.modCore c f).nextRun = s.nextRun := rfl
@[simp] theorem State.modCore_nextNamed (s : State) (c : Nat) (f : Core → Core) : (s.modCore c f).nextNamed = s.nextNamed := rfl
@[simp] theorem State.modCore_placeQ (s : State) (c : Nat) (f : Core → Core) : (s.modCore c f).placeQ = s.placeQ := rfl
@[simp] theorem State.modCore_launchSeq (s : State) (c : Nat) (f : Core → Core) : (s.modCore c f).launchSeq = s.launchSeq := rfl
@[simp] theorem State.modCore_sailPeriod (s : State) (c : Nat) (f : Core → Core) : (s.modCore c f).sailPeriod = s.sailPeriod := rfl
@[simp] theorem State.modCore_sailEpoch (s : State) (c : Nat) (f : Core → Core) : (s.modCore c f).sailEpoch = s.sailEpoch := rfl
@[simp] theorem State.modCore_sailFrom (s : State) (c : Nat) (f : Core → Core) : (s.modCore c f).sailFrom = s.sailFrom := rfl
@[simp] theorem State.modCore_sail (s : State) (c : Nat) (f : Core → Core) : (s.modCore c f).sail = s.sail := rfl
@[simp] theorem State.modCore_firingNo (s : State) (c : Nat) (f : Core → Core) : (s.modCore c f).firingNo = s.firingNo := rfl
@[simp] theorem State.modCore_calls (s : State) (c : Nat) (f : Core → Core) : (s.modCore c f).calls = s.calls := rfl
@[simp] theorem State.modCore_links (s : State) (c : Nat) (f : Core → Core) : (s.modCore c f).links = s.links := rfl
@[simp] theorem State.modCore_deviceId (s : State) (c : Nat) (f : Core → Core) : (s.modCore c f).deviceId = s.deviceId := rfl
@[simp] theorem State.modCore_portsUp (s : State) (c : Nat) (f : Core → Core) : (s.modCore c f).portsUp = s.portsUp := rfl
@[simp] theorem State.modCore_islands (s : State) (c : Nat) (f : Core → Core) : (s.modCore c f).islands = s.islands := rfl
@[simp] theorem State.modCore_powerCap (s : State) (c : Nat) (f : Core → Core) : (s.modCore c f).powerCap = s.powerCap := rfl
@[simp] theorem State.modCore_powers (s : State) (c : Nat) (f : Core → Core) : (s.modCore c f).powers = s.powers := rfl
@[simp] theorem State.modCore_journal (s : State) (c : Nat) (f : Core → Core) : (s.modCore c f).journal = s.journal := rfl
@[simp] theorem State.modCore_journalNext (s : State) (c : Nat) (f : Core → Core) : (s.modCore c f).journalNext = s.journalNext := rfl
@[simp] theorem State.modCore_replay (s : State) (c : Nat) (f : Core → Core) : (s.modCore c f).replay = s.replay := rfl
@[simp] theorem State.modCore_sequences (s : State) (c : Nat) (f : Core → Core) : (s.modCore c f).sequences = s.sequences := rfl
@[simp] theorem State.modCore_nextHandle (s : State) (c : Nat) (f : Core → Core) : (s.modCore c f).nextHandle = s.nextHandle := rfl
@[simp] theorem State.modCore_replies (s : State) (c : Nat) (f : Core → Core) : (s.modCore c f).replies = s.replies := rfl
@[simp] theorem State.modCore_fleetOut (s : State) (c : Nat) (f : Core → Core) : (s.modCore c f).fleetOut = s.fleetOut := rfl
@[simp] theorem State.modCore_svcMaps (s : State) (c : Nat) (f : Core → Core) : (s.modCore c f).svcMaps = s.svcMaps := rfl
@[simp] theorem State.modCore_corrected (s : State) (c : Nat) (f : Core → Core) : (s.modCore c f).corrected = s.corrected := rfl

@[simp] theorem State.setSvc_cur (s : State) (k : Nat) (x : SvcCore) : (s.setSvc k x).cur = s.cur := rfl
@[simp] theorem State.setSvc_fetchLen (s : State) (k : Nat) (x : SvcCore) : (s.setSvc k x).fetchLen = s.fetchLen := rfl
@[simp] theorem State.setSvc_turns (s : State) (k : Nat) (x : SvcCore) : (s.setSvc k x).turns = s.turns := rfl
@[simp] theorem State.setSvc_turnNo (s : State) (k : Nat) (x : SvcCore) : (s.setSvc k x).turnNo = s.turnNo := rfl
@[simp] theorem State.setSvc_freeNo (s : State) (k : Nat) (x : SvcCore) : (s.setSvc k x).freeNo = s.freeNo := rfl
@[simp] theorem State.setSvc_clock (s : State) (k : Nat) (x : SvcCore) : (s.setSvc k x).clock = s.clock := rfl
@[simp] theorem State.setSvc_phase (s : State) (k : Nat) (x : SvcCore) : (s.setSvc k x).phase = s.phase := rfl
@[simp] theorem State.setSvc_fatals (s : State) (k : Nat) (x : SvcCore) : (s.setSvc k x).fatals = s.fatals := rfl
@[simp] theorem State.setSvc_binsDue (s : State) (k : Nat) (x : SvcCore) : (s.setSvc k x).binsDue = s.binsDue := rfl
@[simp] theorem State.setSvc_blocked (s : State) (k : Nat) (x : SvcCore) : (s.setSvc k x).blocked = s.blocked := rfl
@[simp] theorem State.setSvc_again (s : State) (k : Nat) (x : SvcCore) : (s.setSvc k x).again = s.again := rfl
@[simp] theorem State.setSvc_read (s : State) (k : Nat) (x : SvcCore) : (s.setSvc k x).read = s.read := rfl
@[simp] theorem State.setSvc_pfxLine (s : State) (k : Nat) (x : SvcCore) : (s.setSvc k x).pfxLine = s.pfxLine := rfl
@[simp] theorem State.setSvc_slewRem (s : State) (k : Nat) (x : SvcCore) : (s.setSvc k x).slewRem = s.slewRem := rfl
@[simp] theorem State.setSvc_identity (s : State) (k : Nat) (x : SvcCore) : (s.setSvc k x).identity = s.identity := rfl
@[simp] theorem State.setSvc_planNext (s : State) (k : Nat) (x : SvcCore) : (s.setSvc k x).planNext = s.planNext := rfl
@[simp] theorem State.setSvc_journalAt (s : State) (k : Nat) (x : SvcCore) : (s.setSvc k x).journalAt = s.journalAt := rfl
@[simp] theorem State.setSvc_nextFrame (s : State) (k : Nat) (x : SvcCore) : (s.setSvc k x).nextFrame = s.nextFrame := rfl
@[simp] theorem State.setSvc_nextGroup (s : State) (k : Nat) (x : SvcCore) : (s.setSvc k x).nextGroup = s.nextGroup := rfl
@[simp] theorem State.setSvc_nextTeam (s : State) (k : Nat) (x : SvcCore) : (s.setSvc k x).nextTeam = s.nextTeam := rfl
@[simp] theorem State.setSvc_nextLaunch (s : State) (k : Nat) (x : SvcCore) : (s.setSvc k x).nextLaunch = s.nextLaunch := rfl
@[simp] theorem State.setSvc_nextId (s : State) (k : Nat) (x : SvcCore) : (s.setSvc k x).nextId = s.nextId := rfl
@[simp] theorem State.setSvc_hbm (s : State) (k : Nat) (x : SvcCore) : (s.setSvc k x).hbm = s.hbm := rfl
@[simp] theorem State.setSvc_hbmBad (s : State) (k : Nat) (x : SvcCore) : (s.setSvc k x).hbmBad = s.hbmBad := rfl
@[simp] theorem State.setSvc_time (s : State) (k : Nat) (x : SvcCore) : (s.setSvc k x).time = s.time := rfl
@[simp] theorem State.setSvc_slew (s : State) (k : Nat) (x : SvcCore) : (s.setSvc k x).slew = s.slew := rfl
@[simp] theorem State.setSvc_bootStep (s : State) (k : Nat) (x : SvcCore) : (s.setSvc k x).bootStep = s.bootStep := rfl
@[simp] theorem State.setSvc_bootHalted (s : State) (k : Nat) (x : SvcCore) : (s.setSvc k x).bootHalted = s.bootHalted := rfl
@[simp] theorem State.setSvc_portsOpen (s : State) (k : Nat) (x : SvcCore) : (s.setSvc k x).portsOpen = s.portsOpen := rfl
@[simp] theorem State.setSvc_heldInReset (s : State) (k : Nat) (x : SvcCore) : (s.setSvc k x).heldInReset = s.heldInReset := rfl
@[simp] theorem State.setSvc_measure (s : State) (k : Nat) (x : SvcCore) : (s.setSvc k x).measure = s.measure := rfl
@[simp] theorem State.setSvc_troot (s : State) (k : Nat) (x : SvcCore) : (s.setSvc k x).troot = s.troot := rfl
@[simp] theorem State.setSvc_fqbase (s : State) (k : Nat) (x : SvcCore) : (s.setSvc k x).fqbase = s.fqbase := rfl
@[simp] theorem State.setSvc_ringsReg (s : State) (k : Nat) (x : SvcCore) : (s.setSvc k x).ringsReg = s.ringsReg := rfl
@[simp] theorem State.setSvc_pfxbase (s : State) (k : Nat) (x : SvcCore) : (s.setSvc k x).pfxbase = s.pfxbase := rfl
@[simp] theorem State.setSvc_wpaddr (s : State) (k : Nat) (x : SvcCore) : (s.setSvc k x).wpaddr = s.wpaddr := rfl
@[simp] theorem State.setSvc_ringDescs (s : State) (k : Nat) (x : SvcCore) : (s.setSvc k x).ringDescs = s.ringDescs := rfl
@[simp] theorem State.setSvc_reports (s : State) (k : Nat) (x : SvcCore) : (s.setSvc k x).reports = s.reports := rfl
@[simp] theorem State.setSvc_dropped (s : State) (k : Nat) (x : SvcCore) : (s.setSvc k x).dropped = s.dropped := rfl
@[simp] theorem State.setSvc_wprogs (s : State) (k : Nat) (x : SvcCore) : (s.setSvc k x).wprogs = s.wprogs := rfl
@[simp] theorem State.setSvc_models (s : State) (k : Nat) (x : SvcCore) : (s.setSvc k x).models = s.models := rfl
@[simp] theorem State.setSvc_ioTlb (s : State) (k : Nat) (x : SvcCore) : (s.setSvc k x).ioTlb = s.ioTlb := rfl
@[simp] theorem State.setSvc_fqNext (s : State) (k : Nat) (x : SvcCore) : (s.setSvc k x).fqNext = s.fqNext := rfl
@[simp] theorem State.setSvc_frecs (s : State) (k : Nat) (x : SvcCore) : (s.setSvc k x).frecs = s.frecs := rfl
@[simp] theorem State.setSvc_cores (s : State) (k : Nat) (x : SvcCore) : (s.setSvc k x).cores = s.cores := rfl
@[simp] theorem State.setSvc_groups (s : State) (k : Nat) (x : SvcCore) : (s.setSvc k x).groups = s.groups := rfl
@[simp] theorem State.setSvc_teams (s : State) (k : Nat) (x : SvcCore) : (s.setSvc k x).teams = s.teams := rfl
@[simp] theorem State.setSvc_launches (s : State) (k : Nat) (x : SvcCore) : (s.setSvc k x).launches = s.launches := rfl
@[simp] theorem State.setSvc_graphs (s : State) (k : Nat) (x : SvcCore) : (s.setSvc k x).graphs = s.graphs := rfl
@[simp] theorem State.setSvc_runs (s : State) (k : Nat) (x : SvcCore) : (s.setSvc k x).runs = s.runs := rfl
@[simp] theorem State.setSvc_nextRun (s : State) (k : Nat) (x : SvcCore) : (s.setSvc k x).nextRun = s.nextRun := rfl
@[simp] theorem State.setSvc_nextNamed (s : State) (k : Nat) (x : SvcCore) : (s.setSvc k x).nextNamed = s.nextNamed := rfl
@[simp] theorem State.setSvc_placeQ (s : State) (k : Nat) (x : SvcCore) : (s.setSvc k x).placeQ = s.placeQ := rfl
@[simp] theorem State.setSvc_launchSeq (s : State) (k : Nat) (x : SvcCore) : (s.setSvc k x).launchSeq = s.launchSeq := rfl
@[simp] theorem State.setSvc_sailPeriod (s : State) (k : Nat) (x : SvcCore) : (s.setSvc k x).sailPeriod = s.sailPeriod := rfl
@[simp] theorem State.setSvc_sailEpoch (s : State) (k : Nat) (x : SvcCore) : (s.setSvc k x).sailEpoch = s.sailEpoch := rfl
@[simp] theorem State.setSvc_sailFrom (s : State) (k : Nat) (x : SvcCore) : (s.setSvc k x).sailFrom = s.sailFrom := rfl
@[simp] theorem State.setSvc_sail (s : State) (k : Nat) (x : SvcCore) : (s.setSvc k x).sail = s.sail := rfl
@[simp] theorem State.setSvc_firingNo (s : State) (k : Nat) (x : SvcCore) : (s.setSvc k x).firingNo = s.firingNo := rfl
@[simp] theorem State.setSvc_calls (s : State) (k : Nat) (x : SvcCore) : (s.setSvc k x).calls = s.calls := rfl
@[simp] theorem State.setSvc_links (s : State) (k : Nat) (x : SvcCore) : (s.setSvc k x).links = s.links := rfl
@[simp] theorem State.setSvc_deviceId (s : State) (k : Nat) (x : SvcCore) : (s.setSvc k x).deviceId = s.deviceId := rfl
@[simp] theorem State.setSvc_portsUp (s : State) (k : Nat) (x : SvcCore) : (s.setSvc k x).portsUp = s.portsUp := rfl
@[simp] theorem State.setSvc_islands (s : State) (k : Nat) (x : SvcCore) : (s.setSvc k x).islands = s.islands := rfl
@[simp] theorem State.setSvc_powerCap (s : State) (k : Nat) (x : SvcCore) : (s.setSvc k x).powerCap = s.powerCap := rfl
@[simp] theorem State.setSvc_powers (s : State) (k : Nat) (x : SvcCore) : (s.setSvc k x).powers = s.powers := rfl
@[simp] theorem State.setSvc_journal (s : State) (k : Nat) (x : SvcCore) : (s.setSvc k x).journal = s.journal := rfl
@[simp] theorem State.setSvc_journalNext (s : State) (k : Nat) (x : SvcCore) : (s.setSvc k x).journalNext = s.journalNext := rfl
@[simp] theorem State.setSvc_replay (s : State) (k : Nat) (x : SvcCore) : (s.setSvc k x).replay = s.replay := rfl
@[simp] theorem State.setSvc_sequences (s : State) (k : Nat) (x : SvcCore) : (s.setSvc k x).sequences = s.sequences := rfl
@[simp] theorem State.setSvc_nextHandle (s : State) (k : Nat) (x : SvcCore) : (s.setSvc k x).nextHandle = s.nextHandle := rfl
@[simp] theorem State.setSvc_replies (s : State) (k : Nat) (x : SvcCore) : (s.setSvc k x).replies = s.replies := rfl
@[simp] theorem State.setSvc_fleetOut (s : State) (k : Nat) (x : SvcCore) : (s.setSvc k x).fleetOut = s.fleetOut := rfl
@[simp] theorem State.setSvc_svcMaps (s : State) (k : Nat) (x : SvcCore) : (s.setSvc k x).svcMaps = s.svcMaps := rfl
@[simp] theorem State.setSvc_corrected (s : State) (k : Nat) (x : SvcCore) : (s.setSvc k x).corrected = s.corrected := rfl

/-! The accessors. -/

@[simp] theorem State.grp_setGrp (s : State) (g h : Nat) (x : Group) : (s.setGrp g x).grp h = if h = g then x else s.grp h := by
  simp only [State.grp, State.setGrp, Map.get_put]

@[simp] theorem State.grp_modGrp (s : State) (g h : Nat) (f : Group → Group) :
    (s.modGrp g f).grp h = if h = g then f (s.grp g) else s.grp h := by
  simp only [State.modGrp, State.grp_setGrp]

@[simp] theorem Group.split_setSplit (x : Group) (k j : Nat) (p : Split) : (x.setSplit k p).split j = if j = k then p else x.split j := by
  simp only [Group.split, Group.setSplit, Map.get_put]

@[simp] theorem State.split_setSplit (s : State) (g sp h k : Nat) (p : Split) :
    (s.setSplit g sp p).split h k = if h = g ∧ k = sp then p else s.split h k := by
  simp only [State.split, State.setSplit, State.grp_setGrp]
  by_cases hg : h = g <;> by_cases hk : k = sp <;> simp [hg, hk]

@[simp] theorem State.split_modSplit (s : State) (g sp h k : Nat) (f : Split → Split) :
    (s.modSplit g sp f).split h k = if h = g ∧ k = sp then f (s.split g sp) else s.split h k := by
  simp only [State.modSplit, State.split_setSplit]

@[simp] theorem State.core_setCore (s : State) (c d : Nat) (x : Core) : (s.setCore c x).core d = if d = c then x else s.core d := by
  simp only [State.core, State.setCore, Map.get_put]

@[simp] theorem State.core_modCore (s : State) (c d : Nat) (f : Core → Core) :
    (s.modCore c f).core d = if d = c then f (s.core c) else s.core d := by
  simp only [State.modCore, State.core_setCore]

@[simp] theorem State.svc_setSvc (s : State) (k j : Nat) (x : SvcCore) : (s.setSvc k x).svc j = if j = k then x else s.svc j := by
  simp only [State.svc, State.setSvc, Map.get_put]

@[simp] theorem State.core_setGrp (s : State) (g c : Nat) (x : Group) : (s.setGrp g x).core c = s.core c := rfl
@[simp] theorem State.svc_setGrp (s : State) (g k : Nat) (x : Group) : (s.setGrp g x).svc k = s.svc k := rfl
@[simp] theorem State.core_modGrp (s : State) (g c : Nat) (f : Group → Group) : (s.modGrp g f).core c = s.core c := rfl
@[simp] theorem State.core_setSplit (s : State) (g sp c : Nat) (p : Split) : (s.setSplit g sp p).core c = s.core c := rfl
@[simp] theorem State.core_modSplit (s : State) (g sp c : Nat) (f : Split → Split) : (s.modSplit g sp f).core c = s.core c := rfl
@[simp] theorem State.svc_modSplit (s : State) (g sp k : Nat) (f : Split → Split) : (s.modSplit g sp f).svc k = s.svc k := rfl
@[simp] theorem State.grp_setCore (s : State) (c g : Nat) (x : Core) : (s.setCore c x).grp g = s.grp g := rfl
@[simp] theorem State.grp_modCore (s : State) (c g : Nat) (f : Core → Core) : (s.modCore c f).grp g = s.grp g := rfl
@[simp] theorem State.split_setCore (s : State) (c g sp : Nat) (x : Core) : (s.setCore c x).split g sp = s.split g sp := rfl
@[simp] theorem State.split_modCore (s : State) (c g sp : Nat) (f : Core → Core) : (s.modCore c f).split g sp = s.split g sp := rfl
@[simp] theorem State.grp_setSvc (s : State) (k g : Nat) (x : SvcCore) : (s.setSvc k x).grp g = s.grp g := rfl
@[simp] theorem State.core_setSvc (s : State) (k c : Nat) (x : SvcCore) : (s.setSvc k x).core c = s.core c := rfl
@[simp] theorem State.split_setSvc (s : State) (k g sp : Nat) (x : SvcCore) : (s.setSvc k x).split g sp = s.split g sp := rfl

@[simp] theorem State.grp_setSplit (s : State) (g sp h : Nat) (p : Split) :
    (s.setSplit g sp p).grp h = if h = g then (s.grp g).setSplit sp p else s.grp h := by
  simp only [State.setSplit, State.grp_setGrp]

end Sys2Proof.Machine
end

