-- ==== Sys2Proof/Laws/Memory.lean ====
section
/-! SUPPORT. Every write of memory keeps the canonical form: bytes of HBM, of a scratchpad, and the journal's. -/

namespace Sys2Proof.Machine

theorem State.memoryOk_iff (s : State) : s.memoryOk = true ↔ s.hbm.wf = true ∧ s.cores.all (fun p => p.2.memoryOk) = true := by
  simp [State.memoryOk]

theorem Map.all_put {α : Type} (m : Map α) (k : Nat) (v : α) (f : α → Bool) (h : m.all (fun p => f p.2) = true) (hv : f v = true) :
    (m.put k v).all (fun p => f p.2) = true := by
  induction m with
  | nil => simp [Map.put, hv]
  | cons p t ih =>
    obtain ⟨i, w⟩ := p
    simp only [List.all_cons, Bool.and_eq_true] at h
    simp only [Map.put]
    split
    · simp [hv, h.2]
    · split
      · simp [hv, h.1, h.2]
      · simp only [List.all_cons, Bool.and_eq_true]
        exact ⟨h.1, ih h.2⟩

theorem Map.get_all {α : Type} (m : Map α) (k : Nat) (d : α) (f : α → Bool) (h : m.all (fun p => f p.2) = true) (hd : f d = true) :
    f (m.get d k) = true := by
  induction m with
  | nil => exact hd
  | cons p t ih =>
    obtain ⟨i, w⟩ := p
    simp only [List.all_cons, Bool.and_eq_true] at h
    simp only [Map.get]
    split_ifs <;> first | exact h.1 | exact hd | exact ih h.2

theorem State.core_memoryOk (s : State) (c : Nat) (h : s.memoryOk = true) : (s.core c).memoryOk = true :=
  Map.get_all s.cores c Core.reset Core.memoryOk ((State.memoryOk_iff s).1 h).2 rfl

/-- A change of one core that keeps its memories canonical keeps all of them. -/
theorem State.modCore_memoryOk (s : State) (c : Nat) (f : Core → Core) (h : s.memoryOk = true) (hf : (f (s.core c)).memoryOk = true) :
    (s.modCore c f).memoryOk = true :=
  (State.memoryOk_iff _).2 ⟨((State.memoryOk_iff s).1 h).1, Map.all_put s.cores c _ Core.memoryOk ((State.memoryOk_iff s).1 h).2 hf⟩

theorem State.hbmWrite_memoryOk (s : State) (own : Option (Nat × Nat)) (pa : Nat) (bs : List Byte) (h : s.memoryOk = true) :
    (s.hbmWrite own pa bs).memoryOk = true :=
  (State.memoryOk_iff _).2 ⟨Memory.writeN_wf s.hbm pa bs ((State.memoryOk_iff s).1 h).1, ((State.memoryOk_iff s).1 h).2⟩

theorem State.spadWrite_memoryOk (s : State) (c o : Nat) (bs : List Byte) (h : s.memoryOk = true) : (s.spadWrite c o bs).memoryOk = true := by
  refine State.modCore_memoryOk s c _ h ?_
  have hc := State.core_memoryOk s c h
  simp only [Core.memoryOk, Bool.and_eq_true] at hc ⊢
  exact ⟨Memory.writeN_wf _ o bs hc.1, hc.2⟩

theorem State.noteHbm_memoryOk (s : State) (e : JEntry) (h : s.memoryOk = true) : (s.noteHbm e).memoryOk = true := by
  unfold State.noteHbm
  split
  · exact h
  · split
    · exact h
    · rename_i a _ _
      have hw := (State.memoryOk_iff _).1 (State.hbmWrite_memoryOk s none a e.bytes h)
      generalize s.hbmWrite none a e.bytes = u at hw ⊢
      exact (State.memoryOk_iff _).2 hw

theorem State.note_memoryOk (s : State) (kind : Nat) (body : List Byte) (h : s.memoryOk = true) : (s.note kind body).memoryOk = true :=
  State.noteHbm_memoryOk _ _ h

end Sys2Proof.Machine
end

