-- ==== Sys2Proof/Laws/Ops.lean ====
section
/-! SUPPORT. What each shared operation can do: the issue of a word, the scalar registers, the pc and the stall. -/

namespace Sys2Proof.Machine

/-! Issue. -/

theorem State.scalarDo_issues {s : State} {rs : List (BitVec 6)} {f : State → State} (h : s.issues rs) : s.scalarDo rs f = .next (f s) := by
  simp only [State.scalarDo, h.1, h.2, Bool.not_true, Bool.false_eq_true, if_false]

/-- A scalar word answers a next state whenever an agent issues it: its effect, or the state with the split held. -/
theorem State.scalarDo_cases {s t : State} {rs : List (BitVec 6)} {f : State → State} (h : s.scalarDo rs f = .next t) :
    (s.issues rs ∧ t = f s) ∨ (s.anyAwaited rs = true ∧ t = s.stallAs .interlock) := by
  unfold State.scalarDo at h
  split at h
  · exact absurd h (by simp)
  · rename_i hl
    split at h
    · rename_i ha
      exact Or.inr ⟨ha, (Host.Outcome.next.inj h).symm⟩
    · rename_i ha
      exact Or.inl ⟨⟨by simpa using hl, by simpa using ha⟩, (Host.Outcome.next.inj h).symm⟩

theorem State.groupDo_ready {s : State} {g sp : Nat} {rs : List (BitVec 6)} {f : Nat → Nat → State → State} (h : s.ready g sp rs) :
    s.groupDo rs f = .next (f g sp s) := by
  simp only [State.groupDo, h.1, h.2.1, h.2.2, Bool.not_true, Bool.false_eq_true, if_false]

/-- A word of compute cores is an illegal instruction on a service core (R92). -/
theorem State.groupDo_service {s : State} {k : Nat} {rs : List (BitVec 6)} {f : Nat → Nat → State → State} (h : s.cur = .service k) :
    s.groupDo rs f = .next (s.serviceTrap k 0x10 0) := by
  simp only [State.groupDo, h, State.illegal, State.takeTrap]

theorem State.serviceDo_service {s : State} {k : Nat} {f : Nat → State → State} (h : s.cur = .service k) :
    s.serviceDo f = .next (f k s) := by
  simp only [State.serviceDo, h]

/-- A supervisor word is an illegal instruction on a compute core (R166). -/
theorem State.serviceDo_ready {s : State} {g sp : Nat} {rs : List (BitVec 6)} {f : Nat → State → State} (h : s.ready g sp rs) :
    s.serviceDo f = .next (s.fatal g 0x10 (s.split g sp).spc 0 0 sp) := by
  simp only [State.serviceDo, h.1, h.2.1, State.illegal, State.takeTrap, if_true]

theorem State.ready_issues {s : State} {g sp : Nat} {rs : List (BitVec 6)} (h : s.ready g sp rs) : s.issues rs :=
  ⟨by simp only [State.scalarLive, h.1, h.2.1], h.2.2⟩

theorem State.illegal_ready {s : State} {g sp : Nat} {rs : List (BitVec 6)} (h : s.ready g sp rs) :
    s.illegal = s.fatal g 0x10 (s.split g sp).spc 0 0 sp := by
  simp only [State.illegal, State.takeTrap, h.1]

/-- All that a fatal cause does in its clock: it leaves a record of it (R271, R272). -/
theorem State.fatal_only (s : State) (g : Nat) (cause : BitVec 8) (addr mask info : W64) (flags : Nat) :
    s.fatal g cause addr mask info flags = { s with fatals := (s.fatal g cause addr mask info flags).fatals } := rfl

/-! The scalar registers and the pc. -/

@[simp] theorem State.sreg_zero (s : State) : s.sreg 0#6 = 0#64 := by
  simp [State.sreg]

@[simp] theorem State.setSreg_zero (s : State) (v : W64) : s.setSreg 0#6 v = s := by
  simp [State.setSreg]

theorem State.setSreg_cur (s : State) (d : BitVec 6) (v : W64) : (s.setSreg d v).cur = s.cur := by
  unfold State.setSreg
  split
  · rfl
  · split <;> rfl

theorem State.setSreg_pc (s : State) (d : BitVec 6) (v : W64) : (s.setSreg d v).pc = s.pc := by
  unfold State.setSreg
  split
  · rfl
  · cases h : s.cur <;> simp [State.pc, h]

theorem State.advance_setSreg (s : State) (d : BitVec 6) (v : W64) : (s.setSreg d v).advance = (s.setSreg d v).jumpTo (s.pc + 4) := by
  rw [State.advance, State.setSreg_pc]

theorem State.jumpTo_cur (s : State) (a : W64) : (s.jumpTo a).cur = s.cur := by
  unfold State.jumpTo
  split <;> rfl

/-- s0 reads as zero; another register reads what was last written to it (R62). -/
theorem State.sreg_setSreg (s : State) (d r : BitVec 6) (v : W64) (h : s.scalarLive = true) :
    (s.setSreg d v).sreg r = if r = 0 then 0 else if r = d then v else s.sreg r := by
  by_cases hr : r = 0
  · subst hr
    simp
  · by_cases hd : d = 0
    · subst hd
      have hz : ¬r = 0#6 := hr
      simp [hz]
    · have ht : (r.toNat = d.toNat) = (r = d) := propext ⟨fun e => BitVec.eq_of_toNat_eq e, fun e => e ▸ rfl⟩
      cases hc : s.cur <;> simp_all [State.sreg, State.setSreg, State.scalarLive, Map.get_put]

/-! One update after another. -/

@[simp] theorem State.setGrp_setGrp (s : State) (g : Nat) (x y : Group) : (s.setGrp g x).setGrp g y = s.setGrp g y := by
  simp [State.setGrp, Map.put_put]
@[simp] theorem Group.setSplit_setSplit (x : Group) (k : Nat) (p q : Split) : (x.setSplit k p).setSplit k q = x.setSplit k q := by
  simp [Group.setSplit, Map.put_put]
@[simp] theorem State.setSplit_setSplit (s : State) (g sp : Nat) (p q : Split) : (s.setSplit g sp p).setSplit g sp q = s.setSplit g sp q := by
  simp [State.setSplit]
@[simp] theorem State.modSplit_modSplit (s : State) (g sp : Nat) (f h : Split → Split) :
    (s.modSplit g sp f).modSplit g sp h = s.modSplit g sp (fun p => h (f p)) := by
  simp [State.modSplit]
@[simp] theorem State.modSplit_setSplit (s : State) (g sp : Nat) (p : Split) (h : Split → Split) :
    (s.setSplit g sp p).modSplit g sp h = s.setSplit g sp (h p) := by
  simp [State.modSplit]
@[simp] theorem State.setSvc_setSvc (s : State) (k : Nat) (x y : SvcCore) : (s.setSvc k x).setSvc k y = s.setSvc k y := by
  simp [State.setSvc, Map.put_put]
@[simp] theorem State.setCore_setCore (s : State) (k : Nat) (x y : Core) : (s.setCore k x).setCore k y = s.setCore k y := by
  simp [State.setCore, Map.put_put]

theorem State.jumpTo_scalar {s : State} {g sp : Nat} (h : s.cur = .scalar g sp) (a : W64) :
    s.jumpTo a = s.modSplit g sp (fun p => { p with spc := a, stall := none }) := by simp [State.jumpTo, h]
theorem State.jumpTo_service {s : State} {k : Nat} (h : s.cur = .service k) (a : W64) :
    s.jumpTo a = s.setSvc k { s.svc k with pc := a } := by simp [State.jumpTo, h]
theorem State.pc_scalar {s : State} {g sp : Nat} (h : s.cur = .scalar g sp) : s.pc = (s.split g sp).spc := by simp [State.pc, h]
theorem State.pc_service {s : State} {k : Nat} (h : s.cur = .service k) : s.pc = (s.svc k).pc := by simp [State.pc, h]

theorem State.service_issues {s : State} {k : Nat} (h : s.cur = .service k) (rs : List (BitVec 6)) : s.issues rs :=
  ⟨by simp [State.scalarLive, h], by simp [State.anyAwaited, State.awaited, h]⟩

end Sys2Proof.Machine
end

