-- ==== Sys2Proof/Tests/Slice0.lean ====
section
/-! SUPPORT. Words written out from the encoding tables, ill-formed terms that each check refuses, small states, single steps, and for every statement with
hypotheses operands and states that meet them. -/

namespace Sys2Proof.Tests

open Sys2Proof Sys2Proof.Machine

set_option maxRecDepth 4000

/-! ## Words of 04_encodings.md, family by family -/

/-- R89, R93: OP 0x01, D 3, A 4, B 5, FN 0x01. -/
theorem test_word_sub : decodeScalar 0b00000100001100010000010100000001#32 = .ok (.sub 3 4 5) := by decide

/-- R93: clz is FN 0x15, with B zero. -/
theorem test_word_clz : decodeScalar 0b00000100001100010000000000010101#32 = .ok (.clz 3 4) := by decide

/-- R89, R92: addi is OP 0x02; IMM14 of all ones is −1. -/
theorem test_word_addi : decodeScalar 0b00001000001100010011111111111111#32 = .ok (.addi 3 4 0x3FFF) := by decide

/-- R92: shfi with IMM[13:12] 2 is sar. -/
theorem test_word_sari : decodeScalar 0b00100000001100010010000000111111#32 = .ok (.sari 3 4 63) := by decide

/-- R89, R92: limm is OP 0x09. -/
theorem test_word_limm : decodeScalar 0b00100100001110000000000000000001#32 = .ok (.limm 3 0x80001) := by decide

/-- R89, R92: bltw is OP 0x14, with A before B. -/
theorem test_word_bltw : decodeScalar 0b01010000001100010011111111111110#32 = .ok (.bltw 3 4 0x3FFE) := by decide

/-- R92: call is OP 0x17. -/
theorem test_word_call : decodeScalar 0b01011100000000000000000000000010#32 = .ok (.call 2) := by decide

/-- R92: jr is OP 0x18, its target in A. -/
theorem test_word_jr : decodeScalar 0b01100000000011111100000000000000#32 = .ok (.jr 63) := by decide

/-- R42: brx is OP 0x19, V in bits 25:16, OFF16 in bits 15:0. -/
theorem test_word_brx : decodeScalar 0b01100100000001010000000000000100#32 = .ok (.brx 5 4) := by decide

/-- R92: join and exit are OP 0x1A and 0x1B. -/
theorem test_word_join_exit : decodeScalar 0b01101000000000000000000000000000#32 = .ok .join ∧
    decodeScalar 0b01101100000000000000000000000000#32 = .ok .exit := by decide

/-- R91, R92: lrunr is OP 0x21. -/
theorem test_word_lrunr : decodeScalar 0b10000100001100000000000000000101#32 = .ok (.lrunr 3 5) := by decide

/-- R92: waitf is OP 0x22 with the mask of flags in IMM20[11:0]. -/
theorem test_word_waitf : decodeScalar 0b10001000000000000000100000000001#32 = .ok (.waitf 0x801) := by decide

/-- R93: waitc of `eng` is FN 4 of OP 0x23. -/
theorem test_word_waitc : decodeScalar 0b10001100000000010000000000000100#32 = .ok (.waitcEng 4) := by decide

/-- R93: exec.andn is FN 3 of OP 0x24. -/
theorem test_word_exec : decodeScalar 0b10010000000000010000000000000011#32 = .ok (.execAndn 4) := by decide

/-- R93: mset is FN 1 of OP 0x25. -/
theorem test_word_mxfer : decodeScalar 0b10010100001100010000000000000001#32 = .ok (.mset 3 4) := by decide

/-- R91: vset is OP 0x27, V in bits 19:10, LANE in bits 9:4. -/
theorem test_word_vset : decodeScalar 0b10011100001100000001010111110000#32 = .ok (.vset 3 5 31) := by decide

/-- R92: lds and sts are OP 0x28 and 0x29. -/
theorem test_word_lds_sts : decodeScalar 0b10100000001100010000000000001000#32 = .ok (.lds 3 4 8) ∧
    decodeScalar 0b10100100001100010000000000001000#32 = .ok (.sts 3 4 8) := by decide

/-- R93: atoms.cas is FN 4 of OP 0x2A. -/
theorem test_word_atoms : decodeScalar 0b10101000001100010000010100000100#32 = .ok (.atomsCas 3 4 5) := by decide

/-- R92, R77: csr with IMM[13:12] 0 reads; UTVEC is 0x010. -/
theorem test_word_csrr : decodeScalar 0b10101100001100000000000000010000#32 = .ok (.csrr 3 0x010) := by decide

/-- R90, R94: copy with guard 3, ACQ, scope 2. -/
theorem test_word_copy : decodeScalar 0b11000000001100010000011100100000#32 =
    .ok (.copy { a := 3, b := 4, g := 3, acq := true, rel := false, scope := 2 }) := by decide

/-- R94: mma2 is SUB 2 of OP 0x31. -/
theorem test_word_mma2 : decodeScalar 0b11000100001100010011111000000010#32 =
    .ok (.mma2 { a := 3, b := 4, g := 31, acq := false, rel := false, scope := 0 }) := by decide

/-- R94, R158: bar.wait is SUB 3 of OP 0x32, its scope in bits 6:4. -/
theorem test_word_barwait : decodeScalar 0b11001000001100010011111000010011#32 = .ok (.barWait 3 4 1) := by decide

/-- R94: gclr is SUB 4 of OP 0x33; glaunch SUB 1 of OP 0x34. -/
theorem test_word_guard_graph : decodeScalar 0b11001100001100000011111000000100#32 = .ok (.gclr 3) ∧
    decodeScalar 0b11010000001100010011111000000001#32 = .ok (.glaunch 3 4) := by decide

/-- R94: wdraw is SUB 3 of OP 0x35; pin SUB 3 of OP 0x36; thresh SUB 3 of OP 0x37. -/
theorem test_word_units :
    decodeScalar 0b11010100001100010011111000000011#32 = .ok (.wdraw { a := 3, b := 4, g := 31, acq := false, rel := false, scope := 0 }) ∧
    decodeScalar 0b11011000001100000011111000000011#32 = .ok (.pin { a := 3, b := 0, g := 31, acq := false, rel := false, scope := 0 }) ∧
    decodeScalar 0b11011100001100010011111000000011#32 =
      .ok (.thresh { a := 3, b := 4, g := 31, acq := false, rel := false, scope := 0 }) := by decide

/-- R94's worked example: fence.acq.rel.dev is 0xE000_3FB0. -/
theorem test_word_fence : decodeScalar 0xE0003FB0#32 = .ok (.fenceAcqRel 3) := by decide

/-- R94: tlbi is SUB 1 of OP 0x39. -/
theorem test_word_tlbi : decodeScalar 0b11100100001100010011111000000001#32 = .ok (.tlbi 3 4) := by decide

/-- R100's worked example: the halfword 0x2044 is REB 2, IDX 17; IDX 0 is the lane NOP. -/
theorem test_word_dictionary : decodeLane (.l16 0x2044) = .ok (.dictionaryCode 2 17) ∧ decodeLane (.l16 0xF000) = .ok (.laneNopL16 15) := by decide

/-- The worked example after R111: `add v5, v6, v7 ?m2` is the halfwords of 0x41C3_050D. -/
theorem test_word_short : decodeLane (.l32 0x41C3050D) = .ok (.laneAddL32 { msel := 2, b := 7, a := 6, d := 5 }) := by decide

/-- R96, R107: `vote.any v5, m1` is OP 0x0C1 with MOD 1, B and C unused. -/
theorem test_word_vote : decodeLane (.l64 0b0000010000001111111101111111110100000000010000000101001100000110) =
    .ok (.vote { mod := 1, fl := 0, mask := 0, c := 1021, b := 1021, a := 1, d := 5, lit := none }) := by decide

/-- The worked example after R111: the words of `and v3, v2, 0x7C00`, low word first. -/
theorem test_word_literal : decodeLane (.l96 (0x00007C00#32 ++ 0x000FF7FF#32 ++ 0x00803033#32)) =
    .ok (.laneAnd { mod := 0, fl := 0, mask := 0, c := 1021, b := 1023, a := 2, d := 3, lit := some 0x7C00 }) := by decide

/-- R101's worked example: MOD 0b000100 and LIT 0xFF67_3500, writing v7 from v1, v2 and v3. -/
theorem test_word_xpr : decodeLane (.l96 (0xFF673500#32 ++ 0b0001000000000000000011000000001000000000010000000111001100010111#64)) =
    .ok (.xpr { mod := 4, fl := 0, mask := 0, c := 3, b := 2, a := 1, d := 7, lit := some 0xFF673500 }) := by decide

/-- The worked example after R377: the words of `hl.set h6, 0` and of `hl.loop h3, h0, k_done`. -/
theorem test_word_halyard : decodeHalyard 0x1600010000000000#64 = .ok (.hlSet { d := 6, a := 0, b := 0, x := 1, y := 0, imm := 0 }) ∧
    decodeHalyard 0x2300000000000004#64 = .ok (.hlLoop { d := 3, a := 0, b := 0, x := 0, y := 0, imm := 4 }) := by decide

/-- R376: hl.guard.res g15, h2 has OP 6, Y 1. -/
theorem test_word_guard_res : decodeHalyard 0x60200F0100000000#64 = .ok (.hlGuardRes { d := 0, a := 2, b := 0, x := 15, y := 1, imm := 0 }) := by decide

/-! ## Encodings that are no instruction (R111) -/

theorem test_reject_scalar : decodeScalar 0 = .error .zeroWord ∧ decodeScalar 0xFFFFFFFF = .error .onesWord ∧
    decodeScalar 0x30000000 = .error (.unassigned 0x0C) ∧ decodeScalar 0x0400001E = .error (.badFn 1 0x1E) ∧
    decodeScalar 0xC000000F = .error (.badSub 0x30 15) ∧ decodeScalar 0x68000001 = .error (.nonzeroField 0x1A) := by decide

/-- R107: lane opcode 0; R99: OP6 0x2F. -/
theorem test_reject_lane : decodeLane (.l64 2) = .error (.unassigned 0) ∧ decodeLane (.l32 0xBD) = .error (.unassigned 0x2F) := by decide

/-! ## Ill-formed terms -/

/-- The lane fields of `add v3, v1, v2`, legal. -/
def plainLane : LaneOps := { mod := 0, fl := 0, mask := 0, c := 1021, b := 2, a := 1, d := 3, lit := none }

theorem test_wf_lane : (Instr.laneAdd plainLane).wellFormed = true := by decide

/-- An engine word with no guard and no ordering. -/
def plainSe : SeOps := { a := 3, b := 4, g := 31, acq := false, rel := false, scope := 0 }

/-- A Halyard word with no field set. -/
def plainHl : HlOps := { d := 0, a := 0, b := 0, x := 0, y := 0, imm := 0 }

/-- R90, R91, R151, R157, R158, R162: the fields of scalar words. -/
theorem test_ill_scalar : (Instr.barInit 3 4 3).wellFormed = false ∧ (Instr.barArrive 3 0).wellFormed = false ∧
    (Instr.fenceAcq 5).wellFormed = false ∧ (Instr.fpctlWrite 0 3 4).wellFormed = false ∧ (Instr.registerWrite 1 3 4 0x020).wellFormed = false ∧
    (Instr.msav 3 16).wellFormed = false ∧ (Instr.mset 16 3).wellFormed = false ∧ (Instr.execOr 16).wellFormed = false ∧
    (Instr.sget 3 640 0).wellFormed = false ∧ (Instr.brx 640 0).wellFormed = false ∧ (Instr.yieldp 3 5).wellFormed = false ∧
    (Instr.hstart 3 6).wellFormed = false ∧ (Instr.dictionaryCode 0 0).wellFormed = false := by decide

/-- R90: guards 16 to 30, scopes above `.flt`, `.flt` outside the copy family's remote rows, and a scope without ordering. -/
theorem test_ill_engine : (Instr.copy { plainSe with g := 16 }).wellFormed = false ∧ (Instr.put { plainSe with acq := true, scope := 5 }).wellFormed = false ∧
    (Instr.copy { plainSe with acq := true, scope := 4 }).wellFormed = false ∧ (Instr.mma { plainSe with scope := 1 }).wellFormed = false ∧
    (Instr.put { plainSe with rel := true, scope := 4 }).wellFormed = true := by decide

/-- R96 to R98, R63, R108: FL 3, an unused field, a destination above the registers, a source of 640, MOD, and an odd pair. -/
theorem test_ill_lane : (Instr.laneAdd { plainLane with fl := 3 }).wellFormed = false ∧ (Instr.laneAdd { plainLane with c := 0 }).wellFormed = false ∧
    (Instr.laneAdd { plainLane with d := 1020 }).wellFormed = false ∧ (Instr.laneAdd { plainLane with a := 640 }).wellFormed = false ∧
    (Instr.laneMul { plainLane with mod := 1 }).wellFormed = false ∧ (Instr.laneAdd { plainLane with mod := 32 }).wellFormed = false ∧
    (Instr.laneAdd { plainLane with b := 1023 }).wellFormed = false ∧ (Instr.laneAdd { plainLane with lit := some 1 }).wellFormed = false ∧
    (Instr.laneAdd { plainLane with b := 1023, lit := some 1 }).wellFormed = true := by decide

/-- R107, R194, R332, R342, R367, R208, R70: masks, orderings, tiles and the fields of single entries. -/
theorem test_ill_lane_fields : (Instr.cmpEq { plainLane with d := 16 }).wellFormed = false ∧ (Instr.sel { plainLane with c := 16 }).wellFormed = false ∧
    (Instr.ldG { plainLane with a := 2, c := 16 }).wellFormed = false ∧ (Instr.ldG { plainLane with a := 2, c := 11 }).wellFormed = true ∧
    (Instr.stG { plainLane with a := 2, c := 8 }).wellFormed = false ∧ (Instr.accrd { plainLane with a := 8 }).wellFormed = false ∧
    (Instr.glean { plainLane with c := 1 }).wellFormed = false ∧ (Instr.recput { plainLane with a := 632 }).wellFormed = false ∧
    (Instr.prf { plainLane with d := 1021, a := 2, c := 1 }).wellFormed = false ∧
    (Instr.vshape { plainLane with b := 1021, fl := 1 }).wellFormed = false := by decide

/-- R101: the tokens of an XPR: none, a fifth value, too few operands, two values left, and a token after the end. -/
theorem test_ill_xpr :
    let x : LaneOps := { mod := 4, fl := 0, mask := 0, c := 3, b := 2, a := 1, d := 7, lit := some 0xFF673500 }
    (Instr.xpr x).wellFormed = true ∧ (Instr.xpr { x with mod := 0 }).wellFormed = false ∧
    (Instr.xpr { x with lit := none }).wellFormed = false ∧ (Instr.xpr { x with b := 1023 }).wellFormed = false ∧
    (Instr.xpr { x with lit := some 0xFF511100 }).wellFormed = false ∧ (Instr.xpr { x with mod := 5, lit := some 0xFF500000 }).wellFormed = false ∧
    (Instr.xpr { x with lit := some 0xFF600000 }).wellFormed = false ∧ (Instr.xpr { x with lit := some 0xFF673501 }).wellFormed = false ∧
    (Instr.xpr { x with lit := some 0xA0273500 }).wellFormed = false := by decide

/-- R99: a field that a short word does not use, and a mask above m15. -/
theorem test_ill_short : (Instr.laneNotL32 { msel := 0, b := 1, a := 6, d := 5 }).wellFormed = false ∧
    (Instr.cmpEqL32 { msel := 0, b := 1, a := 6, d := 16 }).wellFormed = false ∧
    (Instr.laneNotL32 { msel := 0, b := 0, a := 6, d := 5 }).wellFormed = true := by decide

/-- R375, R376: the fields of Halyard words. -/
theorem test_ill_halyard : (Instr.hlSet { plainHl with b := 1 }).wellFormed = false ∧ (Instr.hlSet { plainHl with x := 1, a := 1 }).wellFormed = false ∧
    (Instr.hlLoop { plainHl with x := 1 }).wellFormed = false ∧ (Instr.hlStr { plainHl with x := 8 }).wellFormed = false ∧
    (Instr.hlEmit { plainHl with b := 1 }).wellFormed = false ∧ (Instr.hlEmit { plainHl with x := 14 }).wellFormed = false ∧
    (Instr.hlGuard { plainHl with x := 16 }).wellFormed = false ∧ (Instr.hlGuardRes { plainHl with x := 31, y := 1 }).wellFormed = false ∧
    (Instr.hlBarExpect { plainHl with x := 128 }).wellFormed = false ∧ (Instr.hlBarArrive { plainHl with y := 2, a := 1 }).wellFormed = false ∧
    (Instr.hlEnd { plainHl with imm := 1 }).wellFormed = false := by decide

/-! ## Small states -/

/-- A kernel of W 32 with four general registers, one tile, queue q0, and UTVEC 0x200. -/
def desc0 : KDesc := { KDesc.empty with
  gcount := 4
  accn := 1
  qmap := 1
  dcount := 1
  utvec := 0x200 }

/-- A live split at 0x100 with s4 = 8, s5 = 7 and every lane of 32 active. -/
def split0 : Split := { Split.dead with
  live := true
  spc := 0x100
  exec := 0xFFFFFFFF
  regs := [(4, 8), (5, 7)] }

/-- Group 0 on core 0, Active, with one live split. -/
def group0 : Group := { Group.empty with
  desc := desc0
  st := .active
  utvec := 0x200
  splits := [(0, split0)] }

/-- A launch of run 1. -/
def launch0 : Launch := { run := 1, node := 0, desc := desc0, args := [], clusters := 1, placed := 1, ctxBase := 0, ctxStride := 0, prio := 0,
                          stage := false, gid := 0, ctx := 0, records := [], depth := 0, req := none, loaded := true, dict := [], killed := false }

/-- A graph of one kernel node. -/
def graph0 : Graph := { nodes := [{ kind := 1, prio := 0, npred := 0, nsucc := 0, maxgrp := 1, succ := 0, kdesc := 0, clusters := 1, ctxBase := 0,
                                    ctxStride := 0, rsize := 1, count := 1, depth := 0, timer := 0, pool := 0, pages := 0, args := [] }],
                        edges := [], endNode := 0 }

/-- A run of graph 0. -/
def run1 : Run := { graph := 0, stream := 0, prio := 0, arg := none, st := .running, nodes := [(0, NodeSt.init 0)], completed := 0,
                    byFiring := false, named := 0 }

/-- VA 0 to 4095 are mapped to 0x10000 on with every right, and the buffer says that the page has been written. -/
def world : State := { State.reset with
  cur := .scalar 0 0
  groups := [(0, group0)]
  launches := [(0, launch0)]
  graphs := [(0, graph0)]
  runs := [(1, run1)]
  nextRun := 2
  nextGroup := 1
  nextLaunch := 1
  cores := [(0, { Core.reset with tlb := [fetchPage] })]
  ioTlb := [fetchPage] }

/-- The state with a changed group 0, or with one changed split. -/
def withG (f : Group → Group) : State := { world with groups := [(0, f group0)] }
def withP (f : Split → Split) : State := withG (fun x => { x with splits := [(0, f split0)] })

/-- Service core 0 issues, with s4 = 8 and s5 = 7. -/
def service : State := { world with
  cur := .service 0
  services := [(0, { SvcCore.reset with
    pc := 0x100
    regs := [(4, 8), (5, 7)] })] }

/-! ## Witnesses: scalar words -/

theorem ready0 (rs : List (BitVec 6)) (h : world.anyAwaited rs = false) : world.ready 0 0 rs := ⟨rfl, rfl, h⟩

theorem witness_scalarTwoSource : (aluTwo (.sub 3 4 5)).isSome = true ∧ world.issues [3, 4, 5] ∧ service.issues [0, 63, 0] :=
  ⟨rfl, ⟨rfl, rfl⟩, ⟨rfl, rfl⟩⟩

theorem witness_scalarImmediate : (aluOne (.addi 3 4 0x3FFF)).isSome = true ∧ world.issues [3, 4] := ⟨rfl, ⟨rfl, rfl⟩⟩

theorem witness_scalarConstants : world.ready 0 0 [63] ∧ service.cur = .service 0 := ⟨⟨rfl, rfl, rfl⟩, rfl⟩

theorem witness_ScalarRegisters : world.scalarLive = true ∧ service.scalarLive = true ∧ world.issues [63] ∧ service.issues [63] :=
  ⟨rfl, rfl, ⟨rfl, rfl⟩, ⟨rfl, rfl⟩⟩

theorem witness_ScalarFrame : registerOnly (.limm 3 1) = some 3 ∧ registerOnly (.lcaddr 3 1) = some 3 ∧
    world.cur = .scalar 0 0 ∧ (∃ t, exec (.limm 3 1) world = .next t) ∧ ∃ t, exec (.limm 0 1) world = .next t := ⟨rfl, rfl, rfl, ⟨_, rfl⟩, ⟨_, rfl⟩⟩

/-- With lanes and with none. -/
theorem witness_scalarBranches : (branchOf (.bltw 4 5 0x2000)).isSome = true ∧ world.issues [4, 5] ∧
    ((withP (fun p => { p with exec := 0 })).ready 0 0 [] ∧
      ∀ l, l < 32 → ((withP (fun p => { p with exec := 0 })).split 0 0).exec.getLsbD l = false) ∧
    (world.ready 0 0 [] ∧ (31 < (world.grp 0).desc.w) ∧ (world.split 0 0).exec.getLsbD 31 = true) :=
  ⟨rfl, ⟨rfl, rfl⟩, ⟨⟨rfl, rfl, rfl⟩, by decide⟩, ⟨rfl, rfl, rfl⟩, by decide, rfl⟩

theorem witness_scalarJumps : (world.issues [4] ∧ (world.sreg 4).toNat % 4 = 0) ∧ (world.ready 0 0 [5] ∧ (world.sreg 5).toNat % 4 ≠ 0) ∧
    (service.cur = .service 0 ∧ (service.sreg 5).toNat % 4 ≠ 0) ∧ world.issues [63] :=
  ⟨⟨⟨rfl, rfl⟩, rfl⟩, ⟨⟨rfl, rfl, rfl⟩, by decide⟩, ⟨rfl, by decide⟩, ⟨rfl, rfl⟩⟩

/-- A BRX at the start of a page of zeros, its lane register v0 the lane index. -/
theorem witness_brxDiverges : ∃ r t table, world.brxRuns 0 0 0 0 r t table ∧ (world.grp 0).liveSplits = [0] :=
  ⟨_, _, _, ⟨⟨rfl, rfl, rfl⟩, by decide, rfl, by decide, by decide, rfl, rfl⟩, rfl⟩

/-- Four live splits; the BRX's register pops queue q0. -/
def fourSplits : State := withG (fun x => { x with
  oq := [(0, [.a 0 1])]
  splits := [(0, split0), (1, split0), (2, split0), (3, split0)] })

theorem witness_brxSerial : ∃ t table, fourSplits.brxRuns 0 0 632 0 (.a 0 1) t table ∧ (fourSplits.grp 0).liveSplits = [0, 1, 2, 3] ∧
    (LaneReg.a 0 1).lane 0 = 0 ∧ ((LaneReg.a 0 1).lane 0).toNat % 4 < ((LaneReg.a 0 1).lane 3).toNat % 4 ∧
    (∀ k, k < 32 → ((LaneReg.a 0 1).lane 0).toNat % 4 ≤ ((LaneReg.a 0 1).lane k).toNat % 4) :=
  ⟨_, _, ⟨⟨rfl, rfl, rfl⟩, by decide, rfl, by decide, by decide, rfl, rfl⟩, rfl, rfl, by decide, by decide⟩

/-- A split with a tag that no other carries, that one other carries, and with the last part of a serial record. -/
theorem witness_joinGoesOn : (world.ready 0 0 [] ∧ (world.split 0 0).tags = []) ∧
    (let s := withP (fun p => { p with tags := [.tag 0] })
     s.ready 0 0 [] ∧ (s.split 0 0).tags = [] ++ [.tag 0] ∧ (s.split 0 0).drained = true ∧
      ∀ k, k < 4 → k ≠ 0 → (s.split 0 k).live = true → .tag 0 ∉ (s.split 0 k).tags) ∧
    (let s := withG (fun x => { x with splits := [(0, { split0 with tags := [.tag 0] }), (3, { split0 with tags := [.tag 0] })] })
     s.ready 0 0 [] ∧ (s.split 0 0).tags = [] ++ [.tag 0] ∧ (s.split 0 3).live = true ∧ .tag 0 ∈ (s.split 0 3).tags) ∧
    (let s := withP (fun p => { p with tags := [.tag 7, .serial 3 0xFF 0x100 0 0 0] })
     s.ready 0 0 [] ∧ (s.split 0 0).tags = [.tag 7] ++ [.serial 3 0xFF 0x100 0 0 0] ∧ (s.split 0 0).drained = true) := by
  refine ⟨⟨⟨rfl, rfl, rfl⟩, rfl⟩, ⟨⟨rfl, rfl, rfl⟩, rfl, rfl, ?_⟩, ⟨⟨rfl, rfl, rfl⟩, rfl, rfl, ?_⟩, ⟨rfl, rfl, rfl⟩, rfl, rfl⟩ <;> decide

/-- Two splits that wait at one JOIN. -/
def joiners (pc : W64) : State := withG (fun x => { x with
  splits := [(1, { split0 with
    tags := [.tag 0]
    stall := some .join }), (3, { split0 with
    tags := [.tag 5, .tag 0]
    stall := some .join
    spc := pc })] })

theorem witness_joinMerges : ∀ pc, ((joiners pc).grp 0).liveSplits = [1, 3] ∧ ((joiners pc).split 0 1).tags = [] ++ [.tag 0] ∧
    ((joiners pc).split 0 3).tags = [.tag 5] ++ [.tag 0] ∧ ((joiners pc).split 0 1).stall = some .join ∧
    ((joiners pc).split 0 3).stall = some .join ∧ ((joiners pc).split 0 1).drained = true ∧ ((joiners pc).split 0 3).drained = true :=
  fun _ => ⟨rfl, rfl, rfl, rfl, rfl, rfl, rfl⟩

/-- The last split of its group, and one of four. -/
theorem witness_ExitEnds : (world.ready 0 0 [] ∧ (world.split 0 0).inHandler = false ∧ (world.split 0 0).drained = true) ∧
    (fourSplits.ready 0 0 [] ∧ (fourSplits.split 0 0).inHandler = false ∧ (fourSplits.split 0 0).drained = true ∧
      1 < (fourSplits.grp 0).liveSplits.length) ∧
    (let s := withP (fun p => { p with live := false })
     (s.grp 0).st = .active ∧ (s.grp 0).liveSplits = [] ∧ (s.grp 0).acc = [] ∧ (∀ f, (s.grp 0).flagCount f = 0) ∧
      ∀ c, (s.grp 0).counter c = 0) :=
  ⟨⟨⟨rfl, rfl, rfl⟩, rfl, rfl⟩, ⟨⟨rfl, rfl, rfl⟩, rfl, rfl, by decide⟩, rfl, rfl, rfl, fun _ => rfl, fun _ => rfl⟩

/-! ## Witnesses: clauses, waits, exec and masks -/

/-- A clause of two units at VA 0: a header of LEN 2 that waits for f0, and two nops of 64 bits' worth of zeros. -/
def clauseBytes : List Byte := leBytes 8 0x2FF001A7

def withClause (f : Split → Split) : State := { withP f with hbm := (Memory.writeN [] 0x10000 clauseBytes) }

theorem witness_lrunEnqueues : ∃ h t, lrunOf (.lrunr 0 0) (withClause id) 0 = some ([0], 0) ∧ (withClause id).ready 0 0 [0] ∧
    ((withClause id).split 0 0).target.length < 8 ∧ (withClause id).clauseFetched 0 0 h t :=
  ⟨_, _, rfl, ⟨rfl, rfl, rfl⟩, by decide, rfl, _, _, _, rfl, rfl, rfl, rfl⟩

theorem witness_lrunMisaligned : lrunOf (.lrunr 5 0) world 0 = some ([5], 7) ∧ world.ready 0 0 [5] ∧ (world.split 0 0).target.length < 8 ∧
    (7 : W64).toNat % 8 ≠ 0 := ⟨rfl, ⟨rfl, rfl, rfl⟩, by decide, by decide⟩

theorem witness_ClauseStarts : ∃ u hb h, let s := withClause (fun p => { p with
      queue := [{ kind := .clause 0 0, val := 0xFF, no := 0, pc := 0x100 }] })
    s.laneMay 0 0 = true ∧ (s.split 0 0).inHandler = false ∧ (s.split 0 0).run = none ∧ (s.split 0 0).hrun = none ∧
    (s.split 0 0).queue = { kind := .clause 0 0, val := 0xFF, no := 0, pc := 0x100 } :: [] ∧
    s.fetchHalves (some (s.grp 0).core) 0 4 = (u, .ok hb) ∧ headerOf hb = some h ∧ h.wait = 1 ∧ (s.grp 0).flagsClear h.wait = true ∧
      ({ s.grp 0 with flags := [(0, 1)] } : Group).flagsClear h.wait = false :=
  ⟨_, _, _, rfl, rfl, rfl, rfl, rfl, rfl, rfl, rfl, rfl, rfl⟩

theorem witness_ScalarWaits : (world.ready 0 0 [] ∧ (world.split 0 0).clausesStarted = true ∧
      ∀ k, k < 12 → (0xFFF : BitVec 12).getLsbD k = true → (world.grp 0).flagCount k = 0) ∧
    (let s := withG (fun x => { x with flags := [(11, 1)] })
     s.ready 0 0 [] ∧ (0x800 : BitVec 12).getLsbD 11 = true ∧ (s.grp 0).flagCount 11 ≠ 0) ∧
    (waitcOf (.waitcGld 0) = some (0, 0) ∧ world.ready 0 0 [0] ∧ (world.split 0 0).clausesDone = true ∧
      ((world.grp 0).counter 0).toNat ≤ (world.sreg 0).toNat) ∧
    (let s := withG (fun x => { x with counters := [(5, 8)] })
     waitcOf (.waitcRem 5) = some (5, 5) ∧ s.ready 0 0 [5] ∧ (s.sreg 5).toNat < ((s.grp 0).counter 5).toNat) ∧
    (let s := withP (fun p => { p with queue := [{ kind := .clause 0 0, val := 0, no := 0, pc := 0 }] })
     s.ready 0 0 [5] ∧ (s.split 0 0).clausesStarted = false ∧ (s.split 0 0).clausesDone = false) := by
  refine ⟨⟨⟨rfl, rfl, rfl⟩, rfl, ?_⟩, ⟨⟨rfl, rfl, rfl⟩, rfl, ?_⟩, ⟨rfl, ⟨rfl, rfl, rfl⟩, rfl, ?_⟩, ⟨rfl, ⟨rfl, rfl, rfl⟩, ?_⟩, ⟨rfl, rfl, rfl⟩, rfl, rfl⟩ <;>
    decide

theorem witness_execWrites : (execWriter (.execAnd 15)).isSome = true ∧ (execWriter .execAll).isSome = true ∧ world.ready 0 0 [] ∧
    (world.grp 0).liveSplits.length ≤ 1 ∧ (15 : BitVec 6).toNat < 16 ∧ world.maskAwaited 0 0 15 = false ∧
    ((execWriter (.execOr 16)).isSome = true ∧ 16 ≤ (16 : BitVec 6).toNat) ∧
    (let s := withP (fun p => { p with queue := [{ kind := .mset 15, val := 0, no := 0, pc := 0 }] })
     s.ready 0 0 [] ∧ s.maskAwaited 0 0 15 = true) ∧
    (fourSplits.ready 0 0 [] ∧ 1 < (fourSplits.grp 0).liveSplits.length) ∧ world.ready 0 0 [3] :=
  ⟨rfl, rfl, ⟨rfl, rfl, rfl⟩, by decide, by decide, rfl, ⟨rfl, by decide⟩, ⟨⟨rfl, rfl, rfl⟩, rfl⟩, ⟨⟨rfl, rfl, rfl⟩, by decide⟩, rfl, rfl, rfl⟩

theorem witness_maskReads : (world.ready 0 0 [3] ∧ world.maskAwaited 0 0 15 = false) ∧
    (world.ready 0 0 [3] ∧ (639 : BitVec 10).toNat < 640 ∧ (31 : BitVec 6).toNat < (world.grp 0).desc.w ∧
      (world.grp 0).popOf (639 : BitVec 10).toNat = none ∧ world.regAwaited 0 0 639 = false ∧ 639 ∉ (world.grp 0).vBad) := by
  refine ⟨⟨⟨rfl, rfl, rfl⟩, rfl⟩, ⟨rfl, rfl, rfl⟩, ?_, ?_, ?_, rfl, ?_⟩ <;> decide

theorem witness_laneWritesEnqueue : (world.ready 0 0 [4] ∧ (15 : BitVec 6).toNat < 16 ∧ (world.split 0 0).target.length < 8) ∧
    (world.ready 0 0 [4] ∧ (0 : BitVec 10).toNat < 640 ∧ (31 : BitVec 6).toNat < (world.grp 0).desc.w ∧
      (world.grp 0).popOf (0 : BitVec 10).toNat = none) := by
  refine ⟨⟨⟨rfl, rfl, rfl⟩, ?_, ?_⟩, ⟨rfl, rfl, rfl⟩, ?_, ?_, ?_⟩ <;> decide

/-- The head of the lane queue is one entry. -/
def headed (e : QEntry) : State := withG (fun x => { x with
  fpctlQ := [(0, 5)]
  splits := [(0, { split0 with queue := [e] })] })

theorem witness_laneWritesPerform : ∀ e, (headed e).headIs 0 0 e [] ∧ ((headed e).grp 0).maskBusy 15 = false ∧
    ((headed e).grp 0).regBusy 3 1 = false ∧ 3 ∉ (headed e).heldRegs 0 ∧ ((headed e).grp 0).fpctlQ = (0, 5) :: [] :=
  fun _ => ⟨⟨rfl, rfl, rfl, rfl, rfl⟩, rfl, rfl, List.not_mem_nil (a := 3), rfl⟩

/-! ## Witnesses: scalar memory and special registers -/

theorem witness_ScalarAccessIssues : ∃ u pa, (scalarAccessOf (.lds 3 4 0) world) = some ([3, 4], .lds, 8, 3, 0, 0) ∧ world.ready 0 0 [3, 4] ∧
    world.scalarHeld 0 0 = false ∧ (world.fresh.2).translate (some (world.grp 0).core) (doubleword 8) AccOp.lds.need = (u, .ok pa) ∧ pa = 0x10008 :=
  ⟨_, _, rfl, ⟨rfl, rfl, rfl⟩, rfl, rfl, rfl⟩

/-- One scalar access in flight, of the last doubleword of HBM. -/
def scalarEnd (op : AccOp) (dst : Nat) : State := withG (fun x => { x with acc := [scalarAccess 9 0 0 op 0 0x5FFFFFFFF8 dst 3 4 0x100] })

theorem witness_ScalarAccessEnds : ∀ op dst, (scalarEnd op dst).hbm.wf = true ∧
    ((scalarEnd op dst).grp 0).acc.find? (fun b => b.id == 9) = some (scalarAccess 9 0 0 op 0 0x5FFFFFFFF8 dst 3 4 0x100) ∧
    ((scalarEnd op dst).grp 0).mayPerform (scalarAccess 9 0 0 op 0 0x5FFFFFFFF8 dst 3 4 0x100) = true ∧
    (scalarEnd op dst).hbmBadIn 0x5FFFFFFFF8 8 = false := fun _ _ => ⟨rfl, rfl, rfl, rfl⟩

/-- An address that the page maps, and one that no table maps. -/
theorem witness_ServiceAccess : ∃ u v, (scalarAccessOf (.atomsCas 3 4 5) service) = some ([3, 4, 5], .atoms 4, 8, 3, 7, 0) ∧
    service.translate none (doubleword 8) (AccOp.atoms 4).need = (u, .ok 0x10008) ∧ u.hbmBadIn 0x10008 8 = false ∧
    (scalarAccessOf (.lds 3 4 0x1FF8) service) = some ([3, 4], .lds, 0x2000, 3, 0, 0) ∧
    service.translate none (doubleword 0x2000) AccOp.lds.need = (v, .fault 0) := ⟨_, _, rfl, rfl, rfl, rfl, rfl⟩

theorem witness_csrReads : world.ready 0 0 [3, 0] ∧ world.csrValue 0 0 0x021 = some 0 ∧ (world.split 0 0).drained = true ∧
    service.csrServiceValue 0 0x801 = some 0 ∧ service.cur = .service 0 ∧ (world.grp 0).core = 96 * 0 + 8 * 0 + 0 ∧
    (191 = 96 * 1 + 8 * 11 + 7 ∧ 7 < 8 ∧ 11 < 12) ∧
    (∃ m, ({ world with teams := [(0, { launch := 0, cluster := 0, rank := 0, core := 0, corner := 0, spbase := 0x1FFF80, tiles := [], bank := none, resident := true })] } :
      State).teams.find (world.grp 0).team = some m) := ⟨⟨rfl, rfl, rfl⟩, rfl, rfl, rfl, rfl, rfl, by decide, _, rfl⟩

theorem witness_csrGroupWrites : csrWriter (.csrs 3 4 0x010) = some (2, 3, 4, 0x010) ∧ csrWriter (.registerWrite 3 3 4 0x050) = some (3, 3, 4, 0x050) ∧
    csrWriter (.fpstatWrite 1 3 4) = some (1, 3, 4, 0x021) ∧ csrWriter (.fpctlWrite 1 3 4) = some (1, 3, 4, 0x020) ∧
    csrWriter (.csrw 3 4 0) = some (1, 3, 4, 0) ∧ world.ready 0 0 [3, 4] ∧ (world.split 0 0).drained = true ∧
    (world.split 0 0).target.length < 8 := ⟨rfl, rfl, rfl, rfl, rfl, ⟨rfl, rfl, rfl⟩, rfl, by decide⟩

/-- TROOT of 1 MiB at the last place of HBM, closed ports and open ones. -/
theorem witness_CsrServiceWrites : csrWriter (.csrw 3 4 0x801) = some (1, 3, 4, 0x801) ∧ csrWriter (.wpdataWrite 1 3 4) = some (1, 3, 4, 0x815) ∧
    csrWriter (.trootWrite 1 3 4) = some (1, 3, 4, 0x810) ∧ csrWriter (.csrw 3 4 0x800) = some (1, 3, 4, 0x800) ∧ service.cur = .service 0 ∧
    service.csrServiceValue 0 0x810 = some 0 ∧ service.portsOpen = false ∧ ({ service with portsOpen := true } : State).portsOpen = true ∧
    bringUpRule 0x810 (csrNew 1 0 0x5FFFF00000) ∧ ¬ bringUpRule 0x810 (csrNew 1 0 0x6000000000) ∧ ¬ bringUpRule 0x813 9 ∧ bringUpRule 0x813 20 ∧
    bringUpRule 0x812 (csrNew 1 0 64) ∧ service.hbmBadIn (csrNew 1 0 64).toNat 48 = false := by
  refine ⟨rfl, rfl, rfl, rfl, rfl, rfl, rfl, rfl, ?_, ?_, ?_, ?_, ?_, rfl⟩ <;> (unfold bringUpRule; decide)

/-! ## Witnesses: barriers and the system family -/

/-- s4 names barrier 127 of core 0, whose barrier expects two arrivals. -/
def barriered (n : BitVec 16) : State := { withP (fun p => { p with regs := [(4, 127), (5, 7)] }) with
  cores := [(0, { Core.reset with bars := [(127, { Barrier.reset with
    expect := 2
    arrivals := n })] })] }

theorem witness_barrierSets : (barriered 0).barRuns 0 0 [5] 4 1 0 127 ∧ ((barriered 0).sreg 5).toNat < 2 ^ 48 ∧
    ((barriered 0).bar 0 127).arrivals < ((barriered 0).bar 0 127).expect ∧ ((barriered 2).bar 0 127).expect ≠ 0 ∧
    ((barriered 2).bar 0 127).expect ≤ ((barriered 2).bar 0 127).arrivals ∧
    ((barriered 2).bar 0 127).ebytes + ((barriered 2).sreg 0).setWidth 32 ≤ ((barriered 2).bar 0 127).nbytes ∧
    (barriered 2).barRuns 0 0 [0] 4 1 0 127 ∧ (∀ m, ((barriered 2).split 0 0).stall ≠ some (.barrier 0 127 m)) ∧
    barOf (.barTest 5 0 4) = some ([0], 5, 4) ∧ world.ready 0 0 [5, 0] ∧ ((4 : BitVec 3) ≠ 1 ∧ (4 : BitVec 3) ≠ 2) ∧
    128 ≤ ((withP (fun p => { p with regs := [(5, 128)] })).sreg 5).toNat :=
  ⟨⟨⟨rfl, rfl, rfl⟩, Or.inl rfl, rfl, rfl, by decide⟩, by decide, by decide, by decide, by decide, by decide,
    ⟨⟨rfl, rfl, rfl⟩, Or.inl rfl, rfl, rfl, by decide⟩, fun _ => show (none : Option Stall) ≠ _ from nofun, rfl, ⟨rfl, rfl, rfl⟩, by decide, by decide⟩

/-- An arrival short of the count, and the one that meets it. -/
theorem witness_barrierArrives : (∀ n, (barriered n).barRuns 0 0 [] 4 2 0 127 ∧ (barriered n).arriveHeld 0 0 = false ∧
      ∀ m, ((barriered n).split 0 0).stall ≠ some (.barrier 0 127 m)) ∧
    ((barriered 0).bar 0 127).arrivals + 1 < ((barriered 0).bar 0 127).expect ∧ ((barriered 1).bar 0 127).arrivals.toNat + 1 < 2 ^ 16 ∧
    ((barriered 1).bar 0 127).arrivals + 1 = ((barriered 1).bar 0 127).expect ∧
    ((barriered 1).bar 0 127).ebytes ≤ ((barriered 1).bar 0 127).nbytes := by
  refine ⟨fun n => ⟨⟨⟨rfl, rfl, rfl⟩, Or.inr rfl, rfl, rfl, by decide⟩, rfl, fun _ => show (none : Option Stall) ≠ _ from nofun⟩, ?_, ?_, ?_, ?_⟩ <;> decide

/-- s0 and s5 hold both values of bit 0; core 3 has been sent a message. -/
theorem witness_barrierWaits : (barriered 0).barRuns 0 0 [5] 4 1 0 127 ∧ ((barriered 0).grp 0).core = 0 ∧
    ((barriered 0).bar 0 127).phase ≠ ((barriered 0).sreg 5).getLsbD 0 ∧ (barriered 0).barRuns 0 0 [0] 4 1 0 127 ∧
    ((barriered 0).bar 0 127).phase = ((barriered 0).sreg 0).getLsbD 0 ∧ ((barriered 0).split 0 0).waitsAt 0 127 = false ∧
    (let s := withP (fun p => { p with
        regs := [(4, 127)]
        stall := some (.barrier 0 127 1) })
     s.barRuns 0 0 [0] 4 1 0 127 ∧ (s.split 0 0).stall = some (.barrier 0 127 1)) ∧
    (world.setBar 0 0 { Barrier.reset with msgs := [(3, true)] }).bar 0 0 = { Barrier.reset with msgs := (3, true) :: [] } :=
  ⟨⟨⟨rfl, rfl, rfl⟩, Or.inl rfl, rfl, rfl, by decide⟩, rfl, by decide, ⟨⟨rfl, rfl, rfl⟩, Or.inl rfl, rfl, rfl, by decide⟩, rfl, rfl,
    ⟨⟨⟨rfl, rfl, rfl⟩, Or.inl rfl, rfl, rfl, by decide⟩, rfl⟩, rfl⟩

theorem witness_FenceWaits : (fenceOf (.fenceAcqRel 4) = some (true, true, 4) ∧ world.ready 0 0 [] ∧ (4 : BitVec 3).toNat ≤ 4 ∧
      (world.split 0 0).clausesDone = true ∧ (world.grp 0).acc = [] ∧ world.anyCmd 0 = false) ∧
    (let a := scalarAccess 9 0 0 .lds 0 0x10000 3 0 0 0x100
     (scalarEnd .lds 3).ready 0 0 [] ∧ (∃ a, a ∈ ((scalarEnd .lds 3).grp 0).acc ∧ a.performed = false ∧ a.op.returns = true) ∧ a.op.returns = true) ∧
    service.cur = .service 0 :=
  ⟨⟨rfl, ⟨rfl, rfl, rfl⟩, by decide, rfl, rfl, rfl⟩, ⟨⟨rfl, rfl, rfl⟩, ⟨_, List.mem_cons_self, rfl, rfl⟩, rfl⟩, rfl⟩

theorem witness_trapRaises : (world.ready 0 0 [4] ∧ (world.split 0 0).inHandler = false ∧ (world.grp 0).utvec ≠ 0) ∧
    (let s := withG (fun x => { x with utvec := 0 })
     s.ready 0 0 [4] ∧ (s.split 0 0).inHandler = false ∧ (s.grp 0).utvec = 0) ∧
    (let s := withP (fun p => { p with inHandler := true })
     s.ready 0 0 [4] ∧ (s.split 0 0).inHandler = true) :=
  ⟨⟨⟨rfl, rfl, rfl⟩, rfl, by decide⟩, ⟨⟨rfl, rfl, rfl⟩, rfl, rfl⟩, ⟨rfl, rfl, rfl⟩, rfl⟩

theorem witness_trapEntersAndReturns :
    (let s := withP (fun p => { p with traps := [{ code := 2, mask := 1, pc := 0x100, info := 8 }] })
     (s.grp 0).st = .active ∧ (s.grp 0).cur = 0 ∧ (s.grp 0).trapSplit = some 0 ∧ (s.split 0 0).traps = [{ code := 2, mask := 1, pc := 0x100, info := 8 }]) ∧
    (∀ c, let s := withP (fun p => { p with
        inHandler := true
        utcause := c })
     s.ready 0 0 [] ∧ (s.split 0 0).inHandler = true ∧ (s.split 0 0).handlerDone = true) ∧ (world.split 0 0).inHandler = false :=
  ⟨⟨rfl, rfl, rfl, rfl⟩, fun _ => ⟨⟨rfl, rfl, rfl⟩, rfl, rfl⟩, rfl⟩

/-- A trap of this clock, of a group that is Saved; STVEC 0 and another. -/
theorem witness_FatalTrapKills : ∀ b, (let f : Dying := { launch := 0, group := 0, split := 0, prio := 3, by_ := .scalar 0 0, body := b }
      let s : State := { withG (fun x => { x with st := .saved }) with
        fatals := [f]
        ringDescs := [(0, { base := 0x20000, log2n := 1 })] }
      f ∈ s.trapsDue ∧ s.groups.find? (fun p => p.1 == 0) = some (0, s.grp 0) ∧ (s.grp 0).launch = f.launch ∧ (s.grp 0).st ≠ .exited ∧
        (s.grp 0).st ≠ .unplaced ∧ s.launch f.launch = some launch0 ∧ f.launch < s.nextLaunch ∧
        s.ringDescs.find 0 = some { base := 0x20000, log2n := 1 }) ∧
    (service.svc 0).stvec = 0 ∧ ((service.setSvc 0 { service.svc 0 with stvec := 0x80 }).svc 0).stvec ≠ 0 :=
  fun _ => ⟨⟨List.mem_cons_self, rfl, rfl, nofun, nofun, rfl, Nat.zero_lt_one, rfl⟩, rfl, by decide⟩

/-- A group of the same sector is ready, or none is. -/
theorem witness_yieldsGoOn : (world.ready 0 0 [] ∧ world.otherReady 0 = false) ∧
    (let s : State := { world with
        groups := [(0, group0), (1, { group0 with st := .pending })]
        cores := [(0, { Core.reset with sectors := [(0, { active := [0], pending := [1], swaps := [] })] })] }
     s.ready 0 0 [] ∧ s.otherReady 0 = true) ∧
    (world.ready 0 0 [0, 2, 3] ∧ (2 : BitVec 6).getLsbD 0 = false ∧ world.yieldpOk 0 (world.sreg 0) (world.sreg 2) (world.sreg 3) = true ∧
      ((world.launch (world.grp 0).launch).bind (·.req)) = none) ∧
    (let s : State := { world with launches := [(0, { launch0 with req := some 100 })] }
     s.ready 0 0 [0, 2, 3] ∧ s.yieldpOk 0 (s.sreg 0) (s.sreg 2) (s.sreg 3) = true ∧ ((s.launch (s.grp 0).launch).bind (·.req)) ≠ none ∧
       (s.grp 0).liveSplits = [0] ∧ (s.grp 0).st = .active) := by
  refine ⟨⟨⟨rfl, rfl, rfl⟩, rfl⟩, ⟨⟨rfl, rfl, rfl⟩, rfl⟩, ⟨⟨rfl, rfl, rfl⟩, rfl, ?_, rfl⟩, ⟨rfl, rfl, rfl⟩, ?_, ?_, rfl, rfl⟩ <;> decide

/-- A split that waits for an answer: of the Capstan; of the service, whose ring entry says that it has been answered, or which has been read; of a GDEC
about node 0 at each count, and about node 9. -/
theorem witness_callsAnswer : (world.ready 0 0 [4, 5] ∧ (world.sreg 4).toNat < 2 ^ 32) ∧
    ((withP (fun p => { p with stall := some (.capstan 2 3) })).split 0 0).stall = some (.capstan 2 3) ∧
    (let c : SvcCall := { group := 0, split := 0, launch := 0, code := 0, arg := 9, entry := some 0x20040 }
     let s : State := { withP (fun p => { p with stall := some (.svc 6 3) }) with
       calls := [(6, c)]
       hbm := Memory.writeN [] 0x2005F [0x80] }
     (s.split 0 0).stall = some (.svc 6 3) ∧ s.calls.find 6 = some c ∧ c.entry = some 0x20040 ∧ s.hbmBadIn (0x20040 + 0x10) 16 = false ∧
       (s.hbm.read (0x20040 + 0x1F)).getLsbD 7 = true ∧ c.answer = none ∧
       ({ s with calls := [(6, { c with answer := some 5 })] } : State).calls.find 6 = some { c with answer := some 5 }) ∧
    (∀ n c, let x : Run := { run1 with nodes := [(0, NodeSt.init c)] }
     let s : State := { withP (fun p => { p with stall := some (.gdec n 3) }) with runs := [(1, x)] }
     (s.split 0 0).stall = some (.gdec n 3) ∧ s.runOf 0 = some 1 ∧ s.run 1 = some x ∧ (s.node x.graph 0).isSome = true ∧ s.node x.graph 9 = none ∧
       (x.nodeSt 0).counter = c) :=
  ⟨⟨⟨rfl, rfl, rfl⟩, by decide⟩, rfl, ⟨rfl, rfl, rfl, rfl, rfl, rfl, rfl⟩, fun _ _ => ⟨rfl, rfl, rfl, rfl, rfl, rfl⟩⟩

/-! ## Witnesses: the supervisor family and the Capstan -/

theorem witness_Privilege : groupWord .join = some () ∧ service.cur = .service 0 ∧ supervisorWord (.tlbi 3 4) = some () ∧ world.ready 0 0 [] :=
  ⟨rfl, rfl, rfl, ⟨rfl, rfl, rfl⟩⟩

/-- Service core 0 with two register values. -/
def serving (a b : W64) : State := service.setSvc 0 { service.svc 0 with regs := [(4, a), (5, b)] }

/-- Addresses at the end of HBM, past it, and not aligned; cores 191, all, and 192. -/
theorem witness_tableWrites : (serving 0x5FFFFFFFF8 191).cur = .service 0 ∧ ((serving 0x5FFFFFFFF8 191).sreg 4).toNat % 8 = 0 ∧
    ((serving 0x5FFFFFFFF8 191).sreg 4).toNat + 8 ≤ 0x6000000000 ∧ 0x6000000000 < ((serving 0x6000000000 0).sreg 4).toNat + 8 ∧
    ((serving 4 0).sreg 4).toNat % 8 ≠ 0 ∧ ((serving 0 191).sreg 5).toNat < 192 ∧ (serving 0 0xFFFF).sreg 5 = 0xFFFF ∧
    (192 ≤ ((serving 0 192).sreg 5).toNat ∧ (serving 0 192).sreg 5 ≠ 0xFFFF) := by
  refine ⟨rfl, ?_, ?_, ?_, ?_, ?_, rfl, ?_, ?_⟩ <;> decide

/-- A record of the group's access that stands in the queue as number 1. -/
def record0 : FRec := { id := 3, seq := 1, va := 0x2000, lanes := 1, core := 0, kind := 2, split := 0, cause := 0, slot := 0, tag := 0, eng := 0,
                        time := 0, owner := .access 0 0 9, status := .queued, numbered := true, resolved := false, addr := 0x100, since := 0 }

/-- The service asks about sequence number `n`. -/
def asking (n : W64) : State := { serving n 7 with frecs := [record0] }

theorem witness_faultQueueRequests : service.oldest = none ∧ (asking 1).oldest = some record0 ∧
    (∃ u, (asking 0).writeVirt none none ((asking 0).sreg 4) ((asking 0).hbmRead ((asking 0).fqSlot record0.seq) 32) = (u, .ok ())) ∧
    (asking 0).hbmBadIn ((asking 0).fqSlot record0.seq) 32 = false ∧ (asking 1).cur = .service 0 ∧ (asking 1).liveRecord ((asking 1).sreg 4) = some record0 ∧ (asking 1).ownerGroup record0.owner = some 0 ∧
    (asking 2).liveRecord ((asking 2).sreg 4) = none ∧
    (let r := { record0 with owner := .remote { source := 3, message := 7, va := 8, kind := .read 4 } }
     ({ asking 1 with frecs := [r] } : State).liveRecord ((asking 1).sreg 4) = some r) := ⟨rfl, rfl, ⟨_, rfl⟩, rfl, rfl, rfl, rfl, rfl, rfl⟩

/-- Core 191, every core, one that there is not; an entry of the sail plan, 32 bytes at 0, one of the stream 64, and an entry number above 4095. -/
theorem witness_CoreControl : coreCtlOf (.coreCtlReset 4 5) = some (4, 5) ∧ (((serving 191 1).sreg 4).toNat < 192 ∧ ((serving 191 1).sreg 5).toNat ≤ 1) ∧
    (serving 191 2).sreg 5 = 2 ∧ (serving 0xFFFF 0).sreg 4 = 0xFFFF ∧
    (192 ≤ ((serving 192 0).sreg 4).toNat ∧ (serving 192 0).sreg 4 ≠ 0xFFFF) ∧ 2 < ((serving 0 3).sreg 5).toNat ∧
    (((serving 4095 0).sreg 4).toNat < 4096 ∧ ∃ u bs e, (serving 4095 0).readVirt none { r := true } ((serving 4095 0).sreg 5) 32 = (u, .ok bs) ∧
      sailOf bs u.time = some e) ∧
    4095 < ((serving 4096 0).sreg 4).toNat ∧
    ∃ u bs, ({ serving 0 0 with hbm := Memory.writeN [] 0x1000A [64] } : State).readVirt none { r := true } ((serving 0 0).sreg 5) 32 = (u, .ok bs) ∧
      sailOf bs u.time = none := by
  refine ⟨rfl, ⟨?_, ?_⟩, rfl, rfl, ⟨?_, ?_⟩, ?_, ⟨?_, _, _, _, rfl, rfl⟩, ?_, _, _, rfl, rfl⟩ <;> decide

/-- STATUS of run 1, its block at 0; code 8 and a block at 4. -/
theorem witness_capRequestRuns : ∃ u v bs r, capCtlOf (.capCtlStatus 4 5) = some (4, 5) ∧ (serving 6 0).cur = .service 0 ∧
    ((serving 6 0).sreg 4).toNat < 8 ∧ ((serving 6 0).sreg 5).toNat % 8 = 0 ∧
    (serving 6 0).readVirt none { r := true } ((serving 6 0).sreg 5) 64 = (u, .ok bs) ∧
    r = capRequest ((serving 6 0).sreg 4).toNat u (fun j => BitVec.ofNat 64 (numAt bs (8 * j) 8)) ∧
    r.s.writeWords ((serving 6 0).sreg 5) (r.words ++ [(0x38, BitVec.ofNat 64 r.result)]) = (v, .ok ()) ∧
    8 ≤ ((serving 8 0).sreg 4).toNat ∧ ((serving 0 4).sreg 5).toNat % 8 ≠ 0 :=
  ⟨_, _, _, _, rfl, rfl, by decide, by decide, rfl, rfl, rfl, by decide, by decide⟩

/-- The request words. -/
def words (l : List W64) (k : Nat) : W64 := l.getD k 0

/-- A graph image of one node, its END. -/
def graphBytes : List Byte := leBytes 4 0x4B474731 ++ leBytes 2 1 ++ leBytes 2 1 ++ leBytes 8 0 ++ leBytes 8 64 ++ leBytes 8 64

theorem witness_capRequestEffects :
    (let s : State := { world with runs := [] }
     (s.graphs.find ((words [0, 63, 7]) 0).toNat).isSome = true ∧ ((words [0, 63, 7]) 1).toNat ≤ 63 ∧ ((words [0, 63, 7]) 2).toNat ≤ 7 ∧
      words [0, 63, 7] 5 = 0 ∧ s.streamBusy 63 = false ∧ s.graphBusy 0 = false ∧ ∀ p ∈ s.runs, p.2.graph = 0 → p.2.st = .ended) ∧
    (world.run ((words [1]) 0).toNat = some run1 ∧ run1.st ≠ .ended ∧ run1.st ≠ .suspended) ∧
    (∀ x, ({ world with runs := [(1, { run1 with st := x })] } : State).run 1 = some { run1 with st := x }) ∧
    ((1, run1) ∈ world.runs ∧ run1.graph = 0 ∧ run1.st ∈ [.held, .running, .saving] ∧ world.graphs.find ((words [1]) 0).toNat = none ∧
      world.run ((words [9]) 0).toNat = none) ∧
    (∃ t n, world.readGraph ((words [0]) 0) = (t, .refused n)) ∧
    (∃ t g bs, ({ world with hbm := Memory.writeN [] 0x10000 graphBytes } : State).readGraph ((words [0]) 0) = (t, .ok g bs) ∧ t.graphRoom g = true) ∧
    (∀ n, world.graphRoom { nodes := List.replicate 65536 n, edges := [], endNode := 0 } = false) ∧
    (1000 ≤ (words [1000] 0).toNat ∧ (words [10000000000] 0).toNat ≤ 10000000000) := by
  refine ⟨⟨rfl, ?_, ?_, rfl, rfl, rfl, ?_⟩, ⟨rfl, ?_, ?_⟩, fun _ => rfl, ⟨?_, rfl, ?_, rfl, rfl⟩, ⟨_, _, rfl⟩, ⟨_, _, _, rfl, ?_⟩, fun n => ?_, ?_, ?_⟩
  case refine_9 =>
    have : ¬(world.graphs.foldl (fun n p => n + p.2.nodes.length) 0) + (List.replicate 65536 n).length ≤ 65536 := by
      rw [List.length_replicate]; decide
    simp only [State.graphRoom, this, decide_false, Bool.and_false, Bool.false_and]
  all_goals decide

/-! ## Witnesses: guards, contexts, graph instructions -/

/-- s4, s5 and s6 hold three values. -/
def valued (a b c : W64) (f : Group → Group) : State := withG (fun x => f { x with
  splits := [(0, { split0 with regs := [(4, a), (5, b), (6, c)] })] })

/-- A context of the core, with the state it stands in. -/
def hal0 : HalCtx := { HalCtx.reset with
  running := true
  pc := 0x40
  h := [(1, 5), (2, 3)] }
def contexts (h : HalCtx) (s : State) : State := { s with cores := [(0, { Core.reset with
  hal := [(7, h)]
  tlb := [fetchPage] })] }

theorem witness_guardsAndPermits : ((valued 15 0 0 id).ready 0 0 [4, 5] ∧ ((valued 15 0 0 id).sreg 4).toNat < 16 ∧
      (valued 15 0 0 id).slotNamed 0 15 = false) ∧
    (let s := contexts hal0 (valued 7 0 0 id)
     s.ready 0 0 [4] ∧ (s.sreg 4).toNat < 8 ∧ (s.hal (s.grp 0).core 7).running = true ∧ (s.hal (s.grp 0).core 7).owner = 0) ∧
    ((valued 7 0 0 id).ready 0 0 [4] ∧ ((valued 7 0 0 id).hal 0 7).running = false) ∧
    ((valued (7 + 256 * 3) 64 0 id).ready 0 0 [4, 5] ∧ (valued (7 + 256 * 3) 64 0 id).sreg 4 = BitVec.ofNat 64 (7 + 256 * 3) ∧
      ((valued (7 + 256 * 3) 64 0 id).sreg 5).toNat ≤ 64) ∧
    ((valued 16 0 0 id).ready 0 0 [4, 5] ∧ 15 < ((valued 16 0 0 id).sreg 4).toNat) ∧
    (let o : SeOps := { a := 0, b := 0, g := 15, acq := false, rel := false, scope := 0 }
     let m : Cmd := { id := 5, tag := 0, group := 0, split := 0, row := .tfset o, vals := [], addr := 0x100, ctx := none, pops := 0, after := 5,
                      started := false, finished := false, parked := false, progress := 0, bytes := 0, held := [], recs := [], reads := [],
                      plan := none }
     let s : State := { valued 15 0 0 id with cores := [(0, { Core.reset with queues := [(1, [m])] })] }
     s.ready 0 0 [4] ∧ (s.sreg 4).toNat < 16 ∧ s.slotNamed 0 15 = true) := by
  refine ⟨⟨⟨rfl, rfl, rfl⟩, ?_, rfl⟩, ⟨⟨rfl, rfl, rfl⟩, ?_, rfl, rfl⟩, ⟨⟨rfl, rfl, rfl⟩, rfl⟩, ⟨⟨rfl, rfl, rfl⟩, rfl, ?_⟩, ⟨⟨rfl, rfl, rfl⟩, ?_⟩,
    ⟨rfl, rfl, rfl⟩, ?_, ?_⟩ <;> decide

/-- Context 7 is idle, runs for another group, or for this one. -/
theorem witness_hstartStarts : let s := valued (7 + 256 * 0xFFFFFF) 0 0 id
    s.ready 0 0 [4, 60, 61, 62, 63] ∧ (60 : BitVec 6).toNat % 4 = 0 ∧ s.sreg 4 = BitVec.ofNat 64 (7 + 256 * 0xFFFFFF) ∧ (s.hal 0 7).running = false ∧
    ((contexts { hal0 with owner := 1 } s).hal 0 7).owner ≠ 0 ∧ ((contexts hal0 s).hal 0 7).running = true ∧ ((contexts hal0 s).hal 0 7).owner = 0 :=
  ⟨⟨rfl, rfl, rfl⟩, by decide, rfl, rfl, by decide, rfl, rfl⟩

/-- An address in the page; graph 255 that is not loaded and graph 0 that is, with no run; and what the release covers not performed. -/
theorem witness_GraphInstructions : (∃ u, let s := valued 0xFF8 5 0 id
      s.ready 0 0 [4, 5] ∧ s.relFenced 0 0 = true ∧ s.scalarHeld 0 0 = false ∧ (s.sreg 4).toNat % 8 = 0 ∧
        (s.fresh.2).translate (some (s.grp 0).core) (doubleword (s.sreg 4)) { w := true } = (u, .ok 0x10FF8)) ∧
    (let s := valued 0xFFFFF 5 0 id
     s.ready 0 0 [4, 5] ∧ s.relFenced 0 0 = true ∧ (s.sreg 4).toNat < 2 ^ 20 ∧ s.graphs.find ((s.sreg 4).toNat % 256) = none) ∧
    (let s : State := { valued 0 5 0 id with runs := [] }
     (s.graphs.find ((s.sreg 4).toNat % 256)).isSome = true ∧ s.streamBusy ((s.sreg 4).toNat / 256 % 64) = false ∧
       s.graphBusy ((s.sreg 4).toNat % 256) = false) ∧
    (let s := valued 0 1 0 (fun x => { x with acc := [scalarAccess 9 0 0 .sts 0 0x10000 0 3 4 0x100] })
     s.ready 0 0 [4, 5] ∧ (s.sreg 4).toNat % 8 = 0 ∧ (s.sreg 4).toNat < 2 ^ 20 ∧ s.relFenced 0 0 = false) := by
  refine ⟨⟨_, ⟨rfl, rfl, rfl⟩, rfl, rfl, ?_, rfl⟩, ⟨⟨rfl, rfl, rfl⟩, rfl, ?_, rfl⟩, ⟨rfl, rfl, rfl⟩, ⟨rfl, rfl, rfl⟩, ?_, ?_, rfl⟩ <;> decide

/-! ## Witnesses: engine commands -/

/-- The fields of a command that names s4 and s5 unguarded. -/
def se (a b : BitVec 6) : SeOps := { a := a, b := b, g := 31, acq := false, rel := false, scope := 0 }

/-- TFSET, PIN and WBIND issue; MMA2 has a follower's queue to meet or none. -/
theorem witness_EngineCommandIssues : (∃ u, (valued 0x10F 0 0 id).engineIssues 0 0 (.tfset (se 4 0)) (se 4 0) u) ∧
    (∃ u, (valued 64 0 0 id).engineIssues 0 0 (.pin (se 4 0)) (se 4 0) u) ∧
    ∃ u, (valued 0x200 15 0 id).engineIssues 0 0 (.wbind (se 4 5)) (se 4 5) u :=
  ⟨⟨_, rfl, ⟨rfl, rfl, rfl⟩, rfl, rfl, by decide, by decide, nofun, nofun⟩, ⟨_, rfl, ⟨rfl, rfl, rfl⟩, rfl, rfl, by decide, by decide, nofun, nofun⟩,
    ⟨_, rfl, ⟨rfl, rfl, rfl⟩, rfl, rfl, by decide, by decide, nofun, nofun⟩⟩

/-- A command of group 0 whose words are `vals`. -/
def cmd (i : Instr) (vals : List W64) : Cmd := { id := 5, tag := 0, group := 0, split := 0, row := i, vals := vals, addr := 0x100, ctx := none, pops := 0,
                                                 after := 5, started := false, finished := false, parked := false, progress := 0, bytes := 0, held := [],
                                                 recs := [], reads := [], plan := none }

/-- It stands alone in queue `q` of core 0, whose engine acts. -/
def engine (q : Nat) (m : Cmd) (f : Group → Group) : State := { withG f with
  cur := .engine 0 q
  cores := [(0, { Core.reset with queues := [(q, [m])] })] }

/-- A guard slot unresolved, false and true, and a release behind an access. -/
theorem witness_engineGuards : let o : SeOps := { se 4 0 with g := 15 }
    let r : SeOps := { se 4 0 with rel := true }
    (engine 1 (cmd (.tfset o) []) id).engineHead 0 1 (.tfset o) o (cmd (.tfset o) []) ∧
    ((engine 1 (cmd (.tfset o) []) id).grp 0).guards.get .unresolved 15 = .unresolved ∧
    ((engine 1 (cmd (.tfset o) []) (fun x => { x with guards := [(15, .false)] })).grp 0).guards.get .unresolved 15 = .false ∧
    (engine 1 (cmd (.tfset r) []) (fun x => { x with acc := [scalarAccess 3 0 0 .sts 0 0 0 0 0 0] })).engineHead 0 1 (.tfset r) r (cmd (.tfset r) []) ∧
    (engine 1 (cmd (.tfset r) []) (fun x => { x with acc := [scalarAccess 3 0 0 .sts 0 0 0 0 0 0] })).relReady (cmd (.tfset r) []) = false :=
  ⟨⟨rfl, rfl, rfl, rfl, rfl, rfl, rfl⟩, rfl, rfl, ⟨rfl, rfl, rfl, rfl, rfl, rfl, rfl⟩, rfl⟩

/-- The token at either side of tile 0, labels too or not. -/
theorem witness_EngineCommandsPerform : (∀ v, let m := cmd (.accz (se 4 0)) [v]
      (engine 1 m id).engineHead 0 1 (.accz (se 4 0)) (se 4 0) m ∧ (engine 1 m id).engineOpen (se 4 0) m) ∧
    (let m := cmd (.accz (se 4 0)) [0x100]
     ((engine 1 m id).tile 0 ((engine 1 m id).tileNo 0 (tileOfWord (m.val 0)))).tokenV = false ∧ (m.val 0).getLsbD 8 = true) ∧
    (let m := cmd (.accz (se 4 0)) [0]
     let s : State := { engine 1 m id with
       teams := [(0, { launch := 0, cluster := 0, rank := 0, core := 0, corner := 0, spbase := 0, tiles := [0], bank := none, resident := true })]
       cores := [(0, { Core.reset with
         queues := [(1, [m])]
         tiles := [(0, { Tile.fresh (some 0) with tokenV := true })] })] }
     (s.tile 0 (s.tileNo 0 (tileOfWord (m.val 0)))).tokenV = true ∧ s.engineHead 0 1 (.accz (se 4 0)) (se 4 0) m ∧ s.engineOpen (se 4 0) m) ∧
    (let m := cmd (.glinv (se 0 0)) []
     (engine 2 m id).engineHead 0 2 (.glinv (se 0 0)) (se 0 0) m ∧ (engine 2 m id).engineOpen (se 0 0) m) :=
  ⟨fun _ => ⟨⟨rfl, rfl, rfl, rfl, rfl, rfl, rfl⟩, Or.inr (Or.inl rfl), Or.inr (Or.inl rfl)⟩, ⟨rfl, rfl⟩,
    ⟨rfl, ⟨rfl, rfl, rfl, rfl, rfl, rfl, rfl⟩, Or.inr (Or.inl rfl), Or.inr (Or.inl rfl)⟩,
    ⟨rfl, rfl, rfl, rfl, rfl, rfl, rfl⟩, Or.inr (Or.inl rfl), Or.inr (Or.inl rfl)⟩

theorem witness_engineCommandCompletes :
    (let m := { cmd (.tfset (se 4 0)) [0] with finished := true }
     let s := engine 1 m (fun x => { x with inflight := [{ ctr := 4, id := 5, returned := false }] })
     s.queueOf 0 m.id = some (1, m) ∧ m.finished = true ∧ m.parked = false ∧ m.reads = [] ∧ m.got = [] ∧ (s.grp m.group).inflight = [{ ctr := 4, id := m.id, returned := false }] ∧
      s.barrierOf m = none) ∧
    (let m := cmd (.tfset (se 4 0)) [0]
     (engine 1 m id).queueOf 0 5 = some (1, m) ∧ m.finished = false) :=
  ⟨⟨rfl, rfl, rfl, rfl, rfl, rfl, rfl⟩, rfl, rfl⟩

/-! ## Witnesses: the Halyard -/

/-- Context 7 of core 0 acts. -/
def halState (h : HalCtx) (f : Group → Group) : State := { contexts h (withG f) with cur := .halyard 0 7 }

theorem halRuns7 (f : Group → Group) : (halState hal0 f).halRuns 0 7 ∧ (halState hal0 f).hal 0 7 = hal0 := ⟨⟨rfl, rfl, rfl⟩, rfl⟩

theorem witness_HalyardRegisters : (halState hal0 id).halRuns 0 7 ∧ hlPlain { plainHl with d := 3, a := 3, imm := 0xFFFFFFFE } ∧
    hlPlain plainHl ∧ (15 : BitVec 8).toNat < 16 := ⟨(halRuns7 id).1, ⟨rfl, rfl, rfl⟩, ⟨rfl, rfl, rfl⟩, by decide⟩

/-- Sixteen entries for an empty queue q0, of which `p` have been pushed; a template of TFSET at VA 0x40, in h1. -/
theorem witness_halyardActs : (∀ p, let h : HalCtx := { hal0 with pushed := p }
      (halState h id).halRuns 0 7 ∧ (halState h id).hal 0 7 = h) ∧ ((halState hal0 id).grp hal0.owner).desc.qmap.getLsbD 0 = true ∧
    (halState hal0 id).halReleased 0 7 hal0 = true ∧
    (∃ u bs i e, let h : HalCtx := { hal0 with h := [(1, 0x40)] }
      let s : State := { halState h id with hbm := Memory.writeN [] 0x10040 (leBytes 4 0xC4000008 ++ leBytes 12 0 ++ leBytes 8 0x10F) }
      let vals := (List.range 6).map (fun k => BitVec.ofNat 64 (numAt bs (0x10 + 8 * k) 8))
      s.halRuns 0 7 ∧ s.hal 0 7 = h ∧ (h.h.get 0 (1 : BitVec 4).toNat).toNat % 64 = 0 ∧
      s.readVirt (some 0) { r := true } (h.h.get 0 1) 64 = (u, .ok bs) ∧ templateOk bs = true ∧
      (decodeScalar (templateWord bs h.guard)).toOption = some (.tfset (se 0 0)) ∧ issueOf (.tfset (se 0 0)) = some i ∧
      seOpsOf (.tfset (se 0 0)) = some e ∧ seLegal e i.shape.maxScope = true ∧ i.legal u h.owner vals = true ∧
      u.emitted 0 7 h = [] ∧ u.permitsUsed 0 7 i.shape.queue < h.grants.get 64 i.shape.queue ∧ (u.grp h.owner).counter i.shape.ctr ≠ 0xFFFF ∧
      (u.queue 0 i.shape.queue).length < 16 ∧ i.held vals = [] ∧ u.pairQueue h.owner (.tfset (se 0 0)) = none ∧ (u.grp h.owner).core = 0) := by
  refine ⟨fun _ => ⟨⟨rfl, rfl, rfl⟩, rfl⟩, rfl, rfl, ?_⟩
  · exact ⟨_, _, _, _, ⟨rfl, rfl, rfl⟩, rfl, by decide, rfl, rfl, rfl, rfl, rfl, rfl, rfl, rfl, by decide, by decide, by decide, rfl, rfl, rfl⟩

theorem witness_halyardIllegal : (halState hal0 id).halRuns 0 7 ∧ ({ plainHl with y := 1 } : HlOps).y ≠ 0 := ⟨(halRuns7 id).1, by decide⟩

/-! ## Witnesses: the lane stream -/

/-- A started clause at 0x400 with all 32 lanes. -/
def run0 : Running := { addr := 0x400, off := 4, len := 32, fa := 0, fb := 15, exec := 0xFFFFFFFF, fpctl := 0, no := 0, stopped := false }

/-- The lane stream of the split issues from it, an instruction of eight bytes. v1 is affine from v[1] = 5 by 3, v2 uniform 7. -/
def lane (r : Running) (f : Group → Group) : State := { withG (fun x => f { x with
    v := [(0, .a 0 1), (1, .a 5 3), (2, .u 7), (3, .g (List.replicate 32 9))]
    splits := [(0, { split0 with
      queue := [{ kind := .clause 0x400 0, val := 0xFFFFFFFF, no := 0, pc := 0x100 }]
      run := some r })] }) with
  cur := .lane 0 0
  fetchLen := 8 }

/-- Three registers, a constant, a queue with an entry and without, and v1 with an uncorrectable error; an xpr, whose fifth field is v639. -/
theorem witness_laneOperands : ∃ u, (lane run0 id).cur = .lane 0 0 ∧ ((lane run0 id).split 0 0).issuing = some (false, run0) ∧
    laneUses 0x003 0 = some u ∧ laneLegal 0x003 { plainLane with a := 1020 } = true ∧ laneLegal 0x003 { plainLane with a := 632 } = true ∧
    run0.flagOk 0 = true ∧ ((lane run0 id).grp 0).popsOf 3 u.d.writes = [] ∧ ((lane run0 id).grp 0).regBusy 3 u.d.writes = false ∧
    (lane run0 id).heldRegs 0 = [] ∧ u.d ≠ .maskW ∧
    (∀ q, (((lane run0 id).grp 0).popped 0x003 plainLane u).count q ≤ (((lane run0 id).grp 0).oq.get [] q).length) ∧
    ((lane run0 id).grp 0).popped 0x003 { plainLane with a := 632 } u = [0] ∧ (((lane run0 id).grp 0).oq.get [] 0).length < [0].count 0 ∧
    [0].count 0 ≤ (((lane run0 (fun x => { x with oq := [(0, [.u 4])] })).grp 0).oq.get [] 0).length ∧
    ((lane run0 id).grp 0).activeLanes run0 0 ≠ 0 ∧ (∀ n ∈ ((lane run0 id).grp 0).sources 0x003 plainLane u, n ∉ ((lane run0 id).grp 0).vBad) ∧
    (let x := (lane run0 (fun x => { x with vBad := [1] })).grp 0
     ∃ n ∈ x.sources 0x003 plainLane u, n ∈ x.vBad) ∧
    BitVec.ofNat 10 ((({ plainLane with lit := some (BitVec.ofNat 32 (639 * 2 ^ 22)) } : LaneOps).lit.getD 0).toNat / 2 ^ 22) = 639 :=
  ⟨_, rfl, rfl, rfl, rfl, rfl, rfl, rfl, rfl, rfl, by decide, fun _ => Nat.zero_le _, rfl, by decide, by decide, by decide,
    fun n _ => List.not_mem_nil (a := n), ⟨1, by decide, by decide⟩, by decide⟩

/-- A field that is not legal, a flag that the header does not name, and a destination that pops a queue. -/
theorem witness_laneIllegal : laneOf (.laneAdd plainLane) = some (0x003, plainLane) ∧ laneLegal 0x003 { plainLane with c := 0 } = false ∧
    run0.flagOk 2 = false ∧ (∃ u, laneUses 0x003 0 = some u ∧ ((lane run0 id).grp 0).popsOf 632 u.d.writes ≠ []) ∧
    ((lane run0 id).split 0 0).issuing = some (false, run0) := ⟨rfl, rfl, rfl, ⟨_, rfl, by decide⟩, rfl⟩

/-- The highest register below GCOUNT; a short word; a word that writes nothing. -/
theorem witness_laneFixedCompletes : (∃ e, fixedWord (.laneAdd plainLane) = some (0x003, plainLane) ∧ (lane run0 id).laneFront 0x003 plainLane = .ok e ∧
      ∀ k, k < laneWrites 0x003 plainLane → plainLane.d.toNat + k < ((lane run0 id).grp e.g).desc.gcount) ∧
    (∃ e, fixedWord (.laneAddL32 { msel := 0, b := 2, a := 1, d := 3 }) = some (0x003, plainLane) ∧ (lane run0 id).laneFront 0x003 plainLane = .ok e) ∧
    ∃ o e, fixedWord (.laneNopL16 15) = some (0x001, o) ∧ (lane run0 id).laneFront 0x001 o = .ok e ∧ laneWrites 0x001 o = 0 := by
  refine ⟨⟨_, rfl, rfl, ?_⟩, ⟨_, rfl, rfl⟩, _, _, rfl, rfl, rfl⟩
  decide

/-- A dictionary of one entry, `add v3, v1, v2`. -/
def dictState (w : W64) : State := { lane run0 id with
  teams := [(0, { launch := 0, cluster := 0, rank := 0, core := 0, corner := 0, spbase := 0, tiles := [0], bank := some 0, resident := true })]
  cores := [(0, { Core.reset with dicts := [(0, { dict := 0, count := 1, users := [0], entries := [(w, 0)] })] })] }

/-- An entry issued as it stands, one that names v600 with REB 15, and IDX 2 of one entry. -/
theorem witness_dictionaryCodes : (∃ e, (dictState 0x000FF4020040300E).dictEntry 0 1 = some (0x003, plainLane) ∧ rebase 0x003 0 plainLane = some plainLane ∧
      fixedLane (.laneAdd plainLane) = some (0x003, plainLane) ∧ (dictState 0x000FF4020040300E).laneFront 0x003 plainLane = .ok e) ∧
    ((dictState 0).split 0 0).issuing = some (false, run0) ∧ ((dictState 0).grp 0).desc.dcount < (2 : BitVec 10).toNat ∧
    rebase 0x003 15 { plainLane with a := 600 } = none :=
  ⟨⟨_, rfl, rfl, rfl, rfl⟩, rfl, by decide, rfl⟩

theorem witness_laneIntegerValues : ∃ e f k, laneValue (.laneAdd plainLane) = some (0x003, plainLane, fun a b _ => a + b) ∧ plainLane.mod = 0 ∧
    (lane run0 id).laneFront 0x003 plainLane = .ok e ∧ plainLane.d.toNat < ((lane run0 id).grp e.g).desc.gcount ∧ e.act.getLsbD 31 = true ∧
    (lane run0 id).laneFront 0x042 { plainLane with c := 15 } = .ok f ∧
    (lane run0 id).laneFront 0x02D { plainLane with
      a := 1021
      b := 1021 } = .ok k := ⟨_, _, _, rfl, rfl, rfl, by decide, rfl, rfl, rfl⟩

/-- Counts; a saturating sum and a sign extension; a `.b64` difference into v2 and v3. -/
theorem witness_laneIntegerForms : (∃ e f, (lane run0 id).laneFront 0x015 { plainLane with b := 1021 } = .ok e ∧
      (lane run0 id).laneFront 0x016 { plainLane with b := 1021 } = .ok f ∧ plainLane.d.toNat < ((lane run0 id).grp e.g).desc.gcount) ∧
    (∃ e p, let o : LaneOps := { plainLane with mod := 1 }
      laneForm (.laneAdd o) = (0x003, o, 1, p) :: (laneForm (.laneAdd o)).tail ∧ o.mod = 1 ∧ (lane run0 id).laneFront 0x003 o = .ok e) ∧
    (∃ e p, let o : LaneOps := { plainLane with mod := 1 }
      laneForm (.bfe o) = [(0x043, o, 1, p)] ∧ (lane run0 id).laneFront 0x043 o = .ok e) ∧
    ∃ e, let o : LaneOps := { plainLane with
        mod := 32
        a := 0
        b := 2
        d := 2 }
      lanePair (.laneSub o) = some (0x004, o, fun a b _ => a - b) ∧ o.mod = 32 ∧ (lane run0 id).laneFront 0x004 o = .ok e ∧
        o.d.toNat + 1 < ((lane run0 id).grp e.g).desc.gcount ∧ e.act.getLsbD 31 = true := by
  refine ⟨⟨_, _, rfl, rfl, ?_⟩, ⟨_, _, rfl, rfl, rfl⟩, ⟨_, _, rfl, rfl⟩, _, rfl, rfl, rfl, ?_, ?_⟩ <;> decide

/-- A comparison into m15; v1 is a NaN, a signalling one, or a number. -/
theorem witness_laneComparisons : (∃ e, laneCompare (.cmpLtw { plainLane with d := 15 }) = some (0x025, { plainLane with d := 15 }, fun a b => decide (a.toNat < b.toNat)) ∧
      (lane run0 id).laneFront 0x025 { plainLane with d := 15 } = .ok e) ∧
    ∃ e, (lane run0 (fun x => { x with v := [(1, .u 0x7F800001)] })).laneFront 0x029 { plainLane with d := 15 } = .ok e ∧ e.act.getLsbD 0 = true ∧
      (nanLane (e.av 0) || nanLane (e.bv 0)) = true ∧ sigLane (e.av 0) = true ∧
      ∃ e, (lane run0 id).laneFront 0x02A { plainLane with d := 15 } = .ok e ∧ e.act.getLsbD 0 = true ∧ (nanLane (e.av 0) || nanLane (e.bv 0)) = false :=
  ⟨⟨_, rfl, rfl⟩, _, rfl, rfl, rfl, rfl, _, rfl, rfl, rfl⟩

/-- A signalling NaN; +∞ with −∞ for `fadd`, +∞ with +∞ for `fsub`, 0 with +∞ for `fmul`. -/
theorem witness_LaneFloats : (∃ e, (lane run0 (fun x => { x with v := [(1, .u 0x7F800001)] })).laneFront 0x01A plainLane = .ok e ∧
      nanLane (e.av 31) = true ∧ e.act.getLsbD 31 = true) ∧
    (∃ e, (lane run0 (fun x => { x with v := [(1, .u 0x7F800000), (2, .u 0xFF800000)] })).laneFront 0x01A plainLane = .ok e ∧
      e.av 0 = 0x7F800000 ∧ e.bv 0 = 0xFF800000) ∧
    (∃ e, (lane run0 (fun x => { x with v := [(1, .u 0x7F800000), (2, .u 0x7F800000)] })).laneFront 0x01B plainLane = .ok e ∧
      e.av 0 = 0x7F800000 ∧ e.bv 0 = 0x7F800000) ∧
    (∃ e, (lane run0 (fun x => { x with v := [(2, .u 0x7F800000)] })).laneFront 0x01C plainLane = .ok e ∧ e.av 0 = 0 ∧ e.bv 0 = 0x7F800000) ∧
    ∃ e, (lane run0 id).laneFront 0x01F { plainLane with b := 1021 } = .ok e :=
  ⟨⟨_, rfl, rfl, rfl⟩, ⟨_, rfl, rfl, rfl⟩, ⟨_, rfl, rfl, rfl⟩, ⟨_, rfl, rfl, rfl⟩, _, rfl⟩

/-- A conversion, a dequantization and a token program; a class into m15. -/
theorem witness_laneFloatResults : (∃ e f, (let o : LaneOps := { plainLane with
        mod := 14
        b := 1021 }
      laneFloat (.cvt o) = some (0x045, o, f) ∧ (lane run0 id).laneFront 0x045 o = .ok e ∧ o.d.toNat < ((lane run0 id).grp e.g).desc.gcount)) ∧
    (∃ e f, laneFloat (.dqFp4 plainLane) = some (0x04F, plainLane, f) ∧ (lane run0 id).laneFront 0x04F plainLane = .ok e) ∧
    (∃ e f, let o : LaneOps := { plainLane with
        mod := 4
        c := 3
        lit := some 0xFF673500 }
      laneFloat (.xpr o) = some (0x0C5, o, f) ∧ (lane run0 id).laneFront 0x0C5 o = .ok e) ∧
    ∃ e, (lane run0 id).laneFront 0x02C { plainLane with d := 15 } = .ok e := by
  refine ⟨⟨_, _, rfl, rfl, ?_⟩, ⟨_, _, rfl, rfl⟩, ⟨_, _, rfl, rfl⟩, _, rfl⟩
  decide

/-- All lanes with uniform and with affine sources; one lane with a register at GCOUNT, and a general source there. -/
theorem witness_LaneShapes : (∃ e, (lane run0 (fun x => { x with v := [(1, .u 5), (2, .u 7)] })).laneFront 0x003 plainLane = .ok e ∧
      e.act = low64 e.w ∧ e.w ≠ 0 ∧ e.a ++ e.b ++ e.c = [.u 5, .u 7]) ∧
    (∃ e, (lane run0 (fun x => { x with v := [(1, .a 5 3), (2, .a 1 1)] })).laneFront 0x003 plainLane = .ok e ∧ e.a = [.a 5 3] ∧ e.b = [.a 1 1] ∧
      e.act = low64 e.w) ∧
    (∃ e, (lane run0 id).laneFront 0x011 plainLane = .ok e ∧ e.a = [.a 5 3] ∧ e.b = [.u 7]) ∧
    (∃ e, (lane { run0 with exec := 1 } id).laneFront 0x003 { plainLane with d := 4 } = .ok e ∧ e.act ≠ 0 ∧ e.act ≠ low64 e.w ∧
      ((lane run0 id).grp e.g).desc.gcount ≤ (4 : BitVec 10).toNat ∧ laneWrites 0x003 { plainLane with d := 4 } = 1) ∧
    ∃ e, (lane run0 id).laneFront 0x002 { plainLane with
      b := 1021
      a := 3
      d := 4 } = .ok e ∧ e.a = [.g (List.replicate 32 9)] := by
  refine ⟨⟨_, rfl, rfl, ?_, rfl⟩, ⟨_, rfl, rfl, rfl, rfl⟩, ⟨_, rfl, rfl, rfl⟩, ⟨_, rfl, ?_, ?_, ?_, rfl⟩, _, rfl, rfl⟩ <;> decide

/-! ## Witnesses: lane accesses -/

/-- The last lane of the clause alone, with the page mapped; v0 and v1 are zero, a 64-bit base, v2 an offset of 8. -/
def memLane (f : Group → Group) : State := { lane { run0 with exec := 0x80000000 } (fun x => f { x with v := [(2, .u 8)] }) with
  cores := [(0, { Core.reset with tlb := [fetchPage] })] }

/-- `ld.g v3, v[0:1], v2`, `ld.s`, and `st.g` of v3. -/
def memOps : LaneOps := { mod := 4, fl := 0, mask := 0, c := 0, b := 2, a := 0, d := 3, lit := none }

theorem witness_laneAccessIssues : (∃ r u e ls, laneRow (.ldG memOps) = some r ∧ (memLane id).laneFront r.op r.o = .ok e ∧ e.act ≠ 0 ∧
      (∀ k, k < r.loads → r.o.d.toNat + k < ((memLane id).grp e.g).desc.gcount) ∧ ((memLane id).grp e.g).counter r.ctr ≠ 0xFFFF ∧
      (memLane id).heldByAcq e.g e.sp e.run.no = false ∧ ((memLane id).grp e.g).faulted = false ∧
      (((memLane id).setGrp e.g e.x).fresh.2).translateLanes ((memLane id).grp e.g).core r.what.need (e.lanes.map (r.part e)) = (u, .ok ls) ∧
      (∀ l ∈ ls, l.fault = none)) ∧
    ∃ r u e ls, laneRow (.stS memOps) = some r ∧ (memLane id).laneFront r.op r.o = .ok e ∧ e.act ≠ 0 ∧ r.loads = 0 ∧
      (((memLane id).setGrp e.g e.x).fresh.2).translateLanes ((memLane id).grp e.g).core r.what.need (e.lanes.map (r.part e)) = (u, .ok ls) ∧
      ∀ l ∈ ls, l.place.isSome = true := by
  refine ⟨⟨_, _, _, _, rfl, rfl, ?_, ?_, ?_, rfl, rfl, rfl, ?_⟩, _, _, _, _, rfl, rfl, ?_, rfl, rfl, ?_⟩ <;> decide

/-- No active lane, with nothing in flight; and a release behind an access in flight. -/
theorem witness_laneAccessOfNoLane : (∃ r e, laneRow (.ldG memOps) = some r ∧ (lane { run0 with exec := 0 } id).laneFront r.op r.o = .ok e ∧ e.act = 0 ∧
      e.x.fenced r.acq r.rel = true) ∧
    ∃ r e, let s := lane { run0 with exec := 0 } (fun x => { x with acc := [scalarAccess 9 0 0 .sts 0 0x10000 0 3 4 0x100] })
      laneRow (.stG { memOps with c := 19 }) = some r ∧ s.laneFront r.op r.o = .ok e ∧ e.act = 0 ∧ e.x.fenced r.acq r.rel = false :=
  ⟨⟨_, _, rfl, rfl, rfl, rfl⟩, _, _, rfl, rfl, rfl, rfl⟩

/-- Tile 0 of the group's team with its token at either side; tile 1 of one tile. -/
def tileLane (v : Bool) : State := { memLane id with
  teams := [(0, { launch := 0, cluster := 0, rank := 0, core := 0, corner := 0, spbase := 0, tiles := [0], bank := none, resident := true })]
  cores := [(0, { Core.reset with
    tlb := [fetchPage]
    tiles := [(0, { Tile.fresh (some 0) with tokenV := v })] })] }

def accOps (tile : BitVec 10) : LaneOps := { mod := 0, fl := 0, mask := 0, c := 1021, b := 2, a := tile, d := 3, lit := none }

theorem witness_unitAccessIssues : (∃ e, (tileLane true).laneFront 0x180 (accOps 1) = .ok e ∧ ((tileLane true).grp e.g).desc.accn ≤ (1 : BitVec 10).toNat) ∧
    (∃ e, (tileLane false).laneFront 0x180 (accOps 0) = .ok e ∧ (0 : BitVec 10).toNat < ((tileLane false).grp e.g).desc.accn ∧
      ((tileLane false).tile ((tileLane false).grp e.g).core ((tileLane false).tileNo e.g (0 : BitVec 10).toNat)).tokenV = false ∧
      ((tileLane false).grp e.g).counter 2 ≠ 0xFFFF ∧ (tileLane false).heldByAcq e.g e.sp e.run.no = false ∧ ((tileLane false).grp e.g).faulted = false) ∧
    (∃ e, (tileLane true).laneFront 0x181 (accOps 0) = .ok e ∧ e.act ≠ 0 ∧ ((tileLane true).grp e.g).counter 2 ≠ 0xFFFF ∧
      ((tileLane true).tile ((tileLane true).grp e.g).core ((tileLane true).tileNo e.g (0 : BitVec 10).toNat)).tokenV = true ∧
      (tileLane true).heldByAcq e.g e.sp e.run.no = false ∧ ((tileLane true).grp e.g).faulted = false) ∧
    (∃ e, (memLane id).laneFront 0x110 (accOps 0) = .ok e ∧ e.act ≠ 0 ∧ (accOps 0).d.toNat < ((memLane id).grp e.g).desc.gcount ∧
      ((memLane id).grp e.g).counter 0 ≠ 0xFFFF ∧ (memLane id).heldByAcq e.g e.sp e.run.no = false ∧ ((memLane id).grp e.g).faulted = false) ∧
    (∀ c ∈ ([0, 11] : List (BitVec 10)), ∃ e v u ls, let s := memLane id
      let d := (s.core (s.grp e.g).core).gdescs.get (List.replicate 64 0) 0
      s.laneFront 0x183 { accOps 0 with c := c } = .ok e ∧ e.act ≠ 0 ∧ (s.grp e.g).counter 3 ≠ 0xFFFF ∧ s.heldByAcq e.g e.sp e.run.no = false ∧
      (s.grp e.g).maskBusy (gdMreg d) = false ∧ (s.grp e.g).gleanMay e.sp = true ∧ (s.grp e.g).bornDone (e.probe s.nextId) = true ∧
      v = (if ordAcq c.toNat then (s.setGrp e.g e.x).fresh.2.modCore (s.grp e.g).core (fun k => { k with gcache := [] }) else (s.setGrp e.g e.x).fresh.2) ∧
      v.gleanParts (s.grp e.g).core d (e.lanes.map (fun l => (l, e.av l, e.bv l))) = (u, .ok ls) ∧
      ∀ l ∈ ls, l.fault = none) ∧
    ordAcq 0 = false ∧ ordAcq 11 = true ∧ numAt (List.replicate 64 0) 4 4 ≤ 0 := by
  refine ⟨⟨_, rfl, ?_⟩, ⟨_, rfl, ?_, rfl, ?_, rfl, rfl⟩, ⟨_, rfl, ?_, ?_, rfl, rfl, rfl⟩, ⟨_, rfl, ?_, ?_, ?_, rfl, rfl⟩, List.forall_mem_cons.mpr ⟨⟨_, _, _, _, rfl, ?_, ?_, rfl, rfl, rfl, rfl, rfl, rfl, ?_⟩,
    List.forall_mem_singleton.mpr ⟨_, _, _, _, rfl, ?_, ?_, rfl, rfl, rfl, rfl, rfl, rfl, ?_⟩⟩, rfl, rfl, ?_⟩ <;> decide

/-- A future at VA 8 that is full, and one that is empty. -/
def futLane (b : List Byte) : State := { memLane (fun x => { x with desc := { desc0 with gcount := 8 } }) with hbm := Memory.writeN [] 0x1000F b }

def futOps : LaneOps := { mod := 0, fl := 0, mask := 0, c := 0, b := 2, a := 0, d := 4, lit := none }

/-- A full future at offset 8 of the scratchpad. -/
def spadFut : State := { futLane [] with cores := [(0, { Core.reset with spad := Memory.writeN [] 15 [0x80] })] }

theorem witness_FutureReads : (∃ u e ls a, let s := futLane [0x80]
      s.laneFront 0x10B futOps = .ok e ∧ e.act ≠ 0 ∧ futOps.d.toNat + 1 < (s.grp e.g).desc.gcount ∧ s.heldByAcq e.g e.sp e.run.no = false ∧
      s.translateLanes (s.grp e.g).core { r := true } (e.lanes.map (fun l => e.part (futWindow futOps.mod.toNat) 8 l [] [])) = (u, .ok ls) ∧
      (∀ l ∈ ls, l.fault = none) ∧
      (s.grp e.g).faulted = false ∧ a = { e.probe u.nextId with lanes := ls } ∧ e.x.mayPerform a = true ∧ u.badLane a = none ∧
      ls.all (fun l => l.place.any (fun p => (leNat (u.readPlace p 8)).testBit 63)) = true) ∧
    (∃ u e ls l, let s := futLane []
      s.laneFront 0x10B futOps = .ok e ∧
      s.translateLanes (s.grp e.g).core { r := true } (e.lanes.map (fun l => e.part (futWindow futOps.mod.toNat) 8 l [] [])) = (u, .ok ls) ∧
      ls.filter (fun l => l.place.all (fun p => !(leNat (u.readPlace p 8)).testBit 63)) = l :: [] ∧ e.handler = false ∧ (u.grp e.g).utvec ≠ 0) ∧
    (∃ e, (lane { run0 with exec := 0 } (fun x => { x with desc := { desc0 with gcount := 8 } })).laneFront 0x10B futOps = .ok e ∧ e.act = 0 ∧ e.x.fenced false false = true) ∧
    ∃ e p, let s := spadFut
      s.laneFront 0x10B { futOps with mod := 1 } = .ok e ∧ (∀ k, k < 2 → futOps.d.toNat + k < (s.grp e.g).desc.gcount) ∧ e.act = 0x80000000 ∧
      s.heldByAcq e.g e.sp e.run.no = false ∧ (s.grp e.g).acc = [] ∧ (s.split e.g e.sp).born = [] ∧
      (e.part (futWindow 1) 8 31 [] []).place = some p ∧ s.badPlace p 8 = false ∧ (leNat (s.readPlace p 8)).testBit 63 = true := by
  refine ⟨⟨_, _, _, _, rfl, ?_, ?_, rfl, rfl, ?_, rfl, rfl, rfl, rfl, rfl⟩, ⟨_, _, _, _, rfl, rfl, rfl, rfl, ?_⟩, ⟨_, rfl, rfl, rfl⟩, _, _, rfl, ?_, rfl, rfl, rfl, rfl, rfl, rfl, ?_⟩ <;> decide

/-- One lane's access, of `n` bytes at 0x10000, in flight on counter 0. -/
def laneEndAcc (op : AccOp) (n dcount : Nat) : Access :=
  { id := 9, split := 0, op := op,
    lanes := [{ lane := 31, va := 0, place := some (.hbm, 0x10000), size := n, data := [1, 2], cmp := [0], result := none, fault := none }],
    dst := 3, dcount := dcount, mreg := 0, flag := some 0, ctr := some 0, acq := false, rel := false, scope := 0, addr := 0 }

def laneEndState (op : AccOp) (n dcount : Nat) (resv : Map Nat) : State := withG (fun x => { x with
  acc := [laneEndAcc op n dcount]
  inflight := [{ ctr := 0, id := 9, returned := false }]
  splits := [(0, { split0 with resv := resv })] })

/-- Two lanes of an access: one byte apart in core 0's scratchpad, and at two doublewords of one granule of HBM. -/
def twoLanes (op : AccOp) (p q : Space × Nat) (n dcount : Nat) : Access := { laneEndAcc op n dcount with
  lanes := [{ lane := 2, va := 0, place := some p, size := n, data := [1, 2], cmp := [0, 0], result := none, fault := none },
    { lane := 31, va := 8, place := some q, size := n, data := [3, 4], cmp := [0, 0], result := none, fault := none }] }

def twoLaneState (a : Access) (resv : Map Nat) : State := withG (fun x => { x with
  acc := [a]
  inflight := [{ ctr := 0, id := 9, returned := false }]
  splits := [(0, { split0 with resv := resv })] })

theorem twoLanes_complete (op : AccOp) (p q : Space × Nat) (n dcount : Nat) (resv : Map Nat) (h : op.isLane = true)
    (hb : (twoLaneState (twoLanes op p q n dcount) resv).badLane (twoLanes op p q n dcount) = none) :
    (twoLaneState (twoLanes op p q n dcount) resv).completes 0 (twoLanes op p q n dcount) := by
  refine ⟨rfl, rfl, h, ?_, rfl, hb⟩
  intro l hl
  rcases List.mem_cons.mp hl with rfl | hl
  · exact ⟨rfl, rfl⟩
  · rw [List.mem_singleton.mp hl]
    exact ⟨rfl, rfl⟩

/-- Stores of two lanes to one byte of a scratchpad, a 64-bit atomic, and the 64-bit forms of LRES and SCOND on one granule, of which the lower lane stores. -/
theorem witness_laneAccessLanes : (twoLaneState (twoLanes .store (.spad 0, 7) (.spad 0, 7) 1 0) []).completes 0 (twoLanes .store (.spad 0, 7) (.spad 0, 7) 1 0) ∧
    (twoLaneState (twoLanes (.atom 10 false false) (.hbm, 0) (.hbm, 4) 4 0) []).completes 0 (twoLanes (.atom 10 false false) (.hbm, 0) (.hbm, 4) 4 0) ∧
    (twoLaneState (twoLanes (.atom 9 true true) (.hbm, 0) (.hbm, 8) 8 2) []).completes 0 (twoLanes (.atom 9 true true) (.hbm, 0) (.hbm, 8) 8 2) ∧
    (twoLaneState (twoLanes (.lres true) (.hbm, 0) (.hbm, 8) 8 2) []).completes 0 (twoLanes (.lres true) (.hbm, 0) (.hbm, 8) 8 2) ∧
    (twoLaneState (twoLanes (.scond true) (.hbm, 0) (.hbm, 8) 8 2) [(2, 0), (31, 0)]).completes 0 (twoLanes (.scond true) (.hbm, 0) (.hbm, 8) 8 2) ∧
    (world.grp 0).lanesLie (twoLanes .store (.spad 0, 7) (.spad 0, 7) 1 0).lanes ∧
    (world.grp 0).lanesLie (twoLanes (.scond true) (.hbm, 0) (.hbm, 8) 8 2).lanes ∧
    scondStores (fun _ => true) [] (twoLanes (.scond true) (.hbm, 0) (.hbm, 8) 8 2).lanes = [true, false] ∧
    world.hbm.wf = true ∧ (world.core 0).spad.wf = true := by
  refine ⟨twoLanes_complete _ _ _ _ _ _ rfl rfl, twoLanes_complete _ _ _ _ _ _ rfl rfl, twoLanes_complete _ _ _ _ _ _ rfl rfl,
    twoLanes_complete _ _ _ _ _ _ rfl rfl, twoLanes_complete _ _ _ _ _ _ rfl rfl, ⟨?_, ?_⟩, ⟨?_, ?_⟩, rfl, rfl, rfl⟩
  · simp [twoLanes]
  · intro l hl
    rcases List.mem_cons.mp hl with rfl | hl
    · exact ⟨by decide, by decide, _, rfl, Or.inr ⟨_, rfl⟩⟩
    · rw [List.mem_singleton.mp hl]
      exact ⟨by decide, by decide, _, rfl, Or.inr ⟨_, rfl⟩⟩
  · simp [twoLanes]
  · intro l hl
    rcases List.mem_cons.mp hl with rfl | hl
    · exact ⟨by decide, by decide, _, rfl, Or.inl rfl⟩
    · rw [List.mem_singleton.mp hl]
      exact ⟨by decide, by decide, _, rfl, Or.inl rfl⟩

theorem witness_laneAccessCompletes : (∀ sz n d resv, (laneEndState (.load sz) n d resv).completes 0 (laneEndAcc (.load sz) n d)) ∧
    (laneEndState .store 4 0 []).completes 0 (laneEndAcc .store 4 0) ∧ (laneEndState (.atom 9 false true) 4 1 []).completes 0 (laneEndAcc (.atom 9 false true) 4 1) ∧
    (laneEndState (.atom 5 true false) 8 0 []).completes 0 (laneEndAcc (.atom 5 true false) 8 0) ∧
    (laneEndState (.lres false) 4 1 []).completes 0 (laneEndAcc (.lres false) 4 1) ∧
    (laneEndState (.scond false) 4 1 []).completes 0 (laneEndAcc (.scond false) 4 1) ∧ (laneEndState .store 4 0 []).hbm.wf = true ∧
    ((laneEndState (.scond false) 4 1 [(31, 0x400)]).split 0 0).resv.find 31 = some (0x10000 / 64) ∧
    ((laneEndState (.scond false) 4 1 []).split 0 0).resv.find 31 ≠ some (0x10000 / 64) ∧ 31 < ((laneEndState .store 4 0 []).grp 0).desc.w ∧
    (laneEndAcc (.load 6) 16 4).dcount = szNames 6 := by
  refine ⟨fun _ n _ _ => ⟨rfl, rfl, rfl, ?_, rfl, rfl⟩, ⟨rfl, rfl, rfl, ?_, rfl, rfl⟩, ⟨rfl, rfl, rfl, ?_, rfl, rfl⟩, ⟨rfl, rfl, rfl, ?_, rfl, rfl⟩,
    ⟨rfl, rfl, rfl, ?_, rfl, rfl⟩, ⟨rfl, rfl, rfl, ?_, rfl, rfl⟩, rfl, rfl, ?_, ?_, rfl⟩
  · intro l h
    rw [List.mem_singleton.mp h]
    exact ⟨rfl, rfl⟩
  all_goals decide

/-- A load in flight whose lane did not translate. -/
def faultedAcc : Access := { laneEndAcc (.load 4) 4 1 with
  lanes := [{ lane := 31, va := 0x2000, place := none, size := 4, data := [], cmp := [], result := none, fault := some 0 }] }

/-- Such an access with room for its record and behind 16 records; and a store whose one lane no table maps. -/
theorem witness_laneAccessFaults : (∀ k, k ∈ [0, 16] → let s : State := { withG (fun x => { x with acc := [faultedAcc] }) with frecs := List.replicate k record0 }
      (s.grp 0).acc.find? (fun b => b.id == faultedAcc.id) = some faultedAcc ∧ faultedAcc.op.isLane = true ∧ (s.grp 0).st = .active ∧
      s.recordRoom 0 (s.grp 0).core = decide (k = 0)) ∧
    ∃ r u e ls l c, let s := { memLane id with cores := [] }
    laneRow (.stG memOps) = some r ∧ r.what = .store ∧ s.laneFront r.op r.o = .ok e ∧ e.act ≠ 0 ∧ (s.grp e.g).counter r.ctr ≠ 0xFFFF ∧
    s.heldByAcq e.g e.sp e.run.no = false ∧
    ((s.setGrp e.g e.x).fresh.2).translateLanes (s.grp e.g).core r.what.need (e.lanes.map (r.part e)) = (u, .ok ls) ∧ ls = [l] ∧ l.fault = some c ∧
    l.place = none ∧ (u.split e.g e.sp).born = [] ∧ u.recordRoom e.g (u.grp e.g).core = true ∧ (u.grp e.g).acc = [] ∧ (u.grp e.g).st = .active ∧ u.frecs = [] ∧ l.lane < 64 := by
  refine ⟨?_, _, _, _, _, _, _, rfl, rfl, rfl, ?_, ?_, rfl, rfl, rfl, rfl, rfl, rfl, rfl, rfl, rfl, rfl, ?_⟩ <;> decide

/-! ## Witnesses: events of the device -/

/-- Group 0 has four splits. Split 2 is the next that is not held. -/
def scheduled (f : Group → Group) : State := withG (fun x => f { x with splits := [(0, split0), (2, split0), (3, split0)] })

/-- The quantum at 255 and 256 clocks; inside a clause and at its end; a split with a trap; a sector with a free place and a full one. -/
theorem witness_Scheduling : (((scheduled id).grp 0).st = .active ∧ ((scheduled id).grp 0).curSince + 256 ≤ ({ scheduled id with clock := 256 } : State).clock ∧
      ({ scheduled id with clock := 255 } : State).clock < ((scheduled id).grp 0).curSince + 256) ∧
    (((lane { run0 with off := 5 } id).grp 0).st = .active ∧
      (((lane { run0 with off := 5 } id).grp 0).split ((lane { run0 with off := 5 } id).grp 0).cur).midClause = true) ∧
    (let s := scheduled (fun x => { x with changeDue := true })
     ((s.grp 0).split (s.grp 0).cur).midClause = false ∧ s.splitHeld 0 (((s.grp 0).cur + 2) % 4) = false ∧ s.splitHeld 0 (((s.grp 0).cur + 1) % 4) = true ∧
      (s.grp 0).changeDue = true) ∧
    (let s := withG (fun x => { x with splits := [(0, split0), (3, { split0 with traps := [{ code := 2, mask := 1, pc := 0, info := 0 }] })] })
     ((s.grp 0).split 3).live = true ∧ ((s.grp 0).split 3).traps ≠ [] ∧ ((s.grp 0).split 0).traps = [] ∧ ((s.grp 0).split 0).midClause = false) ∧
    (let s : State := { world with
        groups := [(0, group0), (1, { group0 with st := .pending })]
        cores := [(0, { Core.reset with sectors := [(0, { active := [0], pending := [1], swaps := [] })] })] }
     (s.sector 0 0).pending = 1 :: [] ∧ (s.grp 1).ready = true ∧ (s.sector 0 0).active.length + (s.sector 0 0).swaps.length < 8) ∧
    (let s : State := { world with
        groups := [(0, { group0 with
          age := 1
          splits := [(0, { split0 with stall := some (.barrier 0 0 0) })] }), (1, { group0 with st := .pending }), (2, group0)]
        cores := [(0, { Core.reset with sectors := [(0, { active := [0, 2, 3, 4, 5, 6, 7, 8], pending := [1], swaps := [] })] })] }
     (s.grp 1).ready = true ∧ 8 ≤ (s.sector 0 0).active.length + (s.sector 0 0).swaps.length ∧ 0 ∈ (s.sector 0 0).active ∧ s.groupWaits 0 = true ∧
       s.groupWaits 2 = false) ∧
    (({ world with cores := [(0, { Core.reset with sectors := [(0, { active := [], pending := [], swaps := [(0, 4)] })] })], clock := 4 } : State).sector 0 0).swaps =
      [(0, 4)] ∧
    (let s := withG (fun x => { x with
        st := .pending
        ready := false
        outAt := some 0 })
     (s.grp 0).st = .pending ∧ (s.grp 0).ready = false ∧ s.groupWaits 0 = false ∧ (s.grp 0).outAt = some s.clock ∧ (s.grp 0).released = false) ∧
    (({ scheduled id with clock := 1 } : State).grp 0).outAt ≠ some 1 ∧
    (let s := withG (fun x => { x with
        flags := [(0, 1)]
        splits := [(0, { split0 with stall := some (.waitf 1) }), (2, split0)] })
     s.splitGives 0 0 = true ∧ s.splitHeld 0 2 = false) ∧
    (let s := withG (fun x => { x with
        st := .pending
        ready := false
        splits := [(0, { split0 with stall := some (.barrier 0 0 0) })] })
     s.groupWaits 0 = true) := by
  refine ⟨⟨rfl, ?_, ?_⟩, ⟨rfl, rfl⟩, ⟨rfl, rfl, rfl, rfl⟩, ⟨rfl, ?_, rfl, rfl⟩, ⟨rfl, rfl, ?_⟩, ⟨rfl, ?_, ?_, rfl, rfl⟩, rfl, ⟨rfl, rfl, rfl, rfl, rfl⟩, ?_, ⟨rfl, rfl⟩, rfl⟩ <;> decide

/-- A record of a parked store's only lane, with an address that the page maps and one that no table maps. -/
def parkedAcc (va : W64) : Access :=
  { id := 9, split := 0, op := .store,
    lanes := [{ lane := 0, va := va, place := none, size := 4, data := [1], cmp := [], result := none, fault := some 0 }],
    dst := 0, dcount := 0, mreg := 0, flag := none, ctr := some 1, acq := false, rel := false, scope := 0, addr := 0 }

def parkedState (va : W64) (r : FRec) : State := { withG (fun x => { x with
    st := .parked
    acc := [parkedAcc va] }) with
  frecs := [r]
  troot := 0x100000
  hbm := Memory.writeN [] 0x100000 (leBytes 8 0x200001) }

/-- A table of four levels whose leaf of VA 0 is `leaf`: nodes at 0x100000, 0x200000, 0x300000 and 0x400000. -/
def withTables (leaf : Nat) (m : Memory) : Memory := Memory.writeN (Memory.writeN (Memory.writeN (Memory.writeN m 0x100000 (leBytes 8 0x200001))
  0x200000 (leBytes 8 0x300001)) 0x300000 (leBytes 8 0x400001)) 0x400000 (leBytes 8 leaf)

def tables : Memory := withTables 0x1000F []

/-- The page of VA 0 starts with an error. -/
def errorWorld : State := { world with hbmBad := [0x800] }

theorem witness_FaultQueue : (let r := { record0 with
        status := .buffered
        numbered := false }
      let s := parkedState 0x2000 r
      s.frecs.find? (fun q => q.id == 3 && q.status == .buffered) = some r ∧ (∀ q ∈ s.frecs, q.status = .buffered → q.before r = false) ∧ s.hbm.wf = true ∧
      (s.frecs.filter FRec.inQueue).length < 4096 ∧ s.fqbase.toNat + 32 * (s.fqNext.toNat % 4096) + 32 ≤ 0x6000000000 ∧ s.time < 2 ^ 64 ∧
      s.clock ≤ r.since ∧ r.since < ({ s with clock := 1 } : State).clock) ∧
    (∃ u, let r := { record0 with resolved := true }
      let s : State := { parkedState 0 r with hbm := tables }
      s.frecs.find? (fun q => q.id == 3 && q.resolved && q.holds) = some r ∧ s.heldInOrder r = false ∧ r.owner = .access 0 0 9 ∧ (s.grp 0).st = .parked ∧
      (s.grp 0).acc = [parkedAcc 0] ∧ r.lanes.getLsbD 0 = true ∧ (s.split 0 0).born = [] ∧ s.hbm.wf = true ∧ s.recordsOf 0 = [r] ∧ (s.grp 0).away = false ∧
      s.stuck 0 = false ∧
      s.translateWalk (some (s.grp 0).core) (((0 : W64).setWidth 56).setWidth 64) { w := true } = (u, .ok 0x10000)) ∧
    (∃ u, let s := parkedState 0x2000 { record0 with resolved := true }
      s.translateWalk (some (s.grp 0).core) (((0x2000 : W64).setWidth 56).setWidth 64) { w := true } = (u, .fault 0)) ∧
    (∃ u, world.writeVirt none none 8 [1, 2] = (u, .ok ())) ∧ (∃ u bs, world.readVirt none { r := true, egress := true } 8 2 = (u, .ok bs)) ∧
    (∃ u c, world.writeVirt none none 0x2000 [1] = (u, .fault 0x2000 c)) ∧ (∃ u c, world.readVirt none { r := true, egress := true } 0x2000 1 = (u, .fault 0x2000 c)) ∧
    (∃ u pa va, errorWorld.readVirt none { r := true, egress := true } 0 1 = (u, .check pa va)) := by
  refine ⟨⟨rfl, ?_, rfl, ?_, ?_, ?_, ?_, ?_⟩, ⟨_, rfl, rfl, rfl, rfl, rfl, rfl, rfl, rfl, rfl, rfl, rfl, rfl⟩, ⟨_, rfl⟩, ⟨_, rfl⟩, ⟨_, _, rfl⟩, ⟨_, _, rfl⟩, ⟨_, _, rfl⟩, _, _, _, rfl⟩ <;> decide

/-- A ring's queue that holds 4096 entries is full. -/
theorem witness_FaultQueueFull : (({ world with frecs := List.replicate 4096 record0 } : State).frecs.filter FRec.inQueue).length = 4096 := by
  show ((List.replicate 4096 record0).filter FRec.inQueue).length = 4096
  rw [List.filter_replicate_of_pos (by decide), List.length_replicate]

/-- A job of operation 0. -/
def job0 : Job := { cmd := 5, group := 0, core := 0, priv := 0, dest := 0, op := 0 }

/-- Two records of one element, at `p` and at `d`, with flags `f`; and a job of them that is due. -/
def twoRecords (p d f : Nat) : List Byte := [p, d].flatMap (fun b => leBytes 8 b ++ (List.range 5).flatMap (fun _ => leBytes 4 1) ++ leBytes 37 0 ++ leBytes 1 f ++ leBytes 62 0)

def jobCmd (recs : List Byte) : Cmd := { cmd (.thresh (se 4 5)) [0, 0, 0] with
  recs := recs
  started := true }

def jobDue (recs : List Byte) : State :=
  ((engine 3 (jobCmd recs) id).modCore 0 (fun k => { k with tlb := [fetchPage] })).setBar 0 0 { Barrier.reset with due := [job0] }

/-- Records of memory, at 0x100 and 0x140; and of the local window. -/
theorem witness_ThresherJobs : (∃ p d, let s := jobDue (twoRecords 0xFF00000000000100 0xFF00000000000140 0x10)
      (s.bar 0 0).due = job0 :: [] ∧ (s.queue job0.core 3).find? (fun k => k.id == job0.cmd) = some (jobCmd (twoRecords 0xFF00000000000100 0xFF00000000000140 0x10)) ∧
      s.jobHeld 0 (jobCmd (twoRecords 0xFF00000000000100 0xFF00000000000140 0x10)) = false ∧ recPair (twoRecords 0xFF00000000000100 0xFF00000000000140 0x10) = some (p, d) ∧
      mergeOk p d = true ∧ p.space = 1 ∧ d.space = 1 ∧ p.count = 1 ∧ (s.core 0).spadBad = [] ∧ (s.core 0).spad.wf = true) ∧
    ∃ u p d, let m := jobCmd (twoRecords 0x100 0x140 0)
      let s := jobDue m.recs
      (s.bar 0 0).due = job0 :: [] ∧ (s.queue job0.core 3).find? (fun k => k.id == job0.cmd) = some m ∧ m.parked = false ∧ s.jobHeld 0 m = false ∧
      recPair m.recs = some (p, d) ∧ p.count = 1 ∧
      elemLoop (p.count - m.progress) m.progress s (fun v i => v.mergeElem job0.core (v.grp job0.group) p d job0.op i) = (u, none) ∧
      u.queue job0.core 3 = s.queue job0.core 3 :=
  ⟨⟨_, _, rfl, rfl, rfl, rfl, rfl, rfl, rfl, rfl, rfl, rfl⟩, _, _, _, rfl, rfl, rfl, rfl, rfl, rfl, rfl, rfl⟩

/-! ## Witnesses: placement and pre-emption -/

/-- A cluster of one group of a checked launch stands at the head of the queue; and one of a kernel of more tiles than a core has. -/
def placing (d : KDesc) : State := { world with
  launches := [(0, { launch0 with desc := d })]
  placeQ := [{ launch := 0, cluster := 0, prio := 7, seq := 0, team := none }]
  groups := []
  nextGroup := 0 }

def kernel0 : KDesc := { KDesc.empty with w := 32 }

theorem witness_Placement : ∃ q l x c f k p, (placing kernel0).headRequest = some q ∧ q.team = none ∧ (placing kernel0).launch q.launch = some l ∧
    l.loaded = true ∧ l.stage = false ∧
    (placing kernel0).firstSite l.desc (List.replicate (l.desc.cw * l.desc.ch) l.desc.t) none (List.range 192) = some x ∧ x.cores = [c] ∧
    x.fits = [f] ∧ f.places = [(k, p)] := ⟨_, _, _, _, _, _, _, rfl, rfl, rfl, rfl, rfl, rfl, rfl, rfl, rfl⟩

/-- The page of a group's area: 64 KiB at VA 0, written. -/
def areaPage : TlbEntry := { base := 0, size := 4, leaf := 0x1418F, slot := 0x10FF8 }

/-- A launch of W 32 with a deadline. -/
def yielding (f : Group → Group) : State := { withG f with
  launches := [(0, { launch0 with req := some 100 })]
  cores := [(0, { Core.reset with tlb := [areaPage] })] }

theorem witness_preemptDeadline : (yielding id).launch 0 = some { launch0 with req := some 100 } ∧ (yielding id).groupsOf 0 = [0] ∧
    ((yielding id).grp 0).launch = 0 ∧ ((yielding id).grp 0).st = .active ∧ ((yielding id).grp 0).liveSplits ≠ [] ∧ 100 ≤ ({ yielding id with time := 100 } : State).time ∧
    (yielding id).time < 100 ∧ (let x := (yielding (fun x => { x with st := .yielding })).grp 0
     x.st = .yielding ∧ x.forced = false ∧ x.area = []) :=
  ⟨rfl, rfl, rfl, rfl, by decide, by decide, by decide, rfl, rfl, rfl⟩

/-- A group that saves. -/
def saving : State := yielding (fun x => { x with st := .yielding })

/-- The save goes on from such states. -/
def canSave (s : State) : Prop := (∃ x, s.groups = [(0, x)] ∧ x.core = 0 ∧ x.launch = 0 ∧ x.gid = 0) ∧ s.cores = saving.cores ∧ s.launches = saving.launches

theorem areaVa_canSave {s : State} (h : canSave s) : s.areaVa 0 = 0 ∧ (s.grp 0).core = 0 := by
  obtain ⟨⟨x, hg, hc, hl, hi⟩, -, hla⟩ := h
  have hx : s.grp 0 = x := by simp [State.grp, hg, Map.get]
  refine ⟨?_, hx ▸ hc⟩
  have : s.launch x.launch = some { launch0 with req := some 100 } := by rw [hl]; unfold State.launch; rw [hla]; rfl
  simp only [State.areaVa, hx, this, hi]
  rfl

theorem write_canSave {s : State} {o : Nat} (h : canSave s) (ho : o < 65536) :
    s.translate (some 0) (0 + BitVec.ofNat 64 o) { w := true } = (s, .ok (leafPa 0x1418F (((0 + BitVec.ofNat 64 o).setWidth 56).setWidth 64))) := by
  have ht : s.tlbOf (some 0) = [{ base := 0, size := 4, leaf := 0x1418F, slot := 0x10FF8 }] := by
    simp only [State.tlbOf, State.core, h.2.1]; rfl
  have hm : (TlbEntry.maps { base := 0, size := 4, leaf := 0x1418F, slot := 0x10FF8 } (((0 + BitVec.ofNat 64 o).setWidth 56).setWidth 64)) = true := by
    simp [TlbEntry.maps, pageBytes]; omega
  simp only [State.translate, ht, List.find?_cons, hm]
  rfl

theorem step_canSave {s : State} {pa : Nat} {b : Byte} (h : canSave s) :
    canSave ((s.hbmWrite none pa [b]).modGrp 0 (fun y => { y with areaAt := y.areaAt + 1 })) := by
  obtain ⟨⟨x, hg, hc, hl, hi⟩, h2, h3⟩ := h
  refine ⟨?_, h2, h3⟩
  · simp only [State.modGrp, State.setGrp, State.grp, State.hbmWrite, State.clearResv, hg, List.map_cons, List.map_nil, Map.get, Map.put, if_true]
    exact ⟨_, rfl, hc, hl, hi⟩

theorem area_written (ws : List (Nat × Byte)) : ∀ s, canSave s → (∀ p ∈ ws, p.1 < 65536) → (s.writeArea 0 ws).2 = true := by
  induction ws with
  | nil => intro s _ _; rfl
  | cons p rest ih =>
    intro s h hp
    obtain ⟨o, b⟩ := p
    have hv := areaVa_canSave h
    simp only [State.writeArea, hv.1, hv.2, write_canSave h (hp _ List.mem_cons_self)]
    exact ih _ (step_canSave h) (fun q hq => hp q (List.mem_cons_of_mem _ hq))

theorem saveWrites_offset {bs : List Byte} {p : Nat × Byte} (hn : 4 ≤ bs.length) (h : p ∈ saveWrites bs) : p.1 < bs.length := by
  unfold saveWrites at h
  rcases List.mem_append.mp h with h | h
  · rcases List.mem_append.mp h with h | h
    · obtain ⟨i, hi, rfl⟩ := List.mem_map.mp h
      have := List.mem_range.mp hi
      simp only; omega
    · exact List.mem_range.mp (List.of_mem_zip (List.mem_of_mem_drop h)).1
  · have := List.mem_range.mp (List.of_mem_zip h).1
    omega

theorem area_hits {s : State} {va : W64} {o : Nat} (n : Need) (hv : va = 0) (ht : s.tlbOf (some 0) = [areaPage]) (hn : n.allows areaPage.leaf = true) (ho : o < 65536) :
    s.hits (some 0) (va + BitVec.ofNat 64 o) n (0x10000 + o) := by
  subst hv
  have e : ((((0 : W64) + BitVec.ofNat 64 o).setWidth 56).setWidth 64).toNat = o := by simp; omega
  have m : areaPage.maps ((((0 : W64) + BitVec.ofNat 64 o).setWidth 56).setWidth 64) = true := by
    simp only [TlbEntry.maps, e]
    simp [areaPage, pageBytes]
    omega
  refine ⟨areaPage, ?_, hn, fun _ => rfl, ?_⟩
  · rw [ht, List.find?_cons, m]
  · simp only [leafPa, e]
    rw [show ptePfn areaPage.leaf * 65536 = 0x10000 from rfl, show max (pageBytes (pteSz areaPage.leaf)) 65536 = 65536 from rfl, Nat.mod_eq_of_lt ho]

theorem pair_of {α : Type} {x : α × Bool} (h : x.2 = true) : x = (x.1, true) := by rw [← h]

theorem area_length : (((saving.layOut 0).grp 0).area).length = 9856 := by decide +kernel

theorem test_area_written : ((saving.layOut 0).writeArea 0 (saveWrites ((saving.layOut 0).grp 0).area)).2 = true :=
  area_written _ _ ⟨⟨_, rfl, rfl, rfl, rfl⟩, rfl, rfl⟩ (fun p hp => by
    have := saveWrites_offset (by rw [area_length]; decide) hp
    rw [area_length] at this
    omega)

/-- The last group of a run that is being suspended. -/
def suspending : State := { saving with runs := [(1, { run1 with st := .saving })] }

theorem saves_now : saving.savesNow 0 (fun o => 0x10000 + o) ∧ suspending.savesNow 0 (fun o => 0x10000 + o) := by
  have d : saving.allDone 0 ∧ suspending.allDone 0 := by
    unfold State.allDone
    decide
  have n : ((suspending.layOut 0).grp 0).area.length = 9856 := by decide +kernel
  refine ⟨⟨rfl, rfl, rfl, d.1, rfl, rfl, fun o ho => area_hits _ rfl rfl rfl ?_⟩, rfl, rfl, rfl, d.2, rfl, rfl, fun o ho => area_hits _ rfl rfl rfl ?_⟩
  · rw [area_length] at ho
    omega
  · rw [n] at ho
    omega

/-- Drained, with the run running and with it being suspended; kept by an access in flight; with an error in v3; and one whose restore is under way. -/
theorem witness_groupSave : saving.savesNow 0 (fun o => 0x10000 + o) ∧ suspending.savesNow 0 (fun o => 0x10000 + o) ∧
    ((saving.run 1).map (·.st) = some .running ∧ suspending.runOf 0 = some 1 ∧ suspending.run 1 = some { run1 with st := .saving } ∧
      (∀ p ∈ suspending.runs, p = (1, { run1 with st := .saving }) ∨ p.2.st = .ended) ∧ suspending.groups.filter (fun p => p.2.st.resident) = [(0, suspending.grp 0)]) ∧
    (∃ u, (saving.grp 0).st = .yielding ∧ (saving.grp 0).area = [] ∧ saving.frecs = [] ∧ saving.saveDrained 0 = true ∧ saving.saveBad 0 = none ∧
      (saving.layOut 0).writeArea 0 (saveWrites ((saving.layOut 0).grp 0).area) = (u, true)) ∧
    (yielding (fun x => { x with
      st := .yielding
      acc := [scalarAccess 9 0 0 .sts 0 0x10000 0 3 4 0x100] })).saveDrained 0 = false ∧
    (let s := yielding (fun x => { x with
      st := .yielding
      vBad := [3] })
     s.saveDrained 0 = true ∧ (s.grp 0).vBad ≠ []) ∧
    (let s := yielding (fun x => { x with
      st := .yielding
      away := true })
     (s.grp 0).st = .yielding ∧ (s.grp 0).away = true ∧ (saving.grp 0).away = false) :=
  ⟨saves_now.1, saves_now.2, ⟨rfl, rfl, rfl, by simp [suspending], rfl⟩, ⟨_, rfl, rfl, rfl, rfl, rfl, pair_of test_area_written⟩, rfl, ⟨rfl, List.cons_ne_nil _ _⟩, rfl, rfl, rfl⟩

/-! An area that may be restored: a header, few bytes, and zeros. -/

theorem le64_zeros (n : Nat) : ∀ m, le64 (List.replicate m 0) n = 0 := by
  induction n with
  | zero => intro m; cases m <;> rfl
  | succ n ih =>
    intro m
    cases m with
    | zero => simpa [le64] using ih 0
    | succ m => simpa [le64, List.replicate_succ] using ih m

theorem numAt_zeros {a : List Byte} {n i k : Nat} (h : a.length ≤ i) : numAt (a ++ List.replicate n 0) i k = 0 := by
  rw [numAt, List.drop_append, List.drop_eq_nil_of_le h, List.nil_append, List.drop_replicate, le64_zeros]

/-- The header of group 0, with one live split, 0. -/
def areaHead : List Byte := leBytes 4 0x5A435458 ++ leBytes 2 1 ++ leBytes 2 0 ++ leBytes 1 32 ++ leBytes 1 1 ++ leBytes 2 0 ++ leBytes 2 4 ++
  leBytes 1 1 ++ leBytes 1 0 ++ leBytes 8 0 ++ leBytes 8 9856 ++ [0x100, 0x1100, 0x11C0, 0x1280, 0x2680, 0x2680, 0x2680].flatMap (leBytes 4)

/-- An area whose split 0 has `b` in byte 1 of its queue lengths. -/
def area0 (b : Byte) : List Byte := (areaHead ++ List.replicate (0x309 - 60) 0 ++ [b]) ++ List.replicate (9856 - 0x30A) 0

theorem area0_zero (b : Byte) {i k : Nat} (h : 0x30A ≤ i) : numAt (area0 b) i k = 0 :=
  numAt_zeros (by rw [List.length_append, List.length_append, List.length_replicate]; exact h)

theorem area0_names (b : Byte) (x : Group) : namesAllowed x (area0 b) = true := by
  simp only [namesAllowed, List.all_eq_true]
  intro n _
  have h1 : tagAt (area0 b) n = 0 := by rw [tagAt, area0_zero b (by omega)]; simp
  rw [h1, area0_zero b (by omega)]
  rfl

theorem area0_gNames (b : Byte) : gNames (area0 b) = [] := by
  simp only [gNames, List.filter_eq_nil_iff]
  intro n _
  rw [tagAt, area0_zero b (by omega)]
  simp

/-- Group 0 is placed again, its area read but not taken over. -/
def away (bs : List Byte) : State := { withG (fun x => { x with
    st := .saved
    away := true
    area := bs }) with
  teams := [(0, { launch := 0, cluster := 0, rank := 0, core := 0, corner := 0, spbase := 0, tiles := [0], bank := none, resident := true })] }

theorem area0_head (b : Byte) (hb : b ∈ [0, 16]) : headOk ((away []).grp 0) false ((away []).allocation 0) (area0 b) = true := by
  have h : areaLayout ((away []).grp 0) (area0 b) = ([0x100, 0x1100, 0x11C0, 0x1280, 0x2680, 0x2680, 0x2680], 9856) := by
    simp only [areaLayout, area0_gNames]
    revert b
    decide +kernel
  simp only [headOk, h]
  clear h
  revert b
  decide +kernel

theorem read_done {s : State} {g : Nat} {bs : List Byte} (hx : (s.grp g).area = bs) (hl : bs.length = 9856)
    (hh : headOk (s.grp g) (((s.launch (s.grp g).launch).map (·.stage)).getD false) (s.allocation g) bs = true) (hn : namesAllowed (s.grp g) bs = true) (ht : numAt bs 0x18 8 = 9856) :
    s.readAreas [g] = (s, none) := by
  have h : s.readWhole g = (s, .ok) := by
    unfold State.readWhole
    rw [hx, hl]
    simp only [Nat.sub_self, State.readArea, hx, hh, hn, ht, hl, Bool.not_true, Bool.or_self, Bool.false_eq_true, if_false]
  simp only [State.readAreas, h]

theorem area0_length (b : Byte) : (area0 b).length = 9856 := by
  have : areaHead.length = 60 := by decide
  rw [area0, List.length_append, List.length_append, List.length_append, List.length_replicate, List.length_replicate, this, List.length_singleton]

theorem area0_total : ∀ b ∈ [0, 16], numAt (area0 b) 0x18 8 = 9856 := by decide +kernel

theorem area0_read (b : Byte) (hb : b ∈ [0, 16]) : (away (area0 b)).readAreas [0] = (away (area0 b), none) :=
  read_done rfl (area0_length b) (area0_head b hb) (area0_names b _) (area0_total b hb)

theorem read_fails {s : State} {g : Nat} {bs : List Byte} (hx : (s.grp g).area = bs) (hl : bs.length = 9856)
    (hh : headOk (s.grp g) (((s.launch (s.grp g).launch).map (·.stage)).getD false) (s.allocation g) bs = false) : s.readAreas [g] = (s, some (g, .failed 0x1B 0)) := by
  have h : s.readWhole g = (s, .failed 0x1B 0) := by
    unfold State.readWhole
    rw [hx, hl]
    simp only [Nat.sub_self, State.readArea, hx, hh, Bool.not_false, Bool.true_or, if_true]
  simp only [State.readAreas, h]

def zeroArea : List Byte := List.replicate 9856 0

theorem zeroArea_length : zeroArea.length = 9856 := by rw [zeroArea, List.length_replicate]

theorem away_group (bs : List Byte) : ((away bs).teams.find 0).map (·.resident) = some true ∧ (away bs).awayGroups 0 = [0] ∧ (away bs).frecs = [] :=
  ⟨rfl, rfl, rfl⟩

theorem zeroArea_head : headOk ((away zeroArea).grp 0) false ((away zeroArea).allocation 0) zeroArea = false := by decide +kernel

theorem zeroArea_read : (away zeroArea).readAreas [0] = (away zeroArea, some (0, .failed 0x1B 0)) := read_fails rfl zeroArea_length zeroArea_head

theorem area0_loads : ((away (area0 0)).loadGroup 0).isSome = true ∧ (away (area0 16)).loadGroup 0 = none := by decide +kernel

/-- Group 0 is placed again, with memory `m` and nothing of its area read. -/
def unread (m : Memory) : State := { away [] with
  cores := saving.cores
  hbm := m }

theorem unread_facts (m : Memory) : (unread m).tlbOf (some 0) = [areaPage] ∧ (unread m).areaVa 0 = 0 ∧ (unread m).hbmBad = [] ∧ (unread m).grp 0 = (away []).grp 0 ∧
    (unread m).allocation 0 = (away []).allocation 0 ∧ (unread m).nextId = (away []).nextId ∧ (unread m).clock = (away []).clock ∧
    ((unread m).teams.find 0).map (·.resident) = some true ∧ (unread m).awayGroups 0 = [0] ∧ (unread m).frecs = [] :=
  ⟨rfl, rfl, rfl, rfl, rfl, rfl, rfl, rfl, rfl, rfl⟩

theorem written_read (bs : List Byte) : ∃ m : Memory, ∀ o, o < bs.length → m.read (0x10000 + o) = bs.getD o 0 := by
  refine ⟨Memory.writeN [] 0x10000 bs, fun o ho => ?_⟩
  have e : 0x10000 ≤ 0x10000 + o ∧ 0x10000 + o < 0x10000 + bs.length := ⟨by omega, by omega⟩
  have h := Memory.read_writeN [] 0x10000 (0x10000 + o) bs rfl
  rw [if_pos e, Nat.add_sub_cancel_left] at h
  exact h

theorem area0_taken : (groupOf ((away []).grp 0) (area0 0) (away []).nextId (away []).clock).isSome = true ∧
    (areaTiles ((away []).grp 0).team (area0 0) ((areaLayout ((away []).grp 0) (area0 0)).1.getD 5 0)).isSome = true := by decide +kernel

theorem unread_area (m : Memory) {o : Nat} (ho : o < 65536) :
    (unread m).hits (some ((unread m).grp 0).core) ((unread m).areaVa 0 + BitVec.ofNat 64 o) { r := true } (0x10000 + o) ∧ (unread m).hbmBadIn (0x10000 + o) 1 = false := by
  refine ⟨area_hits _ (unread_facts m).2.1 (unread_facts m).1 rfl ho, ?_⟩
  simp only [State.hbmBadIn, (unread_facts m).2.2.1, List.any_nil]

/-- The restore of a group goes on from its area's bytes in memory. -/
theorem witness_areaRestored : ∃ m y ts, (∀ o, o < (area0 0).length →
      (unread m).hits (some ((unread m).grp 0).core) ((unread m).areaVa 0 + BitVec.ofNat 64 o) { r := true } (0x10000 + o) ∧
      (unread m).hbmBadIn (0x10000 + o) 1 = false ∧ (unread m).hbm.read (0x10000 + o) = (area0 0).getD o 0) ∧
    0x2680 ≤ (area0 0).length ∧ (area0 0).length = numAt (area0 0) 0x18 8 ∧ headOk ((unread m).grp 0) ((((unread m).launch ((unread m).grp 0).launch).map (·.stage)).getD false) ((unread m).allocation 0) (area0 0) = true ∧
    namesAllowed ((unread m).grp 0) (area0 0) = true ∧ groupOf ((unread m).grp 0) (area0 0) (unread m).nextId (unread m).clock = some y ∧
    areaTiles ((unread m).grp 0).team (area0 0) ((areaLayout ((unread m).grp 0) (area0 0)).1.getD 5 0) = some ts := by
  obtain ⟨y, hy⟩ := Option.isSome_iff_exists.mp area0_taken.1
  obtain ⟨ts, ht⟩ := Option.isSome_iff_exists.mp area0_taken.2
  obtain ⟨m, hm⟩ := written_read (area0 0)
  obtain ⟨-, -, -, hg, ha, hn, hc, -⟩ := unread_facts m
  rw [← hg, ← hn, ← hc] at hy
  rw [← hg] at ht
  refine ⟨m, y, ts, fun o ho => ⟨(unread_area _ ?_).1, (unread_area _ ?_).2, hm o ho⟩, by rw [area0_length],
    by rw [area0_length]; exact (area0_total 0 (by decide)).symm, by rw [hg, ha]; exact area0_head 0 (by decide), area0_names 0 _, hy, ht⟩ <;>
    exact lt_trans ho (by rw [area0_length]; decide)

/-- An area that may be taken over, one whose queue has more than eight entries, and one of zeros. -/
theorem witness_teamRestore : (∀ bs, ((away bs).teams.find 0).map (·.resident) = some true ∧ (away bs).awayGroups 0 = [0] ∧ (away bs).frecs = []) ∧
    (away (area0 0)).readAreas [0] = (away (area0 0), none) ∧ ((away (area0 0)).loadGroup 0).isSome = true ∧
    (away (area0 16)).readAreas [0] = (away (area0 16), none) ∧ (away (area0 16)).loadGroup 0 = none ∧
    (away zeroArea).readAreas [0] = (away zeroArea, some (0, .failed 0x1B 0)) :=
  ⟨away_group, area0_read 0 (by decide), area0_loads.1, area0_read 16 (by decide), area0_loads.2, zeroArea_read⟩


/-! ## Witnesses: graphs -/

/-- A graph of a kernel node that precedes another of two predecessors, and a stage node of three slots. -/
def node0 : Node := { kind := 1, prio := 0, npred := 0, nsucc := 1, maxgrp := 1, succ := 0, kdesc := 0, clusters := 1, ctxBase := 0, ctxStride := 0,
                      rsize := 1, count := 3, depth := 1, timer := 0, pool := 0, pages := 1, args := [] }

def node1 : Node := { node0 with
  npred := 2
  nsucc := 0 }

def stage1 (timer : Nat) : Node := { node0 with
  kind := 2
  nsucc := 0
  timer := timer }

def graph2 : Graph := { nodes := [node0, node1, stage1 1000, stage1 0], edges := [1], endNode := 1 }

/-- A run of it: node 0 enqueued with one launch whose one group is `st`; a record waits in node 2's bin. -/
def graphState (st : GState) (f : Group → Group) : State := { withG (fun x => f { x with st := st }) with
  graphs := [(0, graph2)]
  runs := [(1, { run1 with nodes := [(0, { NodeSt.init 0 with enqueued := true }), (1, NodeSt.init 2),
    (2, { NodeSt.init 1 with bin := [{ slot := 0, depth := 0, entered := 0 }] }), (3, NodeSt.init 1)] })]
  cores := [(0, { Core.reset with tlb := [fetchPage] })] }

/-- A record of a RECPUT for node `k`. -/
def recAcc (k : W32) : Access :=
  { id := 9, split := 0, op := .recput 0,
    lanes := [{ lane := 31, va := 0, place := none, size := 16, data := [1, 2, 3, 4], cmp := [k], result := none, fault := none }],
    dst := 3, dcount := 1, mreg := 0, flag := none, ctr := some 0, acq := false, rel := true, scope := 0, addr := 0 }

theorem witness_nodesAndStages : (let s := graphState .exited id
      (s.run 1).map (·.st) = some .running ∧ s.graphs.find 0 = some graph2 ∧ graph2.nodes[0]? = some node0 ∧ s.launchesOf 1 0 ≠ [] ∧
      (∀ p ∈ s.launchesOf 1 0, s.launchDone p.1 p.2 = true) ∧ (graph2.edges.drop node0.succ).take node0.nsucc = [1] ∧
      (s.run 1).map (fun x => ((x.nodeSt 0).enqueued, (x.nodeSt 0).done, (x.nodeSt 1).counter)) = some (true, false, 2)) ∧
    (let s := graphState .active id
     ∃ p ∈ s.launchesOf 1 0, s.launchDone p.1 p.2 = false) ∧
    (let s := graphState .active (fun x => { x with acc := [recAcc 9] })
     (s.grp 0).acc.find? (fun b => b.id == 9) = some (recAcc 9) ∧ s.launch (s.grp 0).launch = some launch0 ∧ (s.grp 0).mayPerform (recAcc 9) = true ∧
       (s.grp 0).st.resident = true ∧ launch0.stage = false ∧ 31 < (s.grp 0).desc.w ∧ s.node 0 9 = none) ∧
    (∃ x n u v, let s := graphState .active (fun x => { x with acc := [recAcc 3] })
     s.run 1 = some x ∧ s.node x.graph 3 = some n ∧ n.kind = 2 ∧ (x.nodeSt 3).done = false ∧ nextSlotOf n (x.nodeSt 3) = some u ∧ s.replay = none ∧
       (x.nodeSt 3).bin.length + 1 < n.count ∧ (x.nodeSt 3).counter ≠ 0 ∧ n.timer = 0 ∧
       s.writeVirt none none (n.slotVa u) ((List.range 4).flatMap (fun i => leBytes 4 (([1, 2, 3, 4] : List W32).getD i 0).toNat) ++
         List.replicate (16 * n.rsize - 16) 0) = (v, .ok ()) ∧ v.runs = s.runs ∧ v.graphs = s.graphs ∧ v.replay = none ∧ v.clock = s.clock) ∧
    (∃ x n o, let s : State := { graphState .exited id with clock := 1000 }
     s.run 1 = some x ∧ s.node x.graph 2 = some n ∧ n.kind = 2 ∧ x.st = .running ∧ s.replay = none ∧ (x.nodeSt 2).bin = o :: [] ∧
       (x.nodeSt 2).bin.length < n.count ∧ (x.nodeSt 2).counter ≠ 0 ∧ (s.openLaunches 1 2).length < n.maxgrp ∧ n.timer ≠ 0 ∧
       o.entered + n.timer ≤ s.clock ∧ (graphState .exited id).clock < o.entered + n.timer) := by
  refine ⟨⟨rfl, rfl, rfl, ?_, ?_, rfl, rfl⟩, ?_, ⟨rfl, rfl, rfl, rfl, rfl, ?_, rfl⟩,
    ⟨_, _, _, _, rfl, rfl, rfl, rfl, rfl, rfl, ?_, ?_, rfl, rfl, rfl, rfl, rfl, rfl⟩, _, _, _, rfl, rfl, rfl, rfl, rfl, rfl, ?_, ?_, ?_, ?_, ?_, ?_⟩ <;> decide

/-- An entry of graph 0 on stream 63 every 1000 ns, due at TIME 1000 or not yet; the stream busy with a held run. -/
def sail0 : SailEntry := { SailEntry.reset with
  offset := 999
  graph := 0
  stream := 63
  valid := true }

def sailing (time : Nat) (runs : Map Run) : State := { world with
  sail := [(4095, sail0)]
  sailPeriod := 1000
  runs := runs
  time := time }

theorem witness_sailFires : (sailing 999 []).sail.find 4095 = some sail0 ∧ (sailing 999 []).replay = none ∧ sail0.valid = true ∧ sail0.graph ≠ 0xFFFF ∧
    (sailing 998 []).dueRange sail0 = none ∧ (sailing 999 []).dueRange sail0 = some (0, 0) ∧ ((sailing 999 []).graphs.find sail0.graph).isSome = true ∧
    (sailing 999 []).streamBusy sail0.stream = false ∧ (sailing 999 []).graphBusy sail0.graph = false ∧
    (sailing 999 [(1, { run1 with stream := 63 })]).streamBusy sail0.stream = true ∧ sail0.policy = 0 :=
  ⟨rfl, rfl, rfl, by decide, rfl, rfl, rfl, rfl, rfl, rfl, rfl⟩

/-! ## Witnesses: the service and the package -/

/-- Ring `k` at 0x20000 of two entries, with PRODUCER 1 and CONSUMER 0, and bytes behind. -/
def ringed (k : Nat) (bs : List Byte) (s : State) : State := { s with
  ringDescs := [(k, { base := 0x20000, log2n := 1 })]
  hbm := Memory.writeN (Memory.writeN [] 0x20000 (leBytes 8 1)) 0x10000 bs }

def call0 (code : W32) (arg : W64) : SvcCall := { group := 0, split := 0, launch := 0, code := code, arg := arg, entry := some 0x20040 }

def calling (code : W32) (arg : W64) (bs : List Byte) : State := { ringed 2 bs world with calls := [(6, call0 code arg), (7, { call0 0 0 with entry := some 0x20080 })] }

/-- A block for MAP of 4096 bytes at 0x5000, and one whose access is 0; a page that an earlier MAP made; deliveries for no sequence, of VALUE 2, for an open one,
and of marked bytes. -/
theorem witness_serviceCalls : (calling 0xFFFFFFFF 0 []).callFirst { base := 0x20000, log2n := 1 } 6 0x20040 (call0 0xFFFFFFFF 0) ∧
    (calling 0 0 []).calls.find 7 = some { call0 0 0 with entry := some 0x20080 } ∧
    (∃ u bs, (calling 1 8 []).readVirt none { r := true } 8 64 = (u, .ok bs)) ∧
    (∃ u va k, (calling 1 0x10000 []).readVirt none { r := true } 0x10000 64 = (u, .fault va k)) ∧
    (∃ u bs w p, let s := calling 2 0 (leBytes 8 0x5000 ++ leBytes 8 4096 ++ leBytes 8 3)
      s.readVirt none { r := true } 0 24 = (u, .ok bs) ∧ numAt bs 0 8 = 0x5000 ∧ numAt bs 8 8 = 4096 ∧ numAt bs 16 8 = 3 ∧
        u.mapPage (BitVec.ofNat 64 (numAt bs 0 8)) (2 * numAt bs 16 8) = (w, p)) ∧
    (∃ u bs, let s := calling 2 0 (leBytes 8 0x5000 ++ leBytes 8 4096)
      s.readVirt none { r := true } 0 24 = (u, .ok bs) ∧ numAt bs 16 8 = 0) ∧
    (∃ u bs, let s : State := { calling 3 0 (leBytes 8 0x5000 ++ leBytes 8 4096 ++ leBytes 8 3) with svcMaps := [(0, 0x5000, 4096)] }
      s.readVirt none { r := true } 0 24 = (u, .ok bs) ∧ (0, BitVec.ofNat 64 (numAt bs 0 8), 4096) ∈ u.svcMaps) ∧
    (∃ u bs, let s := calling 4 0 (leBytes 24 0 ++ leBytes 8 2)
      s.readVirt none { r := true } 0 32 = (u, .ok bs) ∧ 1 < numAt bs 24 8 ∧ u.sequences.find (numAt bs 0 8) = none) := by
  refine ⟨⟨rfl, rfl, rfl, rfl, rfl, ?_, rfl, rfl, rfl, rfl⟩, rfl, ⟨_, _, rfl⟩, ⟨_, _, _, rfl⟩, ⟨_, _, _, _, rfl, rfl, rfl, rfl, rfl⟩, ⟨_, _, rfl, rfl⟩, ⟨_, _, rfl, ?_⟩, _, _, rfl, ?_, rfl⟩ <;>
    decide

/-- A sequence of one token. -/
def seq0 : Sequence := { port := 3, model := 5, key := 0, prog := 0, params := [], stops := [], holdback := true, tokens := [1], held := [],
                         generating := none, ended := false, limit := 2 }

/-- The page of VA 4096, marked, and not readable. -/
def markedPage : TlbEntry := { fetchPage with
  base := 4096
  leaf := 0x101AD#64 }

theorem witness_serviceDeliveries : (∃ u bs w b, let s : State := { calling 4 0 (leBytes 8 1 ++ leBytes 8 64 ++ leBytes 8 4) with sequences := [(1, seq0)] }
      s.readVirt none { r := true } 0 32 = (u, .ok bs) ∧ numAt bs 24 8 = 0 ∧ u.sequences.find (numAt bs 0 8) = some seq0 ∧ seq0.ended = false ∧
      u.firstMarked (BitVec.ofNat 64 (numAt bs 8 8)) (numAt bs 16 8) = none ∧
      u.readVirt none { r := true } (BitVec.ofNat 64 (numAt bs 8 8)) (numAt bs 16 8) = (w, .ok b)) ∧
    ∃ u bs, let s : State := { calling 4 0 (leBytes 8 1 ++ leBytes 8 4092 ++ leBytes 8 8) with
        sequences := [(1, seq0)]
        ioTlb := [fetchPage, markedPage] }
      s.readVirt none { r := true } 0 32 = (u, .ok bs) ∧ u.sequences.find (numAt bs 0 8) = some seq0 ∧
      u.firstMarked (BitVec.ofNat 64 (numAt bs 8 8)) (numAt bs 16 8) = some 4096 :=
  ⟨⟨_, _, _, _, rfl, rfl, rfl, rfl, rfl, rfl⟩, _, _, rfl, rfl, rfl⟩

/-- A node at 0x400000 whose entry of VA 0 maps a page, and one that maps none; an error in the node. -/
theorem witness_servicePages : (let s : State := { world with hbm := tables, troot := 0x100000 }
      s.hbm.wf = true ∧ (BitVec.ofNat 64 (s.hbmNat (0x400000 + 8 * walkIndex 3 0x1000) 8)).getLsbD 0 = false ∧
      (BitVec.ofNat 64 (s.hbmNat (0x400000 + 8 * walkIndex 3 0) 8)).getLsbD 0 = true ∧ s.walk 0 = .leaf 0x400000 0x1000F ∧
      s.hbmBadIn (0x400000 + 8 * walkIndex 3 0) 8 = false ∧ ({ s with hbmBad := [0x20000] } : State).hbmBadIn (0x400000 + 8 * walkIndex 3 0) 8 = true) ∧
    ({ world with troot := 0x100000, hbmBad := [0x8000] } : State).walk 0 = .check 0x100000 :=
  ⟨⟨rfl, rfl, rfl, rfl, rfl, rfl⟩, by decide⟩

/-- A report for a ring with room, of a service call; a ring whose two entries are taken. -/
theorem witness_ringReports : (let s : State := { ringed 2 [] world with
        reports := [(2, [(some 6, leBytes 32 5)])]
        calls := [(6, { call0 0 0 with entry := none })] }
      s.ringDescs.find 2 = some { base := 0x20000, log2n := 1 } ∧ s.reports.get [] 2 = (some 6, leBytes 32 5) :: [] ∧ (leBytes 32 5).length = 32 ∧
      s.hbm.wf = true ∧ s.ringBad { base := 0x20000, log2n := 1 } = false ∧ ({ s with hbmBad := [0x1000] } : State).ringBad { base := 0x20000, log2n := 1 } = true ∧
      s.ringUsed { base := 0x20000, log2n := 1 } < 2 ^ 1 ∧
      ({ base := 0x20000, log2n := 1 } : RingDesc).entryAt 2 (s.ringProducer { base := 0x20000, log2n := 1 }) + 64 ≤ 0x6000000000) ∧
    2 ^ 0 ≤ (ringed 2 [] world).ringUsed { base := 0x20000, log2n := 0 } := by
  refine ⟨⟨rfl, rfl, rfl, rfl, rfl, rfl, ?_, ?_⟩, ?_⟩ <;> decide

/-- Service core 0 stands at the word `w`. -/
def fetching (w : Nat) : State := { service with hbm := Memory.writeN [] 0x10100 (leBytes 4 w) }

/-- No word; an EXIT; a TRAP of s5; a JR to s5, which is 7; a NOP; an ADD. -/
theorem fetching_own : ∀ w ∈ [0, 0x6C000000, 0xE0503E01, 0x60014000, 0xE0003E06, 0x04310500], (fetching w).ownWord 0 (BitVec.ofNat 32 w) := by
  have o : service.hits none 0x100 { x := true } 0x10100 := ⟨fetchPage, rfl, rfl, fun _ => rfl, rfl⟩
  have p : service.hits none (0x100 + 2) { x := true } 0x10102 := ⟨fetchPage, rfl, rfl, fun _ => rfl, rfl⟩
  intro w hw
  have q : BitVec.extractLsb' 0 2 (0x100 : W64) = 0 := rfl
  refine ⟨by decide, rfl, q, 0x10100, 0x10102, o, p, rfl, rfl, ?_⟩
  revert w
  decide

theorem witness_serviceTraps : (fetching 0).ownTraps 0 0x10 0 ∧ (fetching 0x6C000000).ownTraps 0 0x10 0 ∧ (fetching 0xE0503E01).ownTraps 0 0x02 7 ∧
    (fetching 0x60014000).ownTraps 0 0x12 7 ∧
    (service.setSvc 0 { service.svc 0 with pc := 0x102 }).ownTraps 0 0x12 0x102 ∧
    ({ service with ioTlb := [{ fetchPage with leaf := 0x10187#64 }] } : State).ownTraps 0 0x20 0x100 ∧
    (service.hits none (service.svc 0).pc { x := true } 0x10100 ∧ ({ service with hbmBad := [0x808] } : State).hbmBadIn 0x10100 2 = true) ∧
    decodeScalar 0xE0003E06 = .ok .nop ∧ decodeScalar 0x04310500 = .ok (.add 3 4 5) ∧ (service.svc 0).stvec = 0 ∧
    ((service.setSvc 0 { service.svc 0 with stvec := 0x80 }).svc 0).stvec ≠ 0 ∧ ((service.setSvc 0 { service.svc 0 with halted := true }).svc 0).halted = true ∧
    (ringed 3 [] service).ringDescs.find 3 = some { base := 0x20000, log2n := 1 } :=
  ⟨.illegal _ .zeroWord (fetching_own 0 (by decide)) rfl, .foreign _ .exit (fetching_own 0x6C000000 (by decide)) rfl (by decide),
    .trap _ 5 (fetching_own 0xE0503E01 (by decide)) rfl, .jr _ 5 (fetching_own 0x60014000 (by decide)) rfl (by decide),
    .pc (by decide) rfl (by decide), .fetch _ (by decide) rfl (by decide) rfl rfl, ⟨⟨fetchPage, rfl, rfl, fun _ => rfl, rfl⟩, rfl⟩, rfl, rfl, rfl, by decide, rfl, rfl⟩

/-! ## Witnesses: requests, the package, the Pennant -/

/-- A request of TYPE `y` on port 3 with request id 7. -/
def req (y flags handle : Nat) (b : List Byte) : Request := { type := y, port := 3, flags := flags, requestId := 7, handle := handle, body := b }

/-- Open ports, model 5, and the sequence 1, of one token. -/
def opened (q : Sequence) : State := { world with
  portsOpen := true
  models := [5]
  nextHandle := 2
  sequences := [(1, q)] }

theorem taking0 {s : State} (r : Request) (h : s.portsOpen = true ∧ s.heldInReset = false ∧ s.portsUp = []) (hr : r.delivery = .rod ∧ r.op = .send ∧ r.secured = true ∧
    r.context < 16384 ∧ r.port < 4) (hb : r.body.length ≤ 67108832) : s.taking r = true := by
  have hl : (requestBytes r).length ≤ 67108864 := by
    rw [requestBytes, List.length_append]
    exact Nat.add_le_add (Nat.le_of_eq (rfl : _ = 32)) hb
  simp only [State.taking, requestSupported, h, hr, Map.get, decide_eq_true hl]
  rfl

theorem accepts0 (q : Sequence) (y h : Nat) (b : List Byte) (hb : b.length ≤ 67108832) : (opened q).accepts (req y 7 h b) y :=
  ⟨taking0 _ ⟨rfl, rfl, rfl⟩ ⟨rfl, rfl, rfl, show 0 < 16384 by decide, show 3 < 4 by decide⟩ hb, rfl, rfl, rfl, show 7 < 8 by decide, rfl⟩

/-- Closed ports, reset, and what the transport does not carry; FLAGS 8, TYPE 12, a short body, sequence 2; a replay with a firing left. -/
theorem witness_requestsRefused : (world.portsOpen = false ∧ ({ req 2 7 0 [] with delivery := .rud } : Request).delivery ≠ .rod ∧
      ({ req 2 7 0 [] with op := .tagged } : Request).op ≠ .send ∧ 16384 ≤ ({ req 2 7 0 [] with context := 16384 } : Request).context) ∧
    ((opened seq0).taking (req 2 8 1 []) = true ∧ 8 ≤ (req 2 8 1 []).flags ∧ ({ req 2 7 1 [] with magic := 0 } : Request).magic ≠ 0x54494C52) ∧
    ((opened seq0).taking (req 12 7 1 []) = true ∧ 11 < (req 12 7 1 []).type % 65536) ∧
    ((opened seq0).accepts (req 2 7 1 [0, 0, 0]) 2 ∧ (req 2 7 1 [0, 0, 0]).body.length < 4) ∧
    ((opened seq0).accepts (req 5 7 2 []) 5 ∧ (opened seq0).sequences.find 2 = none) ∧
    (let l : List JEntry := [{ kind := 2, seq := 5, time := 0, body := leBytes 16 0 }]
     let s : State := { opened seq0 with replay := some l }
     s.taking (req 2 7 0 []) = true ∧ s.replay = some l ∧ ∀ e ∈ l, e.kind ≠ 1) := by
  refine ⟨⟨rfl, ?_, ?_, ?_⟩, ⟨rfl, ?_, ?_⟩, ⟨rfl, ?_⟩, ⟨accepts0 _ _ _ _ ?_, ?_⟩, ⟨accepts0 _ _ _ _ ?_, rfl⟩, rfl, rfl, ?_⟩ <;> decide

/-- OPEN with program 255 and flag 1; an ended sequence; one that generates with limit 2 or 1; APPEND of two tokens. -/
theorem witness_SequenceRequests : (let b := leBytes 8 5 ++ leBytes 8 9 ++ leBytes 4 255 ++ leBytes 4 1 ++ leBytes 72 0
      (opened seq0).accepts (req 2 7 0 b) 2 ∧ b.length = 0x60 ∧ numAt b 0x5C 4 = 0 ∧ numAt b 0x58 4 = 0 ∧ numAt b 0x14 4 < 2 ∧ numAt b 0x10 4 < 256 ∧
      BitVec.ofNat 64 (numAt b 0 8) ∈ (opened seq0).models) ∧
    (∀ y, (opened { seq0 with ended := true }).accepts (req y 7 1 []) y ∧
      ((opened { seq0 with ended := true }).sequences.find 1).map (·.ended) = some true) ∧
    (let b := leBytes 4 2 ++ leBytes 4 0 ++ leBytes 8 3
     (opened seq0).accepts (req 3 7 1 b) 3 ∧ (opened seq0).sequences.find 1 = some seq0 ∧ seq0.ended = false ∧ b.length = 8 + 4 * numAt b 0 4 ∧ numAt b 4 4 = 0) ∧
    (let b := leBytes 16 1
     (opened seq0).accepts (req 4 7 1 b) 4 ∧ b.length = 16 ∧ numAt b 4 4 = 0 ∧ numAt b 8 8 = 0 ∧ numAt b 0 4 ≠ 0 ∧ seq0.generating = none ∧
       ({ seq0 with generating := some 7 } : Sequence).generating = some 7) ∧
    (∀ l, let q : Sequence := { seq0 with
        generating := some 7
        limit := l }
      (opened q).sequences.find 1 = some q ∧ q.generating = some (req 4 7 1 []).requestId ∧ q.stops = [] ∧ q.held = [] ∧ q.holdback = true ∧ q.limit = l) ∧
    (∀ q y, (opened q).accepts (req y 7 1 []) y) := by
  refine ⟨⟨accepts0 _ _ _ _ ?_, rfl, rfl, rfl, ?_, ?_, ?_⟩, fun y => ⟨accepts0 _ _ _ _ ?_, rfl⟩, ⟨accepts0 _ _ _ _ ?_, rfl, rfl, rfl, rfl⟩,
    ⟨accepts0 _ _ _ _ ?_, rfl, rfl, rfl, ?_, rfl, rfl⟩, fun l => ⟨rfl, rfl, rfl, rfl, rfl, rfl⟩, fun _ _ => accepts0 _ _ _ _ ?_⟩ <;> decide

/-- An image without sections, and one cut short; SAIL of one entry for entry 4095; a journal with a firing; the bounds of POWER; and an entry that fits in HBM. -/
theorem witness_deviceRequests : (∃ v gs ps n, let b := leBytes 8 6 ++ leBytes 4 0x33464F4B ++ leBytes 2 3 ++ leBytes 2 2 ++ leBytes 32 2 ++ leBytes 8 64 ++ leBytes 17 1
      (opened seq0).accepts (req 1 7 0 b) 1 ∧ 8 ≤ b.length ∧
      ((opened seq0).note 1 (requestBytes (req 1 7 0 b))).loadImage (b.drop 8) = (v, .ok (gs, ps, n))) ∧
    (∃ v, let b := leBytes 8 6
      8 ≤ b.length ∧ ((opened seq0).note 1 (requestBytes (req 1 7 0 b))).loadImage (b.drop 8) = (v, .error (.refused 0 0))) ∧
    (∃ e, let b := leBytes 8 1000 ++ leBytes 8 0 ++ leBytes 4 1 ++ leBytes 4 0 ++ leBytes 8 4095 ++ leBytes 32 999
      b.length = 0x40 ∧ numAt b 0x10 4 = 1 ∧ numAt b 0x14 4 = 0 ∧ numAt b 0 8 = 1000 ∧ numAt b 0x18 8 = 4095 ∧
        sailOf ((b.drop 0x20).take 32) (opened seq0).time = some e) ∧
    (let b := leBytes 0x18 999
     numAt b 0 8 < 1000 ∧ b.length = 0x18 + 40 * numAt b 0x10 4 ∧ numAt b 0x14 4 = 0) ∧
    (let b := leBytes 0x18 0
     b.length = 0x18 ∧ numAt b 4 4 = 0 ∧ numAt b 0 4 = 0) ∧
    (let b := leBytes 8 1 ++ leBytes 8 5 ++ leBytes 8 5
     let e : JEntry := { kind := 2, seq := 5, time := 0, body := leBytes 16 0 }
     ({ opened seq0 with journal := [e] } : State).accepts (req 9 7 0 b) 9 ∧ b.length = 0x18 ∧ numAt b 4 4 = 0 ∧ numAt b 0 4 = 1 ∧
       numAt b 8 8 ≤ e.seq ∧ e.seq ≤ numAt b 0x10 8) ∧
    (numAt (leBytes 8 1000) 4 4 = 0 ∧ numAt (leBytes 8 1000) 0 4 = 1000 ∧ numAt (leBytes 8 1800) 0 4 = 1800 ∧ numAt (leBytes 8 999) 0 4 < 1000 ∧
      1800 < numAt (leBytes 8 1801) 0 4) ∧
    (let s : State := { world with journalAt := some 0x5FFFFFFFD8 }
     s.journalAt = some 0x5FFFFFFFD8 ∧ s.hbm.wf = true ∧ 0x5FFFFFFFD8 + 32 + (pad8 [1]).length ≤ 0x6000000000) := by
  refine ⟨⟨_, _, _, _, accepts0 _ _ _ _ ?_, ?_, rfl⟩, ⟨_, ?_, rfl⟩, ⟨_, rfl, rfl, rfl, rfl, rfl, rfl⟩, ⟨?_, rfl, rfl⟩, ⟨rfl, rfl, rfl⟩,
    ⟨⟨taking0 _ ⟨rfl, rfl, rfl⟩ ⟨rfl, rfl, rfl, show 0 < 16384 by decide, show 3 < 4 by decide⟩ ?_, rfl, rfl, rfl, show 7 < 8 by decide, rfl⟩, rfl, rfl, rfl, ?_, ?_⟩,
    ⟨rfl, rfl, rfl, ?_, ?_⟩, rfl, rfl, ?_⟩ <;> decide

/-- Boot step 3 is over; a window of power above the cap and one at it; links before step 3. -/
theorem witness_packageEvents : (let s : State := { State.reset with bootStep := 3 }
      s.linksReady = true ∧ s.links = [] ∧ s.deviceId = none ∧ ({ s with deviceId := some 3 } : State).linksReady = true) ∧
    State.reset.bootStep < 3 ∧
    (∀ u, ({ State.reset with links := [(2, { up := u, port := some 4 })] } : State).links.find 2 = some { up := u, port := some 4 }) ∧
    (State.reset.powerCap * 1000 * ((1800001 :: State.reset.powers).take 100).length < ((1800001 :: State.reset.powers).take 100).foldl (· + ·) 0 ∧
      ((1800000 :: State.reset.powers).take 100).foldl (· + ·) 0 ≤ State.reset.powerCap * 1000 * ((1800000 :: State.reset.powers).take 100).length) ∧
    ((State.reset.island 15).point < 6 ∧ 0 < (({ State.reset with islands := [(19, { State.reset.island 19 with point := 1 })] } : State).island 19).point) ∧
    (ringed 3 [] world).ringDescs.find 3 = some { base := 0x20000, log2n := 1 } := by
  refine ⟨⟨rfl, rfl, rfl, rfl⟩, ?_, fun _ => rfl, ⟨?_, ?_⟩, ⟨?_, ?_⟩, rfl⟩ <;> decide

/-- A turn that the hold in reset makes void. -/
theorem witness_bootAndReset : (State.reset.heldInReset = false ∧ State.reset.bootHalted = false ∧ State.reset.portsOpen = false ∧ State.reset.links = [] ∧
      State.reset.deviceId = none) ∧ (opened seq0).portsOpen = true ∧
    (let s : State := { world with
        heldInReset := true
        turns := [.run (.service 0)] }
     s.heldInReset = true ∧ s.turns = .run (.service 0) :: [] ∧ (Turn.run (.service 0)).inReset = false) :=
  ⟨⟨rfl, rfl, rfl, rfl, rfl⟩, rfl, rfl, rfl, rfl⟩

/-- A page of 128 KiB. -/
def bigPage : TlbEntry := { base := 0, size := 5, leaf := 0x4518F#64, slot := 0x10FF8 }

/-- The job ring at 0x20000 and the completion ring; a job of `b` bytes first, on a sequence that generates for request 7. -/
def pennant (n : Nat) (b : List Byte) : State := { opened { seq0 with generating := some 7 } with
  ringDescs := [(4, { base := 0x20000, log2n := 1 }), (5, { base := 0x21000, log2n := 1 })]
  hbm := Memory.writeN (Memory.writeN [] 0x20000 (leBytes 8 n)) 0x20040 b
  ioTlb := [bigPage] }

/-- A frame of 64 by 64 of 8 bits at VA 0, its manifest at 0x2000. -/
def frame0 (width : Nat) : List Byte := leBytes 16 1 ++ leBytes 4 width ++ leBytes 4 64 ++ leBytes 4 64 ++ leBytes 4 (8 + 256 * 3) ++ leBytes 8 7 ++ leBytes 8 5 ++
  leBytes 8 0x2000 ++ leBytes 8 0

theorem witness_pennantRefuses : ∃ y, (pennant 1 (frame0 62)).ringDescs.find 4 = some { base := 0x20000, log2n := 1 } ∧ (pennant 1 (frame0 62)).hbm.wf = true ∧
    (pennant 0 []).ringUsed { base := 0x20000, log2n := 1 } = 0 ∧ (pennant 0 []).ringBad { base := 0x20000, log2n := 1 } = false ∧
    ({ pennant 0 [] with hbmBad := [0x1000] } : State).ringBad { base := 0x20000, log2n := 1 } = true ∧ (pennant 1 (frame0 62)).ringUsed { base := 0x20000, log2n := 1 } ≠ 0 ∧
    (pennant 1 (frame0 62)).hbmBadIn 0x20040 64 = false ∧ (frameJobOf ((pennant 1 (frame0 62)).hbmRead 0x20040 64)).ok = false ∧
    (pennant 1 (frame0 62)).ringDescs.find 5 = some y := by
  refine ⟨_, rfl, rfl, rfl, rfl, rfl, ?_, rfl, rfl, rfl⟩
  decide

theorem paged (s : State) (va : W64) (n : Need) (ht : s.ioTlb = [bigPage]) (hv : va.toNat < 131072) (hn : n.allows bigPage.leaf = true) :
    ∃ pa, s.translate none va n = (s, .ok pa) := by
  have e : (va.setWidth 56).setWidth 64 = va := by
    apply BitVec.eq_of_toNat_eq
    simp only [BitVec.toNat_setWidth]
    omega
  have z : va.toNat % 2 ^ 56 / pageBytes 5 = 0 := Nat.div_eq_of_lt (by
    rw [show pageBytes 5 = 131072 from rfl]
    omega)
  have m : bigPage.maps va = true := by
    show (va.toNat % 2 ^ 56 / pageBytes 5 == 0) = true
    rw [z]
    rfl
  exact ⟨leafPa bigPage.leaf va, by
    simp only [State.translate, e, State.tlbOf, ht, List.find?_cons, m, hn, show pteD bigPage.leaf = true from rfl, Bool.not_true, Bool.and_false,
      Bool.false_eq_true, if_false]⟩

theorem paged_read (s : State) (ht : s.ioTlb = [bigPage]) (hb : s.hbmBad = []) (n : Nat) :
    ∀ va : W64, va.toNat + n ≤ 131072 → ∃ bs, s.readVirt none { r := true } va n = (s, .ok bs) := by
  induction n with
  | zero => exact fun _ _ => ⟨_, rfl⟩
  | succ n ih =>
    intro va h
    obtain ⟨pa, hp⟩ := paged s va { r := true } ht (by omega) rfl
    obtain ⟨bs, hr⟩ := ih (va + 1) (by rw [BitVec.toNat_add]; simp; omega)
    exact ⟨s.hbm.read pa :: bs, by simp only [State.readVirt, hp, State.hbmBadIn, hb, List.any_nil, Bool.false_eq_true, if_false, hr]⟩

theorem paged_rows (s : State) (ht : s.ioTlb = [bigPage]) (hb : s.hbmBad = []) (len pitch n : Nat) (hp : pitch < 65536) :
    ∀ va : W64, va.toNat + pitch * n + len ≤ 131072 → ∃ bs, s.readRows va len pitch n = (s, .ok bs) := by
  induction n with
  | zero => exact fun _ _ => ⟨_, rfl⟩
  | succ n ih =>
    intro va h
    rw [Nat.mul_succ] at h
    obtain ⟨a, ha⟩ := paged_read s ht hb len va (by omega)
    obtain ⟨bs, hr⟩ := ih (va + BitVec.ofNat 64 pitch) (by rw [BitVec.toNat_add, BitVec.toNat_ofNat]; omega)
    exact ⟨a ++ bs, by simp only [State.readRows, ha, hr]⟩

theorem paged_units (k : Nat) : ∀ (s : State) (va : W64) (bs : List Byte), s.ioTlb = [bigPage] → va.toNat + bs.length ≤ 131072 →
    ∃ t, writeUnits k s none none va bs = (t, .ok ()) := by
  induction k with
  | zero => exact fun _ _ _ _ _ => ⟨_, rfl⟩
  | succ k ih =>
    intro s va bs ht h
    cases bs with
    | nil => exact ⟨_, rfl⟩
    | cons b rest =>
      simp only [List.length_cons] at h
      obtain ⟨pa, hp⟩ := paged s va { w := true } ht (by omega) rfl
      obtain ⟨t, hw⟩ := ih (s.hbmWrite none pa ((b :: rest).take (32 - va.toNat % 32))) (va + BitVec.ofNat 64 (32 - va.toNat % 32))
        ((b :: rest).drop (32 - va.toNat % 32)) (by rw [← ht]; rfl) (by
          rw [BitVec.toNat_add, BitVec.toNat_ofNat, List.length_drop, List.length_cons]; omega)
      exact ⟨t, by simp only [writeUnits, hp, hw]⟩

theorem paged_write (bs : List Byte) (s : State) (va : W64) (ht : s.ioTlb = [bigPage]) (h : va.toNat + bs.length ≤ 131072) :
    ∃ t, s.writeVirt none none va bs = (t, .ok ()) := paged_units bs.length s va bs ht h

theorem paged_hits (s : State) (va : W64) (n : Need) (ht : s.ioTlb = [bigPage]) (hv : va.toNat < 131072) (hn : n.allows bigPage.leaf = true) :
    s.hits none va n (leafPa bigPage.leaf va) := by
  have e : (va.setWidth 56).setWidth 64 = va := by
    apply BitVec.eq_of_toNat_eq
    simp only [BitVec.toNat_setWidth]
    omega
  have m : bigPage.maps va = true := by
    show (va.toNat % 2 ^ 56 / pageBytes 5 == 0) = true
    rw [show va.toNat % 2 ^ 56 / pageBytes 5 = 0 from Nat.div_eq_of_lt (by rw [show pageBytes 5 = 131072 from rfl]; omega)]
    rfl
  refine ⟨bigPage, ?_, hn, fun _ => rfl, ?_⟩
  · rw [e]
    simp only [State.tlbOf, ht, List.find?_cons, m]
  · rw [e]

def job1 : FrameJob := ⟨1, 0, 64, 64, 64, 8, 3, 7, 5, 0x2000, true⟩

/-- The bytes of a manifest are 256 (R438). -/
theorem manifest_length (s : State) (j : FrameJob) (b : List Byte) : (s.manifestOf j b).length = 256 := by
  simp only [State.manifestOf, State.manifestHead, State.idField, fixedBytes, leBytes, List.length_append, List.length_map, List.length_range, List.length_replicate]
  rfl

/-- The state once the job is taken. -/
def taken1 : State := (pennant 1 (frame0 64)).ringTake { base := 0x20000, log2n := 1 }

/-- The mark's bytes are not known, and yet a good job's frame is read and its manifest written. -/
theorem witness_pennantSends : ∃ u v luma chroma, let s := pennant 1 (frame0 64)
    let j := frameJobOf (s.hbmRead 0x20040 64)
    s.ringUsed { base := 0x20000, log2n := 1 } ≠ 0 ∧ j.ok = true ∧ s.portsUp.get true j.port = true ∧
      s.generateOf j.request = some (1, { seq0 with generating := some 7 }) ∧
      s.ringBad { base := 0x20000, log2n := 1 } = false ∧ ({ s with portsUp := [(3, false)] } : State).portsUp.get true j.port = false ∧
      ({ s with sequences := [] } : State).generateOf j.request = none ∧
      (s.ringTake { base := 0x20000, log2n := 1 }).readFrame j = (u, .ok (luma, chroma)) ∧
      ({ u with freeNo := u.freeNo + 1 } : State).writeVirt none none j.manifest (u.manifestOf j (markedLuma luma ++ chroma)) = (v, .ok ()) := by
  have hj : frameJobOf ((pennant 1 (frame0 64)).hbmRead 0x20040 64) = job1 := by decide
  obtain ⟨l, hl⟩ := paged_rows taken1 rfl rfl 64 64 64 (by decide) 0 (by decide)
  obtain ⟨a, ha⟩ := paged_rows taken1 rfl rfl 32 32 32 (by decide) 4096 (by decide)
  obtain ⟨c, hc⟩ := paged_rows taken1 rfl rfl 32 32 32 (by decide) 5120 (by decide)
  obtain ⟨t, ht⟩ := paged_write (taken1.manifestOf (frameJobOf ((pennant 1 (frame0 64)).hbmRead 0x20040 64)) (markedLuma l ++ (a ++ c))) { taken1 with freeNo := taken1.freeNo + 1 } 0x2000 rfl (by rw [manifest_length]; decide)
  refine ⟨taken1, t, l, a ++ c, ?_, ?_, rfl, ?_, rfl, ?_, rfl, ?_, ?_⟩
  · decide
  · rw [hj]
    decide
  · rw [hj]
    decide
  · rw [hj]
    decide
  · rw [hj]
    show taken1.readFrame job1 = _
    simp only [State.readFrame, FrameJob.sample, job1, if_true, Nat.mul_one]
    rw [hl]
    dsimp only
    rw [show (0 : W64) + BitVec.ofNat 64 (64 * 64) = 4096 from rfl, show 64 / 2 = 32 from rfl, ha]
    dsimp only
    rw [show (4096 : W64) + BitVec.ofNat 64 (32 * 32) = 5120 from rfl, hc]
  · rw [hj] at ht ⊢
    exact ht

/-- An error in the job's entry; a frame that cannot be read, and one with an error. -/
theorem witness_pennantStops : ({ pennant 1 (frame0 64) with hbmBad := [0x1002] } : State).hbmBadIn (0x20000 + 64 + 64 * 0) 64 = true ∧
    (∃ v va c, ({ taken1 with ioTlb := [] } : State).readFrame job1 = (v, .fault va c)) ∧
    ∃ v pa va, ({ taken1 with hbmBad := [0x2000] } : State).readFrame job1 = (v, .check pa va) := ⟨rfl, ⟨_, _, _, rfl⟩, _, _, _, rfl⟩

/-- Every byte of the job's frame, and its manifest, through the one page. -/
theorem witness_pennantReads : ∃ (lp : Nat → Nat → Nat) (cp : Nat → Nat → Nat → Nat) (mp : Nat → Nat), taken1.frameReads job1 lp cp ∧
    ∀ k, k < 8 → taken1.hits none (job1.manifest + BitVec.ofNat 64 (32 * k)) { w := true } (mp k) := by
  refine ⟨fun r c => leafPa bigPage.leaf (job1.lumaVa r c), fun v r c => leafPa bigPage.leaf (job1.chromaVa v r c),
    fun k => leafPa bigPage.leaf (job1.manifest + BitVec.ofNat 64 (32 * k)),
    ⟨fun r c hr hc => ⟨paged_hits taken1 _ _ rfl ?_ rfl, rfl⟩, fun v r c hv hr hc => ⟨paged_hits taken1 _ _ rfl ?_ rfl, rfl⟩⟩,
    fun k hk => paged_hits taken1 _ _ rfl ?_ rfl⟩
  · have h1 : r < 64 := hr
    have h2 : c < 64 := hc
    show (0 + BitVec.ofNat 64 (64 * r + c)).toNat < _
    rw [BitVec.toNat_add, BitVec.toNat_ofNat, show (0 : W64).toNat = 0 from rfl]
    omega
  · have h1 : r < 32 := hr
    have h2 : c < 32 := hc
    show (0 + BitVec.ofNat 64 (64 * 64 + v * (32 * 32) + 32 * r + c)).toNat < _
    rw [BitVec.toNat_add, BitVec.toNat_ofNat, show (0 : W64).toNat = 0 from rfl]
    omega
  · show (0x2000 + BitVec.ofNat 64 (32 * k)).toNat < _
    rw [BitVec.toNat_add, BitVec.toNat_ofNat, show (0x2000 : W64).toNat = 0x2000 from rfl]
    omega

/-! ## Witnesses: translation and the machine -/

/-- An entry with V = 0, a malformed one, a leaf and a table, in the slot of VA 0 of a node at 0x400000. -/
def slotted (e : W64) : State := { world with hbm := Memory.writeN [] 0x400000 (leBytes 8 e.toNat) }

theorem witness_walks : (slotted 0).hbmBadIn (0x400000 + 8 * walkIndex 3 0) 8 = false ∧
    (slotted 0).hbmNat (0x400000 + 8 * walkIndex 3 0) 8 = 0 ∧ (slotted 0x1081).hbmNat (0x400000 + 8 * walkIndex 3 0) 8 = 0x1081 ∧
    (slotted 0x1000F).hbmNat (0x400000 + 8 * walkIndex 3 0) 8 = 0x1000F ∧ (slotted 0x500001).hbmNat (0x400000 + 8 * walkIndex 3 0) 8 = 0x500001 :=
  ⟨rfl, rfl, rfl, rfl, rfl⟩

theorem witness_entries : badEntry 2 (0x1000F : W64) ∧ badEntry 3 0x500001#64 ∧ ¬ badEntry 3 (0x1000F : W64) ∧ ¬ badEntry 0 (0x501001 : W64) ∧
    ¬ badEntry 2 0x20900B#64 ∧ (0x1000F : W64).toNat / 2 % 8 ≠ 0 ∧ (0x501001 : W64).toNat / 2 % 8 = 0 := by
  refine ⟨?_, ?_, ?_, ?_, ?_, ?_, ?_⟩ <;> simp [badEntry]

/-- A buffer that holds nothing, one whose entry allows a write with D set, and one whose entry has D clear over tables that map nothing. -/
theorem witness_Translation : (let s : State := { world with
        troot := 0x100000
        hbm := tables
        ioTlb := [] }
      s.hbm.wf = true ∧ (∀ x ∈ s.tlbOf none, x.maps 0 = false) ∧ s.walk 0 = .leaf 0x400000 0x1000F#64 ∧ s.walk 0x1000 = .fault 0 ∧
      (0x1000F#64).getLsbD 1 = true ∧ (0x1000F#64).getLsbD 5 = false) ∧
    (let s : State := { world with
        troot := 0x100000
        hbm := withTables 0x10003 [] }
     s.walk 0 = .leaf 0x400000 0x10003#64 ∧ (0x10003#64).getLsbD 2 = false) ∧
    ((world.tlbOf none).find? (fun y => y.maps 0xFFF) = some fetchPage ∧ ({ w := true } : Need).allows fetchPage.leaf = true ∧ fetchPage.leaf.getLsbD 8 = true) ∧
    (let x := { fetchPage with leaf := 0x1000F#64 }
     ({ world with ioTlb := [x] } : State).walk 0xFFF = .fault 0 ∧ ({ w := true } : Need).allows x.leaf = true ∧ x.leaf.getLsbD 8 = false) ∧
    (let x := { fetchPage with leaf := 0x1018B#64 }
     (({ world with ioTlb := [x] } : State).tlbOf none).find? (fun y => y.maps 0xFFF) = some x ∧ x.leaf.getLsbD 2 = false) ∧
    ∃ t, world.translate none 0x1000 { r := true } = (t, .fault 0) := by
  refine ⟨⟨rfl, ?_, rfl, rfl, rfl, rfl⟩, ⟨rfl, rfl⟩, ⟨rfl, rfl, rfl⟩, ⟨rfl, rfl, rfl⟩, ⟨rfl, rfl⟩, _, rfl⟩
  decide

/-- `s` with the bytes `bs` at VA 0, and the turn `a`. -/
def turned (a : Turn) (bs : List Byte) (s : State) : State := { s with
  turns := [a]
  hbm := Memory.writeN [] 0x10000 bs
  ioTlb := [fetchPage]
  cores := s.cores.map (fun p => (p.1, { p.2 with tlb := [fetchPage] })) }

/-- A word before a scalar stream, and before a service core. -/
def scalarTurn (w : Nat) : State := turned (.run (.scalar 0 0)) (leBytes 4 w) (withP (fun p => { p with spc := 0 }))
def serviceTurn (w : Nat) : State := turned (.run (.service 0)) (leBytes 4 w) (service.setSvc 0 { service.svc 0 with pc := 0 })

/-- FN 0x1E, which no instruction has. -/
theorem witness_illegalWord : (∃ u t bs, (scalarTurn 0x0400001E).takesTurn (.scalar 0 0) u ∧ u.scalarMay 0 0 = true ∧ (u.split 0 0).spc.toNat % 4 = 0 ∧
      u.fetchHalves (some (u.grp 0).core) (u.split 0 0).spc 2 = (t, .ok bs) ∧ BitVec.ofNat 32 (numAt bs 0 4) = 1#6 ++ 0#6 ++ 0#6 ++ 0#6 ++ 0x1E#8) ∧
    ∃ u t bs, (serviceTurn 0x0400001E).takesTurn (.service 0) u ∧ (u.svc 0).halted = false ∧ (u.svc 0).pc.toNat % 4 = 0 ∧
      u.fetchHalves none (u.svc 0).pc 2 = (t, .ok bs) ∧ BitVec.ofNat 32 (numAt bs 0 4) = 1#6 ++ 0#6 ++ 0#6 ++ 0#6 ++ 0x1E#8 :=
  ⟨⟨_, _, _, ⟨_, rfl, rfl, rfl, rfl⟩, rfl, rfl, rfl, rfl⟩, _, _, _, ⟨_, rfl, rfl, rfl, rfl⟩, rfl, rfl, rfl, rfl⟩

/-- An `add` and a word of ones before a scalar stream; an `add` before a service core. -/
theorem witness_stepScalar : (∃ u t bs, (scalarTurn 0x04310500).takesTurn (.scalar 0 0) u ∧ u.scalarMay 0 0 = true ∧ (u.split 0 0).spc.toNat % 4 = 0 ∧
      u.fetchHalves (some (u.grp 0).core) (u.split 0 0).spc 2 = (t, .ok bs) ∧ decodeScalar (BitVec.ofNat 32 (numAt bs 0 4)) = .ok (.add 3 4 5)) ∧
    (∃ u t bs e, (scalarTurn 0xFFFFFFFF).takesTurn (.scalar 0 0) u ∧
      u.fetchHalves (some (u.grp 0).core) (u.split 0 0).spc 2 = (t, .ok bs) ∧ decodeScalar (BitVec.ofNat 32 (numAt bs 0 4)) = .error e) ∧
    ∃ u t bs, (serviceTurn 0x04310500).takesTurn (.service 0) u ∧ (u.svc 0).halted = false ∧ (u.svc 0).pc.toNat % 4 = 0 ∧
      u.fetchHalves none (u.svc 0).pc 2 = (t, .ok bs) ∧ decodeScalar (BitVec.ofNat 32 (numAt bs 0 4)) = .ok (.add 3 4 5) :=
  ⟨⟨_, _, _, ⟨_, rfl, rfl, rfl, rfl⟩, rfl, rfl, rfl, rfl⟩, ⟨_, _, _, _, ⟨_, rfl, rfl, rfl, rfl⟩, rfl, rfl⟩, _, _, _, ⟨_, rfl, rfl, rfl, rfl⟩, rfl, rfl, rfl, rfl⟩

/-- A short code before a clause of two units, its last halfword next. -/
def laneTurn (b : List Byte) : State := turned (.run (.lane 0 0)) b (lane { run0 with
  addr := 0 - 8#64
  off := 4
  len := 5 } id)

/-- The last code of a clause, and one that would run past its end; a Halyard word; an engine's command; an event, an upset. -/
theorem witness_stepOthers : (∃ u t bs h r, (laneTurn (leBytes 2 0x1000)).takesTurn (.lane 0 0) u ∧ u.laneIssues 0 0 = true ∧ (u.split 0 0).issuing = some (h, r) ∧
      u.fetchCode (u.grp 0).core (r.addr + BitVec.ofNat 64 (2 * r.off)) (r.len - r.off) = (t, some (.ok bs)) ∧ decodeLane (laneCodeOf bs) = .ok (.laneNopL16 1)) ∧
    (∃ u t h r, (laneTurn [3, 0]).takesTurn (.lane 0 0) u ∧ (u.split 0 0).issuing = some (h, r) ∧
      u.fetchCode (u.grp 0).core (r.addr + BitVec.ofNat 64 (2 * r.off)) (r.len - r.off) = (t, none)) ∧
    (∃ u t bs, (turned (.run (.halyard 0 7)) (leBytes 8 (2 ^ 60 * 8)) (contexts { hal0 with pc := 0 } (withG id))).takesTurn (.halyard 0 7) u ∧
      (u.hal 0 7).running = true ∧ (u.hal 0 7).parked = false ∧ (u.core 0).halted = false ∧ u.fetchHalves (some 0) (u.hal 0 7).pc 4 = (t, .ok bs) ∧
      decodeHalyard (BitVec.ofNat 64 (numAt bs 0 8)) = .ok (.hlEnd { d := 0, a := 0, b := 0, x := 0, y := 0, imm := 0 })) ∧
    (∃ u, let m := cmd (.tfset (se 4 0)) [0]
     (turned (.run (.engine 0 1)) [] (engine 1 m id)).takesTurn (.engine 0 1) u ∧ (u.core 0).halted = false ∧ nextCmd (u.queue 0 1) = some m) ∧
    (∃ t, (turned (.event (.svcPing 0)) [] world).nextTurn = (some (.event (.svcPing 0)), t)) ∧
    ∃ t, (turned (.upset (.hbm 0)) [] world).nextTurn = (some (.upset (.hbm 0)), t) :=
  ⟨⟨_, _, _, _, _, ⟨_, rfl, rfl, rfl, rfl⟩, rfl, rfl, rfl, rfl⟩, ⟨_, _, _, _, ⟨_, rfl, rfl, rfl, rfl⟩, rfl, rfl⟩, ⟨_, _, _, ⟨_, rfl, rfl, rfl, rfl⟩, rfl, rfl, rfl, rfl, rfl⟩,
    ⟨_, ⟨_, rfl, rfl, rfl, rfl⟩, rfl, rfl⟩, ⟨_, rfl⟩, _, rfl⟩

/-- An older group whose scalar word, or whose lane code, can go. -/
def elder (f : Split → Split) (b : List Byte) : State := turned (.elapse 1 1) b { withG (fun x => { x with age := 1 }) with
  groups := [(0, { group0 with age := 1 }), (1, { group0 with splits := [(0, f { split0 with spc := 0 })] })]
  cores := [(0, Core.reset)] }

/-- Contexts 1 and 2 run, at one word. -/
def twoContexts : State := turned (.elapse 1 1) (leBytes 8 (2 ^ 60 * 8)) { withG id with cores := [(0, { Core.reset with
  hal := [(1, { hal0 with pc := 0 }), (2, { hal0 with pc := 0 })]
  halLast := 7 })] }

theorem witness_StepOrder : (world.turns = [] ∧ (turned (.elapse 1 1) [] world).turns = .elapse 1 1 :: [] ∧ (turned (.elapse 1 1) [] world).heldInReset = false ∧
      ({ turned (.elapse 1 1) [] world with turns := [] } : State).rankOf (.elapse 1 1) = none) ∧
    (let s : State := { turned (.event .clusterPlacement) [] world with phase := (6, 0, 0) }
     ({ s with turns := [] } : State).rankOf (.event .clusterPlacement) = some (5, 0, 0) ∧ rankLe s.phase (5, 0, 0) = false) ∧
    (let s : State := { world with cores := [(0, { Core.reset with
        halFree := 1
        sectors := [(0, { Sector.empty with
          scalarFree := 1
          laneFree := 2 })] })] }
     s.clock < (s.sector (s.grp 0).core (s.grp 0).sector).scalarFree ∧ s.clock < (s.sector (s.grp 0).core (s.grp 0).sector).laneFree ∧ s.clock < (s.core 0).halFree) ∧
    ((elder id (leBytes 4 0x04310500)).canGo (.scalar 1 0) = true ∧ ((elder id []).grp 0).st = .active ∧ ((elder id []).grp 1).st = .active ∧
      (1, (elder id []).grp 1) ∈ (elder id []).groups ∧ ((elder id []).grp 1).age < ((elder id []).grp 0).age) ∧
    (elder (fun p => { p with run := some { run0 with
        addr := 0 - 8#64
        off := 4 } }) (leBytes 2 0x1000)).canGo (.lane 1 0) = true ∧
    ((1 + 7 * ((twoContexts.core 0).halLast + 1)) % 8 < (2 + 7 * ((twoContexts.core 0).halLast + 1)) % 8 ∧ twoContexts.canGo (.halyard 0 1) = true) ∧
    (∃ t, (turned (.elapse 1 1) [] world).nextTurn = (some (.elapse 1 1), t) ∧ t.endClock.slew = 0) ∧
    (∃ t, (turned (.elapse 2 7) [] world).nextTurn = (some (.elapse (0 + 2) 7), t)) ∧
    ∃ t, (turned (.elapse 0 4000) [] { world with slew := 5 }).nextTurn = (some (.elapse 0 4000), t) ∧ 0 < t.slew := by
  refine ⟨⟨rfl, rfl, rfl, rfl⟩, ⟨rfl, rfl⟩, ⟨?_, ?_, ?_⟩, ⟨rfl, rfl, rfl, ?_, ?_⟩, rfl, ⟨?_, rfl⟩, ⟨_, rfl, rfl⟩, ⟨_, rfl⟩, _, rfl, ?_⟩ <;> decide

/-- Every operand at its highest value, in a scalar word, a lane code and a Halyard word. -/
theorem witness_EncodeDecode : (∃ w, (Instr.add 63 63 63).wellFormed = true ∧ encodeScalar (.add 63 63 63) = some w) ∧
    (∃ c, (Instr.laneAdd plainLane).wellFormed = true ∧ encodeLane (.laneAdd plainLane) = some c) ∧
    ∃ w, (Instr.hlEnd { d := 0, a := 0, b := 0, x := 0, y := 0, imm := 0 }).wellFormed = true ∧
      encodeHalyard (.hlEnd { d := 0, a := 0, b := 0, x := 0, y := 0, imm := 0 }) = some w := ⟨⟨_, rfl, rfl⟩, ⟨_, rfl, rfl⟩, _, rfl, rfl⟩

theorem witness_MemoryStaysCanonical : ∃ t, let s := turned (.event (.svcPing 0)) (leBytes 8 5) world
    s.memoryOk = true ∧ step s = .next t := ⟨_, rfl, rfl⟩

/-! ## Single steps -/

/-- A view of the next state, if there is one. -/
noncomputable def after {α : Type} (i : Instr) (s : State) (f : State → α) : Option α :=
  match exec i s with
  | .next t => some (f t)
  | .fault _ => none
  | .refused _ => none

/-- s3 after a scalar word; s4 and s5 hold `a` and `b`. -/
noncomputable def s3 (i : Instr) (a b : W64) : Option W64 := after i (valued a b 0 id) (fun t => (t.split 0 0).regs.get 0 3)

/-- R137: quotients truncate toward zero, and the corners of a division by zero and of the most negative number. -/
theorem test_div : s3 (.div 3 4 5) (-7) 2 = some (-3) ∧ s3 (.div 3 4 5) 5 0 = some (-1) ∧ s3 (.div 3 4 5) 0x8000000000000000 (-1) = some 0x8000000000000000 := by decide
theorem test_rem : s3 (.rem 3 4 5) (-7) 2 = some (-1) ∧ s3 (.rem 3 4 5) 5 0 = some 5 := by decide
theorem test_mulh : s3 (.mulh 3 4 5) (-1) 2 = some (-1) ∧ s3 (.mulhw 3 4 5) (-1) 2 = some 1 := by decide
theorem test_sar : s3 (.sar 3 4 5) 0x8000000000000000 65 = some 0xC000000000000000 := by decide
theorem test_rot : s3 (.rot 3 4 5) 1 1 = some 0x8000000000000000 := by decide
theorem test_clz : s3 (.clz 3 4) 0 0 = some 64 ∧ s3 (.clz 3 4) 1 0 = some 63 := by decide
/-- R138: the immediate is sign-extended; a write to s0 is discarded. -/
theorem test_sltiw : s3 (.sltiw 3 4 0x3FFF) 5 0 = some 1 := by decide
theorem test_addi_zero : after (.addi 0 4 1) (valued 5 0 0 id) (fun t => ((t.split 0 0).spc, t.sreg 0)) = some (0x104, 0) := by decide

/-- v3 after a lane instruction; v1 is affine from 5 by 3, v2 uniform 7. -/
noncomputable def v3 (i : Instr) : Option LaneReg := after i (lane run0 (fun x => { x with gid := 3 })) (fun t => (t.grp 0).v.get (.u 0) 3)

/-- R66, R170: the shapes of the worked example: lid is affine from GID times W by 1; a shift by a literal, and a sum with a uniform or an affine register, stay affine. -/
theorem test_lid : v3 (.lid { plainLane with
    a := 1021
    b := 1021 }) = some (.a 96 1) := by decide
theorem test_shl_affine : v3 (.laneShl { plainLane with
    b := 1023
    lit := some 2 }) = some (.a 20 12) := by decide
theorem test_add_affine : v3 (.laneAdd { plainLane with b := 1 }) = some (.a 10 6) := by decide
/-- R172: `bfe` with literal 0x0A05 takes bits 14:5; 0x0200 takes bits 1:0. -/
theorem test_bfe : v3 (.bfe { plainLane with
    a := 2
    b := 1023
    lit := some 0x0200 }) = some (.u 3) := by decide
/-- R170: the absolute value of the most negative number, as it wraps. -/
theorem test_sub_wraps : v3 (.laneSub { plainLane with
    a := 1021
    b := 2 }) = some (.u (-7)) := by decide
/-- R173: a comparison writes its mask's bits, those of active lanes alone. -/
theorem test_cmp : after (.cmpLtw { plainLane with d := 15 }) (lane { run0 with exec := 7 } id) (fun t => (t.grp 0).m.get 0 15) = some 1 := by decide
/-- R65, R272: a G value for a destination at or above GCOUNT is a shape trap, raised for the end of the clock. -/
theorem test_shape_trap : after (.laneMov { plainLane with
    a := 3
    b := 1021
    d := 14 }) (lane run0 id) (fun t => (t.fatals.map (fun f => (f.group, f.prio)), (t.grp 0).v.get (.u 0) 14)) = some ([(0, 4)], .u 0) := by decide

/-- A lane's result register is v3, its second v4. -/
noncomputable def v34 (i : Instr) (a b : LaneReg) : Option (LaneReg × LaneReg) :=
  after i (lane run0 (fun x => { x with v := [(1, a), (2, b)] })) (fun t => ((t.grp 0).v.get (.u 0) 3, (t.grp 0).v.get (.u 0) 4))

/-- R170: counts of zero, the high half of a product, and a saturated difference. -/
theorem test_lane_clz : (v34 (.laneClz { plainLane with b := 1021 }) (.u 0) (.u 0)).map (·.1) = some (.u 32) := by decide
theorem test_lane_mulh : (v34 (.laneMulh plainLane) (.u (-1)) (.u 2)).map (·.1) = some (.u (-1)) := by decide
theorem test_add_sat : (v34 (.laneAdd { plainLane with mod := 1 }) (.u 0x7FFFFFFF) (.u 1)).map (·.1) = some (.u 0x7FFFFFFF) := by decide
theorem test_abs_sat : (v34 (.laneAbs { plainLane with
    mod := 1
    b := 1021 }) (.u 0x80000000) (.u 0)).map (·.1) = some (.u 0x7FFFFFFF) := by decide

/-- R175, R169: the result is G (R66). 1.5 and 2.25 give 3.75; of a pair of infinities the difference is the canonical NaN. -/
theorem test_fadd : (v34 (.fadd plainLane) (.u 0x3FC00000) (.u 0x40100000)).map (·.1.lane 31) = some 0x40700000 := by decide
theorem test_fsub_nan : (v34 (.fsub plainLane) (.u 0x7F800000) (.u 0x7F800000)).map (·.1.lane 31) = some 0x7FC00000 := by decide
/-- R175: 3 times 2^-149, halved, ties to the even subnormal 2 times 2^-149. -/
theorem test_fmul_ties : (v34 (.fmul plainLane) (.u 3) (.u 0x3F000000)).map (·.1.lane 31) = some 2 := by decide

/-! ## Witnesses: cross-lane words, the tag table, ringsets -/

/-- Shuffle, vote of m1, a sum and a scan, the largest with its index in v2 and v3, and v1 of lane 0. -/
theorem witness_CrossLanes : (∃ e, (lane run0 id).laneFront 0x0C0 plainLane = .ok e ∧ e.act.getLsbD 31 = true ∧ plainLane.d.toNat < ((lane run0 id).grp e.g).desc.gcount) ∧
    (∃ e, (lane run0 id).laneFront 0x0C1 { plainLane with
        b := 1021
        d := 2 } = .ok e ∧ (2 : BitVec 10).toNat + 1 < ((lane run0 id).grp e.g).desc.gcount) ∧
    (∃ e f z v vs, (lane run0 id).laneFront 0x0C2 { plainLane with b := 1021 } = .ok e ∧
      reduction (roundingOf 0 e.run.fpctl) (e.run.fpctl.getLsbD 2) plainLane.mod.toNat = some (f, z) ∧ e.values (fun _ => true) = v :: vs) ∧
    (∃ e f z, (lane run0 id).laneFront 0x0C3 { plainLane with
        mod := 16
        b := 1021 } = .ok e ∧ reduction (roundingOf 0 e.run.fpctl) (e.run.fpctl.getLsbD 2) ((16 : BitVec 6).toNat % 16) = some (f, z)) ∧
    (∃ e, (lane run0 id).laneFront 0x0C2 { plainLane with
        mod := 11
        d := 2 } = .ok e ∧ e.act ≠ 0) ∧
    ∃ e, (lane run0 id).laneFront 0x0C4 plainLane = .ok e ∧ e.act.getLsbD 0 = true := by
  refine ⟨⟨_, rfl, rfl, ?_⟩, ⟨_, rfl, ?_⟩, ⟨_, _, _, _, _, rfl, rfl, rfl⟩, ⟨_, _, _, rfl, rfl⟩, ⟨_, rfl, ?_⟩, _, rfl, rfl⟩ <;> decide

/-- The tag table with the address of v0 and v1 in way 1 of set 0, with every way empty, and with every way of the set taken. -/
def tagged (l : Map TagWay) : State := { lane { run0 with exec := 1 } (fun x => { x with v := [(2, .u 1)] }) with cores := [(0, { Core.reset with tags := l })] }

theorem witness_TagsAndStreams : (∃ e, let s := tagged [(1, { valid := true, tag := 0, used := 0 })]
      s.laneFront 0x10D { plainLane with
        a := 0
        b := 1021 } = .ok e ∧ plainLane.d.toNat < (s.grp e.g).desc.gcount ∧ e.act.getLsbD 0 = true ∧ (s.core (s.grp e.g).core).holds (pairLane e.a 0) (setOf (pairLane e.a 0) + 1) = true ∧
        (s.core (s.grp e.g).core).holds (pairLane e.a 0) (setOf (pairLane e.a 0) + 0) = false) ∧
    (∀ j, j < 4 → ((tagged []).core 0).holds 0 (setOf 0 + j) = false) ∧ (((tagged []).core 0).way (setOf 0 + 0)).valid = false ∧
    (let c := (tagged ((List.range 4).map (fun j => (j, { valid := true, tag := 1, used := 4 - j })))).core 0
     ∀ j, j < 4 → c.holds 0 (setOf 0 + j) = false ∧ (c.way (setOf 0 + j)).valid = true ∧
       ((c.way (setOf 0 + 3)).used < (c.way (setOf 0 + j)).used ∨ ((c.way (setOf 0 + 3)).used = (c.way (setOf 0 + j)).used ∧ 3 ≤ j))) ∧
    (∃ e, (tagged []).laneFront 0x10E { plainLane with a := 0 } = .ok e ∧ e.act.getLsbD 0 = true ∧ (e.bv 0).toNat % 1024 = 1 ∧
      ((e.bv 0).toNat % 1024 / 4 == (pairLane e.a 0).toNat / 2 ^ 11 % 256) = true) ∧
    (∃ e, let s := lane run0 (fun x => { x with desc := { desc0 with gcount := 8 } })
      s.laneFront 0x0C6 { plainLane with
        a := 0
        b := 2
        c := 1
        d := 4 } = .ok e ∧ (4 : BitVec 10).toNat + 3 < (s.grp e.g).desc.gcount) ∧
    ∃ e, (lane run0 id).laneFront 0x10F { plainLane with
        a := 0
        b := 2
        c := 0
        d := 1021 } = .ok e := by
  refine ⟨⟨_, rfl, ?_, rfl, rfl, rfl⟩, ?_, rfl, ?_, ⟨_, rfl, rfl, rfl, rfl⟩, ⟨_, rfl, ?_⟩, _, rfl⟩ <;> decide

/-- Ringset words of v0 and v1, v2 and v3, into v2 and v3; and a code between the points of B15. -/
theorem witness_RingSets : let o : LaneOps := { plainLane with
      a := 0
      b := 2
      d := 2 }
    let p : LaneOps := { o with
      b := 1021 }
    let s := lane run0 id
    (∃ e f, ringEntries (.rsMul o) (s.ringSlot e o) = some (0x1C2, o, f) ∧ s.laneFront 0x1C2 o = .ok e ∧ o.d.toNat + 1 < (s.grp e.g).desc.gcount) ∧
    (∃ e, s.laneFront 0x1C3 o = .ok e) ∧ (∃ e, s.laneFront 0x1C4 p = .ok e) ∧ (∃ e, s.laneFront 0x1C6 o = .ok e) ∧ (∃ e, s.laneFront 0x1C7 o = .ok e) ∧
    (∃ e, s.laneFront 0x1CF p = .ok e) ∧ (∃ e, s.laneFront 0x1C8 o = .ok e) ∧ (∃ e, s.laneFront 0x1C9 o = .ok e) ∧ (∃ e, s.laneFront 0x1CA p = .ok e) ∧
    (∃ e, s.laneFront 0x1CD p = .ok e) ∧ (∃ e, s.laneFront 0x1CE p = .ok e ∧ pairLane e.a 0 ≠ 0 ∧ pairLane e.a 0 ≠ BitVec.allOnes 64) ∧
    (∃ e, s.laneFront 0x1CB p = .ok e) ∧ (∃ e, s.laneFront 0x1CC p = .ok e) ∧
    (RingSlot.b15.words.Pairwise (· < ·) ∧ (∀ w ∈ RingSlot.b15.words, 0 < w ∧ w < 0x7F800000) ∧ pointOrder RingSlot.b15.words 24 = laneOrder false 0x3F800000 ∧
      pointOrder RingSlot.b15.words 24 < laneOrder false 0x3FC00000 ∧ laneOrder false 0x3FC00000 < pointOrder RingSlot.b15.words 25) := by
  refine ⟨⟨_, _, rfl, rfl, ?_⟩, ⟨_, rfl⟩, ⟨_, rfl⟩, ⟨_, rfl⟩, ⟨_, rfl⟩, ⟨_, rfl⟩, ⟨_, rfl⟩, ⟨_, rfl⟩, ⟨_, rfl⟩, ⟨_, rfl⟩, ⟨_, rfl, ?_, ?_⟩, ⟨_, rfl⟩, ⟨_, rfl⟩, ?_, ?_, ?_, ?_, ?_⟩ <;> decide

/-! ## Witnesses: the floating-point functions -/

theorem real_of (f : Fmt) (c : Nat) : f.real c = (if f.minus c then -1 else 1) * (if f.mag c / 2 ^ f.mb = 0 then ((f.mag c % 2 ^ f.mb : Nat) / 2 ^ f.mb : ℚ) * 2 ^ (1 - (2 ^ (f.eb - 1) - 1) : Int)
    else (1 + ((f.mag c % 2 ^ f.mb : Nat) / 2 ^ f.mb : ℚ)) * 2 ^ (((f.mag c / 2 ^ f.mb : Nat) : Int) - (2 ^ (f.eb - 1) - 1))) := rfl

theorem test_one : f32.real 0x3F800000 = 1 := by simp [real_of, Fmt.minus, Fmt.mag, f32, show Nat.testBit 0x3F800000 31 = false by decide]

theorem test_minusOne : f32.real 0xBF800000 = -1 := by simp [real_of, Fmt.minus, Fmt.mag, f32, show Nat.testBit 0xBF800000 31 = true by decide]

theorem test_zero : f32.real 0 = 0 := by simp [real_of, Fmt.mag, f32]

theorem test_oneAndHalf : f32.real 0x3FC00000 = 3 / 2 := by
  simp [real_of, Fmt.minus, Fmt.mag, f32, show Nat.testBit 0x3FC00000 31 = false by decide]
  norm_num

theorem test_ofBinade : f32.real 0x43000000 = 128 ∧ f32.real 0xC3160000 = -150 := by
  constructor <;> simp [real_of, Fmt.minus, Fmt.mag, f32, show Nat.testBit 0x43000000 31 = false by decide, show Nat.testBit 0xC3160000 31 = true by decide] <;> norm_num

/-- 1, -1, 0, 1.5, the infinities, a quiet and a signalling NaN of binary32, and the numbers that stand at each bound. -/
theorem witness_RoundedArithmetic : f32 ∈ [f32, f16, bf16] ∧ f32.finite 0x3F800000 ∧ f32.finite 0xBF800000 ∧ f32.finite 0 ∧
    f32.real 0x3F800000 + f32.real 0x3F800000 ≠ 0 ∧ f32.real 0x3F800000 + f32.real 0xBF800000 = 0 ∧ f32.real 0x3F800000 * f32.real 0xBF800000 ≠ 0 ∧
    f32.real 0 * f32.real 0x3F800000 = 0 ∧ f32.real 0x3F800000 * f32.real 0x3F800000 + f32.real 0 ≠ 0 ∧
    f32.real 0x3F800000 * f32.real 0x3F800000 + f32.real 0xBF800000 = 0 ∧ f32.mag 0x7F800000 = f32.infCode ∧ f32.mag 0xFF800000 = f32.infCode ∧
    f32.isNan 0x7F800000 = false ∧ f32.isNan 0x7FC00000 = true ∧ f32.isSig 0x7F800001 = true ∧ f32.isNan 0xFF800000 = false ∧ f32.mag 0x80000000 = 0 ∧ f32.isNan 0 = false := by
  simp only [test_one, test_minusOne, test_zero]
  refine ⟨by simp, ?_, ?_, ?_, by norm_num, by norm_num, by norm_num, by norm_num, by norm_num, by norm_num, ?_⟩ <;> first | decide | exact ⟨by decide, by decide⟩

theorem witness_RoundedFunctions : f32.finite 0x3F800000 ∧ f32.real 0x3F800000 ≠ 0 ∧ 0 < f32.real 0x3F800000 ∧ f32.finite 0 ∧ f32.real 0 = 0 ∧
    f32.finite 0xBF800000 ∧ f32.real 0xBF800000 < 0 ∧ f32.real 0x3F800000 = 2 ^ (0 : Int) ∧ f32.finite 0x3FC00000 ∧ (2 : ℚ) ^ (0 : Int) < f32.real 0x3FC00000 ∧
    f32.real 0x3FC00000 < 2 ^ ((0 : Int) + 1) ∧ f32.real 0x3F800000 = (1 : Int) ∧ ((1 : Int) : ℚ) < f32.real 0x3FC00000 ∧ f32.real 0x3FC00000 < (1 : Int) + 1 ∧
    f32.finite 0x43000000 ∧ 128 ≤ f32.real 0x43000000 ∧ f32.finite 0xC3160000 ∧ f32.real 0xC3160000 ≤ -150 ∧ f32.isNan 0x7FC00000 = true ∧
    f32.mag 0xFF800000 = 0x7F800000 ∧ f32.isNan 0x3F800000 = false := by
  simp only [test_one, test_minusOne, test_zero, test_oneAndHalf, test_ofBinade]
  refine ⟨?_, by norm_num, by norm_num, ?_, trivial, ?_, by norm_num, by norm_num, ?_, by norm_num, by norm_num, by norm_num, by norm_num, by norm_num, ?_, le_refl _, ?_, le_refl _, ?_⟩ <;> first | decide | exact ⟨by decide, by decide⟩

/-- Conversions of 1, of 0 and of the largest numbers; elements that are zero, one, NaN and infinite, with scales 2^0 and NaN. -/
theorem witness_RoundedConversions : (let a : W32 := 0x3F800000
      f32.finite a.toNat ∧ f32.real a.toNat ≠ 0 ∧ |f32.real a.toNat| ≤ 448 ∧ f16.finite (a.toNat / 65536 ^ 1 % 65536) ∧ bf16.finite (a.toNat / 65536 ^ 1 % 65536) ∧ a.toInt ≠ 0) ∧
    (f32.finite (0 : W32).toNat ∧ f32.real (0 : W32).toNat = 0 ∧ (0 : W32).toInt = 0) ∧
    (f16.mag 0x7C00 = f16.infCode ∧ bf16.isNan 0x7FC0 = true ∧ f32.mag (0xFF800000 : W32).toNat = 0x7F800000 ∧ f32.isNan (0x7F800001 : W32).toNat = true) ∧
    (f32.finite 0x43F10000 ∧ 480 ≤ |f32.real 0x43F10000| ∧ 448 < |f32.real 0x43F10000|) ∧
    dqReal 0x53 7 = some 0 ∧ dqReal 0x53 0 = some 1 ∧ dqReal 0x4B 0x7F = none ∧ dqReal 0x4C 0x7C = none ∧ dqReal 0x4C 0xFD = none := by
  have h : f32.real 0x43F10000 = 482 := by
    simp [real_of, Fmt.minus, Fmt.mag, f32, show Nat.testBit 0x43F10000 31 = false by decide]
    norm_num
  refine ⟨⟨⟨by decide, by decide⟩, ?_, ?_, ⟨by decide, by decide⟩, ⟨by decide, by decide⟩, by decide⟩, ⟨⟨by decide, by decide⟩, test_zero, rfl⟩, ⟨by decide, by decide, by decide, by decide⟩, ⟨⟨by decide, by decide⟩, ?_, ?_⟩, ?_, ?_, by decide, by decide, by decide⟩
  · exact test_one ▸ one_ne_zero
  · show |f32.real 0x3F800000| ≤ 448
    norm_num [test_one]
  · norm_num [h]
  · norm_num [h]
  · simp [dqReal, psValue]
  · simp [dqReal, psValue]

/-! ## Witnesses: the work of engine commands -/

/-- The place of VA `a` below 65536. -/
def place (a : Nat) : Space × Nat := (.hbm, 0x10000 + a)

/-- A command alone in queue `q` of core 0, whose TLB maps VA 0 to 65535 to 0x10000 on; `m` is HBM. -/
def working (q : Nat) (k : Cmd) (m : Memory) : State := { engine q k id with
  hbm := m
  cores := [(0, { Core.reset with
    queues := [(q, [k])]
    tlb := [areaPage] })] }

theorem mapped_area {s : State} {need : Need} {a n : Nat} (ht : s.tlbOf (some 0) = [areaPage]) (hb : s.hbmBad = []) (hn : need.allows areaPage.leaf = true)
    (ha : a + n ≤ 65536) : s.mapped 0 place need a n := fun i hi => by
  have h := area_hits (va := 0) need rfl ht hn (show a + i < 65536 by omega)
  rw [zero_add] at h
  exact ⟨rfl, h, by simp only [State.badPlace, place, State.hbmBadIn, hb, List.any_nil]⟩

theorem reaches_area {s : State} {need : Need} {x : Group} {l : List Nat} (ht : s.tlbOf (some 0) = [areaPage]) (hb : s.hbmBad = [])
    (hn : need.allows areaPage.leaf = true) (ha : ∀ a ∈ l, a < 65536) : s.reachesAll 0 x 0 need l place := fun a h => by
  have e : a % 2 ^ 56 = a := Nat.mod_eq_of_lt (lt_trans (ha a h) (by decide))
  have y := area_hits (va := 0) need rfl ht hn (ha a h)
  rw [zero_add] at y
  exact ⟨⟨rfl, by rw [e]; exact y⟩, by simp only [State.badPlace, place, State.hbmBadIn, hb, List.any_nil]⟩

theorem working_canonical (q : Nat) (k : Cmd) {m : Memory} (h : m.wf = true) : (working q k m).canonical := by
  refine ⟨h, fun c => ?_⟩
  cases c <;> exact ⟨rfl, rfl⟩

/-- A row starts. -/
theorem working_starts (q : Nat) (i : Instr) (vals : List W64) {m : Memory} (hm : m.wf = true) {o : SeOps} (hi : seOpsOf i = some o) (ho : o.g = 31)
    (hr : o.rel = false) (hq : nextCmd [cmd i vals] = some (cmd i vals)) : (working q (cmd i vals) m).starts 0 q i o (cmd i vals) := by
  refine ⟨⟨rfl, ?_, rfl, hi, rfl, rfl, rfl⟩, ⟨Or.inr (Or.inl ho), Or.inr (Or.inl hr)⟩, rfl, rfl, rfl, rfl, rfl, working_canonical _ _ hm⟩
  simpa [State.queue, working, State.core, Map.get, Map.find] using hq

/-- A record of two elements of format `fmt` at VA `a` of a device, of two labels at 0x300 and a scale at 0x400. -/
def recordOn (dev : Byte) (a fmt flags sblk : Nat) : List Byte := leBytes 7 a ++ [dev] ++ leBytes 4 2 ++ [1, 1, 1, 1].flatMap (leBytes 4) ++ leBytes 36 0 ++ leBytes 1 fmt ++ leBytes 1 flags ++
  leBytes 1 0 ++ leBytes 1 sblk ++ leBytes 4 0 ++ leBytes 8 0x300 ++ leBytes 8 1 ++ leBytes 8 0x400 ++ leBytes 8 0 ++ leBytes 24 0

/-- A record of this device. -/
def record := recordOn 0xFF

/-- A command that has read its records. -/
def copying (i : Instr) (vals : List W64) (bs : List Byte) : Cmd := { cmd i vals with recs := bs }

/-- A COPY and a COPY.LBL of FP32 elements, a COPY into a block of format 8, a GET whose records agree in no format, a COPY.SCL of a scale row, and a FILL. -/
theorem witness_copyCommands : (∀ i ∈ [Instr.copy (se 4 5), .copyLbl (se 4 5), .put (se 4 5), .get (se 4 5)], ∀ bs, bs ≠ [] → let m := copying i [0, 0] bs
      (working 0 m []).engineHead 0 0 i (se 4 5) m ∧ (working 0 m []).engineOpen (se 4 5) m ∧ (working 0 m []).hasRecs (working 0 m []) 0 m [m.val 0, m.val 1] bs ∧
      (working 0 m []).canonical) ∧
    (∃ a b, let m := copying (.copyLbl (se 4 5)) [0, 0] (record 0x100 0 2 0 ++ record 0x200 0 2 0)
      let u := working 0 m []
      recPair m.recs = some (a, b) ∧ u.ownDevice a.dev = true ∧ u.ownDevice b.dev = true ∧ copyOk a b = true ∧ a.l = true ∧ b.l = true ∧ b.ldim = swapDim b.t a.ldim ∧
      a.space = 0 ∧ b.space = 0 ∧ u.reachesAll 0 (u.grp 0) 0 { r := true } (a.bytesUsed true) place ∧ a.fmt = b.fmt ∧
      u.reachesAll 0 (u.grp 0) 0 { w := true } (moveBytes (copyMoves a b place ++ labelMoves a b place) ++ (if fmtBlock b.fmt = 0 then [] else [b.scaleAt (b.index 0)])) place) ∧
    (∃ a b, let m := copying (.copy (se 4 5)) [0, 0] (record 0x100 0 0 0 ++ record 0x200 8 4 32)
      let u := working 0 m []
      recPair m.recs = some (a, b) ∧ copyOk a b = true ∧ a.fmt ≠ b.fmt ∧ fmtBlock b.fmt ≠ 0 ∧ b.t = false ∧ 0 < a.e 0 ∧ a.e 0 ≤ b.sblk ∧ a.e 1 = 1 ∧ a.e 2 = 1 ∧ a.e 3 = 1 ∧
      a.e 4 = 1 ∧ m.progress = 0 ∧ m.scales = [] ∧ u.reachesAll 0 (u.grp 0) 0 { r := true } (a.bytesUsed false) place ∧
      u.reachesAll 0 (u.grp 0) 0 { w := true } (moveBytes (copyMoves a b place) ++ (if fmtBlock b.fmt = 0 then [] else [b.scaleAt (b.index 0)])) place ∧
      ∀ y ∈ a.bytesUsed false, place y ≠ place (b.scaleAt (b.index 0))) ∧
    (∀ a b, recPair (record 0x100 0 0 0 ++ record 0x200 17 0 0) = some (a, b) → copyOk a b = false) ∧
    (∃ a, let m := copying (.copyScl (se 4 5)) [0, 0x100000] (record 0x100 8 4 32)
      let u := working 0 m []
      u.engineHead 0 0 (.copyScl (se 4 5)) (se 4 5) m ∧ u.engineOpen (se 4 5) m ∧ u.hasRecs u 0 m [m.val 0] m.recs ∧ layoutOf m.recs = some a ∧ u.ownDevice a.dev = true ∧
      a.sc = true ∧ (m.val 1).toNat % 4096 = 0 ∧ (m.val 1).toNat / 65536 % 4096 = 16 ∧ (a.e 0 + a.sblk - 1) / a.sblk = 1 ∧ a.rows = 1 ∧ a.space = 0 ∧
      wrapAddr 0 1 a.sbase < 65536) ∧
    (∃ a, let m := copying (.fill (se 4 5)) [0, 1023] (record 0x100 0 0 0)
      let u := working 0 m []
      u.engineHead 0 0 (.fill (se 4 5)) (se 4 5) m ∧ u.engineOpen (se 4 5) m ∧ u.hasRecs u 0 m [m.val 0] m.recs ∧ layoutOf m.recs = some a ∧ u.ownDevice a.dev = true ∧
      a.count * a.width / 8 ≤ 2048 ∧ a.space = 0 ∧ u.reachesAll 0 (u.grp 0) 0 { r := true } (a.bytesUsed false) place) := by
  refine ⟨?_, ⟨_, _, rfl, rfl, rfl, ?_, rfl, rfl, rfl, rfl, rfl, reaches_area rfl rfl rfl ?_, rfl, reaches_area rfl rfl rfl ?_⟩,
    ⟨_, _, rfl, ?_, ?_, ?_, rfl, ?_, ?_, rfl, rfl, rfl, rfl, rfl, rfl, reaches_area rfl rfl rfl ?_, reaches_area rfl rfl rfl ?_, ?_⟩, ?_,
    ⟨_, ⟨rfl, rfl, rfl, rfl, rfl, rfl, rfl⟩, ⟨Or.inr (Or.inl rfl), Or.inr (Or.inl rfl)⟩, rfl, rfl, rfl, rfl, rfl, rfl, rfl, rfl, rfl, ?_⟩,
    ⟨_, ⟨rfl, rfl, rfl, rfl, rfl, rfl, rfl⟩, ⟨Or.inr (Or.inl rfl), Or.inr (Or.inl rfl)⟩, rfl, rfl, rfl, ?_, rfl, reaches_area rfl rfl rfl ?_⟩⟩
  · intro i hi bs hb
    have e : (bs != []) = true := by simpa using hb
    simp only [List.mem_cons, List.not_mem_nil, or_false] at hi
    rcases hi with rfl | rfl | rfl | rfl <;> refine ⟨⟨rfl, rfl, rfl, rfl, rfl, rfl, rfl⟩, ⟨Or.inr (Or.inl rfl), Or.inr (Or.inl rfl)⟩, ?_, working_canonical _ _ rfl⟩ <;>
      (unfold State.hasRecs State.cmdRecs; exact if_pos e)
  all_goals first
    | decide
    | intro a b h
      obtain ⟨rfl, rfl⟩ := Prod.mk.inj (Option.some.inj h.symm)
      rfl

/-- A SIGNAL of this device, of a reserved one, and of device 3 with a link and without; a GET from device 3 and a PUT to it. -/
theorem witness_fleetCommands : (∀ v, let m := cmd (.signal (se 4 5)) [v, 0, 7]
      (working 0 m []).engineHead 0 0 (.signal (se 4 5)) (se 4 5) m ∧ (working 0 m []).engineOpen (se 4 5) m ∧ (working 0 m []).canonical) ∧
    ((working 0 (cmd .nop []) []).ownDevice 0xFF = true ∧
      (working 0 (cmd .nop []) []).reachesAll 0 ((working 0 (cmd .nop []) []).grp 0) 0 { w := true } (elemBytes (8 * 0x800) 64) place) ∧
    ((working 0 (cmd .nop []) []).ownDevice 192 = false ∧ (working 0 (cmd .nop []) []).ownDevice 3 = false ∧ (working 0 (cmd .nop []) []).reaches 3 = false ∧
      ({ working 0 (cmd .nop []) [] with deviceId := some 5, links := [(0, { up := true, port := some 3 })] } : State).reaches 3 = true) ∧
    (∃ a b, let m := copying (.get (se 4 5)) [0, 0] (recordOn 3 0x100 0 0 0 ++ record 0x200 0 0 0)
      let u := working 0 m []
      u.engineHead 0 0 (.get (se 4 5)) (se 4 5) m ∧ u.engineOpen (se 4 5) m ∧ u.hasRecs u 0 m [m.val 0, m.val 1] m.recs ∧ recPair m.recs = some (a, b) ∧
      u.ownDevice a.dev = false ∧ u.ownDevice b.dev = true ∧ a.space = 0 ∧ a.fmt = b.fmt ∧ copyOk a b = true ∧ u.reaches a.dev = false) ∧
    (∃ a b, let m := copying (.put (se 4 5)) [0, 0] (record 0x100 0 0 0 ++ recordOn 3 0x200 0 0 0)
      let u := working 0 m []
      u.engineHead 0 0 (.put (se 4 5)) (se 4 5) m ∧ u.engineOpen (se 4 5) m ∧ u.hasRecs u 0 m [m.val 0, m.val 1] m.recs ∧ recPair m.recs = some (a, b) ∧
      u.ownDevice a.dev = true ∧ u.ownDevice b.dev = false ∧ b.space = 0 ∧ a.fmt = b.fmt ∧ copyOk a b = true ∧ m.progress = 0 ∧ m.got = [] ∧ 0 < a.count ∧
      u.reaches b.dev = false ∧ u.reachesAll 0 (u.grp 0) 0 { r := true, egress := true } (a.bytesUsed false) place) := by
  refine ⟨fun _ => ⟨⟨rfl, rfl, rfl, rfl, rfl, rfl, rfl⟩, ⟨Or.inr (Or.inl rfl), Or.inr (Or.inl rfl)⟩, working_canonical _ _ rfl⟩,
    ⟨rfl, reaches_area rfl rfl rfl ?_⟩, ⟨rfl, rfl, rfl, rfl⟩,
    ⟨_, _, ⟨rfl, rfl, rfl, rfl, rfl, rfl, rfl⟩, ⟨Or.inr (Or.inl rfl), Or.inr (Or.inl rfl)⟩, rfl, rfl, rfl, rfl, rfl, rfl, ?_, rfl⟩,
    ⟨_, _, ⟨rfl, rfl, rfl, rfl, rfl, rfl, rfl⟩, ⟨Or.inr (Or.inl rfl), Or.inr (Or.inl rfl)⟩, rfl, rfl, rfl, rfl, rfl, rfl, ?_, rfl, rfl, ?_, rfl, reaches_area rfl rfl rfl ?_⟩⟩ <;>
    decide

/-- The words of an MMA on accumulator 0: its tile flag 31 or 0, and one step or none. -/
def mmaCmd (i : Instr) (w : W64) : Cmd := cmd i [w, 0x1000, 0, 0, 0, 0]

/-- Group 0 leads a cluster of two, on cores 0 and 1; core 1's matrix queue holds `l`. -/
def leading (k : Cmd) (l : List Cmd) : State := { engine 1 k (fun x => { x with desc := { x.desc with cw := 2 } }) with
  cores := [(0, { Core.reset with queues := [(1, [k])] }), (1, { Core.reset with queues := [(1, l)] })] }

theorem get_all {α : Type} {P : α → Prop} {d : α} {c : Nat} (hd : P d) : ∀ {m : Map α}, (∀ p ∈ m, P p.2) → P (m.get d c)
  | [], _ => hd
  | (k, v) :: rest, h => by
    unfold Map.get
    split
    · exact h _ (List.mem_cons_self ..)
    · exact get_all hd (fun p hp => h p (List.mem_cons_of_mem _ hp))

theorem clean {s : State} {g : Nat} (h : ∀ p ∈ s.cores, p.2.spadBad = [] ∧ p.2.scaleBad = [] ∧ p.2.tileBad = []) (hv : (s.grp g).vBad = []) : s.noErrors g :=
  ⟨fun _ => get_all (P := fun k : Core => k.spadBad = [] ∧ k.scaleBad = [] ∧ k.tileBad = []) ⟨rfl, rfl, rfl⟩ h, hv⟩

theorem witness_matrixCommands : (∀ i ∈ [Instr.mma (se 4 5), .mmaz (se 4 5), .mma2 (se 4 5), .mma2z (se 4 5)], ∀ w, (mmaOf i).isSome = true ∧
      (engine 1 (mmaCmd i w) id).engineHead 0 1 i (se 4 5) (mmaCmd i w) ∧ (engine 1 (mmaCmd i w) id).engineOpen (se 4 5) (mmaCmd i w)) ∧
    (let m := mmaCmd (.mma2 (se 4 5)) 0x3F0000
     ((leading m []).grp 0).follower = some 1 ∧ ((leading m []).queue 1 1).head?.map (·.id) ≠ some m.id ∧ ((leading m [m]).queue 1 1).head?.map (·.id) = some m.id) ∧
    (let m := mmaCmd (.mma (se 4 5)) 0x200000
     m.ctl.tf ≠ 31 ∧ ((engine 1 m id).grp 0).tflags.get false m.ctl.tf = false ∧ (mmaCmd (.mma (se 4 5)) 0x1F0000).ctl.ks = 0) ∧
    (let m := mmaCmd (.mma2 (se 4 5)) 0x3F0000
     let s := leading m [m]
     m.ctl.tf = 31 ∧ m.ctl.ks ≠ 0 ∧ (∀ h ∈ s.halvesOf m true, (s.tile h.core h.tile).tokenV = false) ∧ ((s.halvesOf m true).map (fun h => (h.core, h.tile))).Nodup ∧
       s.noErrors m.group ∧ s.canonical) ∧
    (let m := mmaCmd (.mma (se 4 5)) 0x3F0000
     let s : State := { engine 1 m id with cores := [(0, { Core.reset with
       queues := [(1, [m])]
       tiles := [(0, { Tile.fresh (some 0) with tokenV := true })] })] }
     ∃ h ∈ s.halvesOf m false, (s.tile h.core h.tile).tokenV = true) ∧
    (let m := cmd (.tfsum (se 4 5)) [0, 0x1000, 0, 0, 0, 0]
     (engine 1 m id).engineHead 0 1 (.tfsum (se 4 5)) (se 4 5) m ∧ (engine 1 m id).engineOpen (se 4 5) m ∧ (engine 1 m id).noErrors m.group ∧ (engine 1 m id).canonical) ∧
    ∀ b ∈ [0, 1], let m := cmd (.relld (se 4 5)) [0, 0, 3]
      let s := working 1 m (Memory.writeN [] 0x10028 (leBytes 1 b))
      s.engineHead 0 1 (.relld (se 4 5)) (se 4 5) m ∧ s.engineOpen (se 4 5) m ∧
      s.reachesAll 0 (s.grp m.group) 0 { r := true } ((List.range 64).map ((m.val 0).toNat + ·)) place ∧
      relOk ((List.range 16).map (fun k => BitVec.ofNat 32 (leNat ((((List.range 64).map (fun k => s.byteAt (place ((m.val 0).toNat + k)).1 (place ((m.val 0).toNat + k)).2)).drop
        (4 * k)).take 4)))) = (b == 0) := by
  refine ⟨?_, ⟨rfl, ?_, rfl⟩, ⟨?_, rfl, rfl⟩, ⟨rfl, ?_, ?_, ?_, clean ?_ rfl, rfl, fun c => ?_⟩, ?_,
    ⟨⟨rfl, rfl, rfl, rfl, rfl, rfl, rfl⟩, ⟨Or.inr (Or.inl rfl), Or.inr (Or.inl rfl)⟩, clean ?_ rfl, rfl, fun c => ?_⟩, ?_⟩
  · intro i hi w
    simp only [List.mem_cons, List.not_mem_nil, or_false] at hi
    rcases hi with rfl | rfl | rfl | rfl <;> exact ⟨rfl, ⟨rfl, rfl, rfl, rfl, rfl, rfl, rfl⟩, Or.inr (Or.inl rfl), Or.inr (Or.inl rfl)⟩
  · decide
  · decide
  · decide
  · decide
  · decide
  · simp [leading]
    exact ⟨rfl, rfl, rfl⟩
  · match c with
    | 0 | 1 | _ + 2 => exact ⟨rfl, rfl⟩
  · decide
  · simp [engine]
    exact ⟨rfl, rfl, rfl⟩
  · cases c <;> exact ⟨rfl, rfl⟩
  · intro b hb
    refine ⟨⟨rfl, ?_, rfl, rfl, rfl, rfl, rfl⟩, ⟨Or.inr (Or.inl rfl), Or.inr (Or.inl rfl)⟩, reaches_area rfl rfl rfl ?_, ?_⟩
    · rfl
    · decide
    · revert b
      decide

/-- A binding of a program that ends at once, with a sheaf at VA 0. -/
def bind0 : Binding := { sheaf := 0, prog := [0x48000000], progId := 0, flags := 0, key := 0, position := 0, draw := 0, p := [] }

/-- A Winnow command starts; binding 0 is `bd`, if there is one, and tile 0 is at the vector side, or not. -/
def drawing (i : Instr) (vals : List W64) (bd : Map Binding) (v : Bool) (m : Memory) : State := { working 4 (cmd i vals) m with
  cores := [(0, { Core.reset with
    queues := [(4, [cmd i vals])]
    tlb := [areaPage]
    binds := bd
    tiles := [(0, { Tile.fresh (some 0) with tokenV := v })] })] }

theorem drawing_starts (i : Instr) (vals : List W64) (bd : Map Binding) (v : Bool) {m : Memory} (hm : m.wf = true) (hi : seOpsOf i = some (se 4 5))
    (hq : nextCmd [cmd i vals] = some (cmd i vals)) : (drawing i vals bd v m).starts 0 4 i (se 4 5) (cmd i vals) := by
  refine ⟨⟨rfl, ?_, rfl, hi, rfl, rfl, rfl⟩, ⟨Or.inr (Or.inl rfl), Or.inr (Or.inl rfl)⟩, rfl, rfl, rfl, rfl, rfl, hm, fun c => ?_⟩
  · simpa [State.queue, drawing, State.core, Map.get, Map.find] using hq
  · cases c <;> exact ⟨rfl, rfl⟩

/-- WBIND of a program that is there and of one that is not; WSTRIP of the last row and WPART into the last slot, with the token at either side. -/
theorem witness_winnowTiles : ((drawing (.wbind (se 4 5)) [0, 0, 15] [] false []).starts 0 4 (.wbind (se 4 5)) (se 4 5) (cmd (.wbind (se 4 5)) [0, 0, 15]) ∧
      (drawing (.wbind (se 4 5)) [0, 0, 15] [] false []).mapped 0 place { r := true } 0 0x60 ∧
      (drawing (.wbind (se 4 5)) [0, 0, 15] [] false []).programOf (vaNum (drawing (.wbind (se 4 5)) [0, 0, 15] [] false []).byteAt place 8 4) = none ∧
      (({ drawing (.wbind (se 4 5)) [0, 0, 15] [] false [] with wprogs := [(0, 0x48000000)] } : State).programOf 0).isSome = true) ∧
    (∀ bd v, let s := drawing (.wstrip (se 4 5)) [0x7F7F00, 0, 7] [(0, bd)] v []
      s.starts 0 4 (.wstrip (se 4 5)) (se 4 5) (cmd (.wstrip (se 4 5)) [0x7F7F00, 0, 7]) ∧ (s.core 0).binds.find (wordBind 0x7F7F00) = some bd ∧
      (s.tile 0 (s.tileNo 0 (wordTile 0x7F7F00))).tokenV = v ∧ (s.core 0).tileBad = [] ∧ s.mapped 0 place { r := true } 0x200 40960) ∧
    (bind0.sheaf.toNat = 0 ∧ programRuns bind0.prog = true ∧ programRuns ({ bind0 with prog := [] } : Binding).prog = false ∧
      ((drawing (.wstrip (se 4 5)) [0x7F7F00, 0, 7] [] true []).core 0).binds.find (wordBind 0x7F7F00) = none) ∧
    ∀ v, let s := drawing (.wpart (se 4 5)) [0xFF00007F00, 0, 0x1000] [] v []
      s.starts 0 4 (.wpart (se 4 5)) (se 4 5) (cmd (.wpart (se 4 5)) [0xFF00007F00, 0, 0x1000]) ∧ (s.tile 0 (s.tileNo 0 (wordTile 0xFF00007F00))).tokenV = v ∧
      s.mapped 0 place { r := true, w := true } 0x1000 8 ∧ s.mapped 0 place { w := true } (0x1000 + 0x40 + 32 * wordSlot 0xFF00007F00) 32 :=
  ⟨⟨drawing_starts _ _ _ _ rfl rfl rfl, mapped_area rfl rfl rfl (by decide), rfl, rfl⟩,
    fun _ v => ⟨drawing_starts _ _ _ _ rfl rfl rfl, rfl, by cases v <;> rfl, rfl, mapped_area rfl rfl rfl (by decide)⟩, ⟨rfl, rfl, rfl, rfl⟩,
    fun v => ⟨drawing_starts _ _ _ _ rfl rfl rfl, by cases v <;> rfl, mapped_area rfl rfl rfl (by decide), mapped_area rfl rfl rfl (by decide)⟩⟩

/-- Draws with no binding, with DRAW used up, and of 0, 1 and 257 partials; a list to commit of no token, of one, and of one that is no token. -/
theorem witness_winnowDraws : (∀ i ∈ [Instr.wdraw (se 4 5), .wcommit (se 4 5), .waccept (se 4 5)], ∀ bd m, Memory.wf m = true →
      (drawing i [0, 0, 0x9004] bd false m).starts 0 4 i (se 4 5) (cmd i [0, 0, 0x9004])) ∧
    ((drawing (.wdraw (se 4 5)) [0, 0, 0x9004] [] false []).core 0).binds.find 0 = none ∧
    (({ bind0 with draw := 0xFFFFFFFF } : Binding).draw = 0xFFFFFFFF ∧ bind0.draw ≠ 0xFFFFFFFF) ∧
    (∀ n ∈ [0, 1, 257], let s := drawing (.wdraw (se 4 5)) [0, 0, 0x9004] [(0, bind0)] false (Memory.writeN [] 0x1900C (leBytes 4 n))
      (s.core 0).binds.find 0 = some bind0 ∧ vaNum s.byteAt place (0x9004 + 8) 4 = n ∧ s.mapped 0 place { r := true } (0x9004 + 8) 4 ∧
      s.mapped 0 place { w := true } (0x9004 + 0x0C) 16 ∧ s.mapped 0 place { r := true } (0x9004 + 0x40) (32 * 256) ∧
      s.mapped 0 place { w := true } (bind0.sheaf.toNat + 0x1C) 4) ∧
    (∀ n t code, (n, t, code) ∈ [(0, 0, 2), (1, 5, 0), (1, 0xFFFFFFFF, 2)] →
      let s := drawing (.wcommit (se 4 5)) [0, 0, 0x9004] [(0, bind0)] false (Memory.writeN [] 0x19004 (leBytes 4 n ++ leBytes 4 t))
      s.mapped 0 place { w := true } 0x9000 4 ∧ s.mapped 0 place { r := true } (0x9000 + 4) 4 ∧ s.mapped 0 place { r := true } (0x9000 + 8) (4 * n) ∧
      s.mapped 0 place { r := true, w := true } 0x200 32768 ∧ s.mapped 0 place { w := true } 0x0C 20 ∧ vaNum s.byteAt place (0x9000 + 4) 4 = n ∧
      (let ts := (List.range n).map (fun k => vaNum s.byteAt place (0x9000 + 8 + 4 * k) 4)
       (if bind0.flags.getLsbD 0 then 3 else if n = 0 ∨ 64 < n then 2 else if ts.any (fun x => decide (0xFFFFFFEF < x)) then 2
         else if tokensFit (tableEntry s.byteAt place 0x200) ts then 0 else 4) = code)) := by
  refine ⟨?_, rfl, ⟨rfl, by decide⟩, ?_, ?_⟩
  · intro i hi bd m hm
    simp only [List.mem_cons, List.not_mem_nil, or_false] at hi
    rcases hi with rfl | rfl | rfl <;> exact drawing_starts _ _ _ _ hm rfl rfl
  · intro n hn
    refine ⟨rfl, ?_, mapped_area rfl rfl rfl (by decide), mapped_area rfl rfl rfl (by decide), mapped_area rfl rfl rfl (by decide), mapped_area rfl rfl rfl (by decide)⟩
    revert n
    decide
  · intro n t code h
    simp only [List.mem_cons, List.not_mem_nil, or_false, Prod.mk.injEq] at h
    rcases h with ⟨rfl, rfl, rfl⟩ | ⟨rfl, rfl, rfl⟩ | ⟨rfl, rfl, rfl⟩ <;>
      exact ⟨mapped_area rfl rfl rfl (by decide), mapped_area rfl rfl rfl (by decide), mapped_area rfl rfl rfl (by decide), mapped_area rfl rfl rfl (by decide),
        mapped_area rfl rfl rfl (by decide), rfl, rfl⟩

/-- A block of one draft of a vocabulary of one, whose target row at 0x2000 is `x`, and one that breaks its rules. -/
def accepting (n x : Nat) : State := drawing (.waccept (se 4 5)) [0, 0, 0x1000] [(0, bind0)] false
  (Memory.writeN (Memory.writeN [] 0x11000 (leBytes 4 n ++ leBytes 4 1 ++ leBytes 8 0x2000 ++ leBytes 8 0x3000 ++ leBytes 8 4)) 0x12000 (leBytes 4 x ++ leBytes 4 x))

def acceptBytes (n x : Nat) : List Byte := (List.range 128).map (fun k => (accepting n x).byteAt (place (0x1000 + k)).1 (place (0x1000 + k)).2)

/-- The weights of the draw. -/
def acceptSum (x : Nat) : Nat :=
  let a := acceptOf (acceptBytes 1 x)
  let pr := fun k j => probOf (vaNum (accepting 1 x).byteAt place (a.p.toNat + k * a.rstr + 4 * j) 4)
  let qr := fun k j => probOf (vaNum (accepting 1 x).byteAt place (a.q.toNat + k * a.rstr + 4 * j) 4)
  (acceptWeights a pr qr (acceptedFrom bind0 a pr qr a.n 0)).foldl rnAdd 0

theorem accepting_wf : ∀ n ∈ [0, 1], ∀ x ∈ [0, 0x3F800000], (Memory.writeN (Memory.writeN [] 0x11000 (leBytes 4 n ++ leBytes 4 1 ++ leBytes 8 0x2000 ++ leBytes 8 0x3000 ++
    leBytes 8 4)) 0x12000 (leBytes 4 x ++ leBytes 4 x)).wf = true := by decide

theorem witness_winnowAccepts : (∀ n ∈ [0, 1], ∀ x ∈ [0, 0x3F800000], (accepting n x).starts 0 4 (.waccept (se 4 5)) (se 4 5) (cmd (.waccept (se 4 5)) [0, 0, 0x1000]) ∧
      ((accepting n x).core 0).binds.find 0 = some bind0 ∧ (accepting n x).mapped 0 place { r := true, w := true } 0x1000 128) ∧
    (acceptOf (acceptBytes 0 0)).ok (acceptBytes 0 0) = false ∧
    (∀ x ∈ [0, 0x3F800000], let a := acceptOf (acceptBytes 1 x)
      a.ok (acceptBytes 1 x) = true ∧ a.n = 1 ∧ a.v = 1 ∧ a.p = 0x2000 ∧ a.q = 0x3000 ∧ a.rstr = 4) ∧
    (∀ k, k ≤ 1 → (accepting 1 0).mapped 0 place { r := true } (0x2000 + k * 4) (4 * 1)) ∧
    (bind0.flags.getLsbD 0 = false ∧ ({ bind0 with flags := 1 } : Binding).flags.getLsbD 0 = true ∧ bind0.position.toNat + 1 ≤ 0xFFFFFFFF) ∧
    eq32 (acceptSum 0) 0 = true ∧ eq32 (acceptSum 0x3F800000) 0 = false := by
  refine ⟨fun n hn x hx => ⟨drawing_starts _ _ _ _ (accepting_wf n hn x hx) rfl rfl, rfl, mapped_area rfl rfl rfl (by decide)⟩, ?_, ?_,
    fun k hk => mapped_area rfl rfl rfl (by omega), ⟨rfl, rfl, ?_⟩, ?_, ?_⟩ <;> decide +kernel

/-- KVSPLICE of the list at VA 0x1000: `n` items, of which the first puts `leaf` at VA 0x10000, where `old` stands; the pool at 0x2000 holds `top` of `cap`. -/
def splicing (n leaf old top cap : Nat) : State :=
  { working 5 (cmd (.kvsplice (se 4 0)) [0x1000]) (Memory.writeN (Memory.writeN (Memory.writeN tables 0x11000 (leBytes 8 n ++ leBytes 8 0x2000 ++ leBytes 16 0 ++ leBytes 8 0x10000 ++
      leBytes 8 leaf)) 0x12000 (leBytes 8 top ++ leBytes 8 cap)) 0x400080 (leBytes 8 old)) with troot := 0x100000 }

def spliced1 (leaf : Nat) : List SpliceItem := [{ va := 0x10000, leaf := BitVec.ofNat 64 leaf }]

/-- A list of no item; one whose item takes the place of a page and one where there was none; a table entry on the way, a pinned page, a new leaf without S, and a full pool. -/
theorem witness_spliceCommands : (∀ n leaf old top cap, (n, leaf, old, top, cap) ∈ [(0, 0, 0, 0, 0), (1, 0x5004F, 0x6000F, 3, 4), (1, 0x5004F, 0, 4, 4), (1, 0x5004F, 0x60001, 3, 4),
      (1, 0x5004F, 0x6001F, 3, 4), (1, 0x5000F, 0x6000F, 3, 4), (1, 0x5004F, 0x6000F, 4, 4)] →
      let s := splicing n leaf old top cap
      s.starts 0 5 (.kvsplice (se 4 0)) (se 4 0) (cmd (.kvsplice (se 4 0)) [0x1000]) ∧ s.mapped 0 place { r := true } 0x1000 0x20 ∧ s.mapped 0 place { w := true } 0x1010 8 ∧
      vaNum s.byteAt place 0x1000 8 = n ∧ vaNum s.byteAt place 0x1008 8 = 0x2000 ∧ vaNum s.byteAt place 0x1018 8 = 0 ∧
      s.mapped 0 place { r := true } 0x1020 (16 * n) ∧ s.mapped 0 place { r := true } 0x2000 16 ∧ vaNum s.byteAt place 0x2000 8 = top ∧ vaNum s.byteAt place 0x2008 8 = cap ∧
      (n = 1 → (List.range n).map (fun k => ({ va := BitVec.ofNat 64 (vaNum s.byteAt place (0x1020 + 16 * k) 8)
                                               leaf := BitVec.ofNat 64 (vaNum s.byteAt place (0x1028 + 16 * k) 8) } : SpliceItem)) = spliced1 leaf)) ∧
    itemsApart (spliced1 0x5004F) = true ∧ itemsApart (spliced1 0x5004F ++ spliced1 0x5004F) = false ∧
    (∃ l, spliceCheck (splicing 1 0x5004F 0x6000F 3 4) 0 (spliced1 0x5004F) 3 4 = .ok (.ok l) ∧ (l.filter (fun e => pteV e.2.2)).map (·.2.2) = [0x6000F]) ∧
    (∃ l, spliceCheck (splicing 1 0x5004F 0 4 4) 0 (spliced1 0x5004F) 4 4 = .ok (.ok l) ∧ (l.filter (fun e => pteV e.2.2)).map (·.2.2) = []) ∧
    spliceCheck (splicing 1 0x5004F 0x60001 3 4) 0 (spliced1 0x5004F) 3 4 = .ok (.error 2) ∧ spliceCheck (splicing 1 0x5004F 0x6001F 3 4) 0 (spliced1 0x5004F) 3 4 = .ok (.error 3) ∧
    spliceCheck (splicing 1 0x5000F 0x6000F 3 4) 0 (spliced1 0x5000F) 3 4 = .ok (.error 4) ∧ spliceCheck (splicing 1 0x5004F 0x6000F 4 4) 0 (spliced1 0x5004F) 4 4 = .ok (.error 5) ∧
    (splicing 1 0x5004F 0x6000F 3 4).mapped 0 place { w := true } (0x2000 + 0x10 + 8 * 3) 8 ∧ (∀ i ∈ spliced1 0x5004F, areaPage.apart i) := by
  refine ⟨?_, rfl, rfl, ⟨_, rfl, rfl⟩, ⟨_, rfl, rfl⟩, rfl, rfl, rfl, rfl, mapped_area rfl rfl rfl (by decide), ?_⟩
  · intro n leaf old top cap h
    simp only [List.mem_cons, List.not_mem_nil, or_false, Prod.mk.injEq] at h
    rcases h with ⟨rfl, rfl, rfl, rfl, rfl⟩ | ⟨rfl, rfl, rfl, rfl, rfl⟩ | ⟨rfl, rfl, rfl, rfl, rfl⟩ | ⟨rfl, rfl, rfl, rfl, rfl⟩ | ⟨rfl, rfl, rfl, rfl, rfl⟩ |
        ⟨rfl, rfl, rfl, rfl, rfl⟩ | ⟨rfl, rfl, rfl, rfl, rfl⟩ <;>
      exact ⟨working_starts 5 (.kvsplice (se 4 0)) [0x1000] (by rfl) rfl rfl rfl rfl, mapped_area rfl rfl rfl (by decide), mapped_area rfl rfl rfl (by decide), rfl, rfl, rfl,
        mapped_area rfl rfl rfl (by decide), mapped_area rfl rfl rfl (by decide), rfl, rfl, by decide⟩
  · intro i hi
    rw [List.mem_singleton.mp hi]
    exact Or.inr (by decide)

/-- A query of one block of 16 tokens 0, for model 5, whose pages are at VA 0x3000, with FLAGS and NBLK. -/
def query (flags nblk : Nat) : List Byte := leBytes 4 16 ++ leBytes 4 5 ++ leBytes 4 flags ++ leBytes 4 0 ++ leBytes 8 0x2000 ++ leBytes 8 0x3000 ++ leBytes 4 nblk

/-- The hash of its block. -/
def hash0 : W64 := blockHash 0x53485A3100000001 (List.replicate 16 0)

/-- A prefix command on such a query at VA 0x1000; the table, of two entries, is at VA 0x4000, and its entry 1 is `e`, whose page is at 0x10000 where `leaf` stands. -/
def prefixing (i : Instr) (q e : List Byte) (leaf : Nat) : State :=
  { working 5 (cmd i [0x1000]) (Memory.writeN (Memory.writeN (Memory.writeN tables 0x11000 q) 0x14020 e) 0x400080 (leBytes 8 leaf)) with
    troot := 0x100000
    pfxbase := 0x4001 }

/-- An entry of the block, with PINS. -/
def entry1 (pins : Nat) : List Byte := leBytes 8 hash0.toNat ++ leBytes 8 0x10000 ++ leBytes 4 5 ++ leBytes 4 pins

def queryBytes (s : State) : List Byte := (List.range 64).map (fun k => s.byteAt (place (0x1000 + k)).1 (place (0x1000 + k)).2)
def queryHashes (s : State) : List W64 := hashesOf 1 ((List.range 16).map (fun k => vaNum s.byteAt place (0x2000 + 4 * k) 4))

def prefixRows : List Instr := [.pfxlk (se 4 0), .pfxins (se 4 0), .pin (se 4 0), .unpin (se 4 0)]

theorem prefixing_size (i : Instr) (q e : List Byte) (l : Nat) : (prefixing i q e l).prefixSize = 2 := by
  show 2 ^ ((0x4001 : W64).extractLsb' 0 5).toNat = 2
  decide

theorem prefixing_base (i : Instr) (q e : List Byte) (l : Nat) : (prefixing i q e l).prefixBase.toNat = 0x4000 := by
  show ((0x4001 : W64) &&& ~~~0x3F#64).toNat = 0x4000
  decide

/-- The blocks of the query that the table holds. -/
def prefixFound (s : State) : List (Nat × PfxEntry) := s.pfxRun (s.pfxEntry s.byteAt place) 5 (queryHashes s)

/-- PINS after PIN or UNPIN of the block, and the leaf that it changes then. -/
def pinnedState (i : Instr) (pins new : Nat) : State := (prefixing i (query 0 1) (entry1 pins) 0x6000F).hbmWrite none (place 0x4034).2 (leBytes 4 new)

/-- A block that the table holds, pinned twice, once or not, and one that it does not hold; a query with an unknown flag; two commands at the unit. -/
theorem witness_prefixCommands : (∀ i ∈ prefixRows, ∀ q ∈ [query 0 1, query 1 1, query 2 1], ∀ e ∈ [[], entry1 0, entry1 1, entry1 2],
      (prefixing i q e 0x6000F).starts 0 5 i (se 4 0) (cmd i [0x1000]) ∧ (prefixing i q e 0x6000F).pfxFirst 0 (cmd i [0x1000]) ∧
      (prefixing i q e 0x6000F).mapped 0 place { r := true } 0x1000 64 ∧ (prefixing i q e 0x6000F).mapped 0 place { w := true } 0x100C 24 ∧
      (prefixing i q e 0x6000F).mapped 0 place { r := true } 0x2000 64 ∧ (prefixing i q e 0x6000F).mapped 0 place { r := true, w := true } 0x4000 64 ∧
      (prefixing i q e 0x6000F).mapped 0 place { r := true, w := true } 0x3000 8 ∧ (prefixing i q e 0x6000F).prefixBase.toNat = 0x4000 ∧
      (prefixing i q e 0x6000F).prefixSize = 2) ∧
    (∀ j k, place (0x4000 + j) = place (0x4000 + k) → j = k) ∧
    (∀ up, (queryOf (queryBytes (prefixing .nop (query 0 1) [] 0))).ok (queryBytes (prefixing .nop (query 0 1) [] 0)) up = true) ∧
    (∀ up, (queryOf (queryBytes (prefixing .nop (query 2 1) [] 0))).ok (queryBytes (prefixing .nop (query 2 1) [] 0)) up = false) ∧
    queryOf (queryBytes (prefixing .nop (query 1 1) [] 0)) = { ntok := 16, model := 5, flags := 1, tokens := 0x2000, pages := 0x3000, nblk := 1 } ∧
    (∀ n ∈ [0, 1, 2], prefixFound (prefixing .nop (query 0 1) (entry1 n) 0) = [(1, { hash := hash0, page := 0x10000, model := 5, pins := n })]) ∧
    prefixFound (prefixing .nop (query 0 1) [] 0) = [] ∧
    (let s : State := { working 5 (cmd (.pin (se 4 0)) [0x1000]) [] with
        pfxLine := [(1, 7)]
        cores := [(0, { Core.reset with queues := [(5, [cmd (.pin (se 4 0)) [0x1000]])] }), (1, { Core.reset with queues := [(5, [{ cmd (.pin (se 4 0)) [] with id := 7 }])] })] }
     s.prefixLine = [(1, 7)] ∧ s.starts 0 5 (.pin (se 4 0)) (se 4 0) (cmd (.pin (se 4 0)) [0x1000])) := by
  refine ⟨?_, fun j k h => ?_, ?_, ?_, ?_, ?_, ?_, rfl, ⟨⟨rfl, rfl, rfl, rfl, rfl, rfl, rfl⟩, ⟨Or.inr (Or.inl rfl), Or.inr (Or.inl rfl)⟩, rfl, rfl, rfl, rfl, rfl, rfl, fun c => ?_⟩⟩
  · intro i hi q hq e he
    have w : (Memory.writeN (Memory.writeN (Memory.writeN tables 0x11000 q) 0x14020 e) 0x400080 (leBytes 8 0x6000F)).wf = true := by
      clear hi
      revert q e
      decide +kernel
    simp only [prefixRows, List.mem_cons, List.not_mem_nil, or_false] at hi
    rcases hi with rfl | rfl | rfl | rfl <;>
      exact ⟨working_starts 5 _ [0x1000] w rfl rfl rfl rfl, Or.inl rfl, mapped_area rfl rfl rfl (by decide), mapped_area rfl rfl rfl (by decide),
        mapped_area rfl rfl rfl (by decide), mapped_area rfl rfl rfl (by decide), mapped_area rfl rfl rfl (by decide), prefixing_base _ _ _ _, prefixing_size _ _ _ _⟩
  · have := (Prod.mk.inj h).2
    omega
  · decide +kernel
  · decide +kernel
  · decide +kernel
  · decide +kernel
  · decide +kernel
  · match c with
    | 0 | 1 | _ + 2 => exact ⟨rfl, rfl⟩

/-- PIN of the block with PINS 0 and UNPIN of it with PINS 1: the walk of its page then, and its slot, apart from the query's. -/
theorem witness_pinnedLeaves : (∀ i n k, (i, n, k) ∈ [(Instr.pin (se 4 0), 0, 1), (.unpin (se 4 0), 1, 0)] →
      let s := prefixing i (query 0 1) (entry1 n) 0x6000F
      s.pfxFind (s.pfxEntry s.byteAt place) hash0 5 = .found 1 { hash := hash0, page := 0x10000, model := 5, pins := n } ∧
      pinsOf (decide (i = .pin (se 4 0))) n = k ∧ (pinnedState i n k).walk (((BitVec.ofNat 64 0x10000).setWidth 56).setWidth 64) = .leaf 0x400080 0x6000F ∧
      (pinnedState i n k).hbmBadIn 0x400080 8 = false) ∧
    (2 ^ (if pteSz 0x6000F < 9 then pteSz 0x6000F else pteSz 0x6000F - 9) = 1 ∧ 0x400080 / (8 * 1) * (8 * 1) = 0x400080) ∧
    (queryHashes (prefixing .nop (query 0 1) [] 0) = [hash0]) ∧ ∀ k b, k < 4 → b < 8 * 1 → place (0x1000 + 0x0C + k) ≠ (.hbm, 0x400080 + b) := by
  refine ⟨?_, ⟨rfl, rfl⟩, ?_, fun k b hk hb h => ?_⟩
  · intro i n k h
    simp only [List.mem_cons, List.not_mem_nil, or_false, Prod.mk.injEq] at h
    rcases h with ⟨rfl, rfl, rfl⟩ | ⟨rfl, rfl, rfl⟩ <;> refine ⟨?_, ?_, ?_, ?_⟩ <;> decide +kernel
  · decide +kernel
  · have := (Prod.mk.inj h).2
    omega

/-- An image of a ring slot without scales: MAGIC, VERSION, no flags, its CRC, 15 points 1 to 15, and the bytes `t`. -/
def ringHead : List Byte := leBytes 4 0x47525352 ++ leBytes 2 1 ++ leBytes 6 0
def ringPoints : List Byte := leBytes 48 0 ++ (List.range 15).flatMap (fun k => leBytes 4 (k + 1))
def ringImage (t : List Byte) : List Byte := ringHead ++ leBytes 4 (crc32 (ringHead ++ [0, 0, 0, 0] ++ (ringPoints ++ t))).toNat ++ (ringPoints ++ t)

theorem le64_left {n : Nat} : ∀ {a b : List Byte}, n ≤ a.length → le64 (a ++ b) n = le64 a n := by
  induction n with
  | zero => exact fun _ => rfl
  | succ n ih =>
    intro a b h
    cases a with
    | nil => simp at h
    | cons x a => simp only [List.cons_append, le64, List.headD_cons, List.tail_cons, ih (Nat.le_of_succ_le_succ h)]

theorem numAt_left {a b : List Byte} {i k : Nat} (h : i + k ≤ a.length) : numAt (a ++ b) i k = numAt a i k := by
  rw [numAt, List.drop_append_of_le_length (by omega), le64_left (by rw [List.length_drop]; omega), numAt]

theorem numAt_right (a b : List Byte) (i k : Nat) : numAt (a ++ b) (a.length + i) k = numAt b i k := by
  rw [numAt, List.drop_append, List.drop_eq_nil_of_le (by omega), Nat.add_sub_cancel_left, List.nil_append, numAt]

theorem ringImage_ok (t : List Byte) (hz : zeroAt t 0 4 = true) (z : zeroAt (ringImage t) 0x4100 256 = true) : ringImageOk (ringImage t) = true := by
  have e : (ringImage t).take 0x0C ++ [0, 0, 0, 0] ++ (ringImage t).drop 0x10 = ringHead ++ [0, 0, 0, 0] ++ (ringPoints ++ t) := rfl
  have n : numAt (ringImage t) 0x0C 4 = (crc32 (ringHead ++ [0, 0, 0, 0] ++ (ringPoints ++ t))).toNat := by
    have b := (crc32 (ringHead ++ [0, 0, 0, 0] ++ (ringPoints ++ t))).isLt
    have f : ∀ c : Nat, numAt (ringHead ++ leBytes 4 c ++ (ringPoints ++ t)) 0x0C 4 = le64 (leBytes 4 c ++ (ringPoints ++ t)) 4 := fun _ => rfl
    rw [ringImage, f]
    simp only [leBytes, le64, List.cons_append, List.headD_cons, List.tail_cons, BitVec.toNat_ofNat]
    omega
  simp only [ringImageOk, e, z, n, Bool.and_true, beq_self_eq_true]
  unfold ringImage
  generalize (crc32 (ringHead ++ [0, 0, 0, 0] ++ (ringPoints ++ t))).toNat = c
  have h : zeroAt (ringHead ++ leBytes 4 c ++ (ringPoints ++ t)) 0x7C 4 = zeroAt t 0 4 := rfl
  rw [h, hz]
  simp only [Bool.and_true, Bool.and_eq_true]
  have m : numAt (ringHead ++ leBytes 4 c ++ (ringPoints ++ t)) 0 4 = numAt ringHead 0 4 := rfl
  have p : (List.range 15).map (fun i => numAt (ringHead ++ leBytes 4 c ++ (ringPoints ++ t)) (0x40 + 4 * i) 4) = (List.range 15).map (· + 1) :=
    List.map_congr_left (fun i hi => by
      have hl : 48 + 4 * i + 4 ≤ ringPoints.length := by
        rw [show ringPoints.length = 108 from rfl]
        have := List.mem_range.mp hi
        omega
      rw [show 0x40 + 4 * i = (ringHead ++ leBytes 4 c).length + (48 + 4 * i) from by rw [show (ringHead ++ leBytes 4 c).length = 16 from rfl]; omega, numAt_right,
        numAt_left hl]
      revert i
      decide)
  refine ⟨⟨⟨⟨by rw [m]; decide, rfl⟩, rfl⟩, rfl⟩, by rw [p]; decide⟩

theorem zeroImage_ok : ringImageOk (ringImage (List.replicate 16772 0)) = true ∧ (ringImage (List.replicate 16772 0)).length = 16896 := by
  have h : ∀ c : Nat, (ringHead ++ leBytes 4 c ++ ringPoints).length = 124 := fun _ => rfl
  refine ⟨ringImage_ok _ rfl ?_, ?_⟩
  · rw [zeroAt, ringImage, ← List.append_assoc, List.drop_append, List.drop_eq_nil_of_le (by rw [h]; decide), List.nil_append, h, List.drop_replicate, List.take_replicate,
      List.all_replicate]
    rfl
  · rw [ringImage, ← List.append_assoc, List.length_append, h, List.length_replicate]

theorem written_list (l : List Byte) : (List.range l.length).map (fun k => (Memory.writeN [] 0x10000 l).read (0x10000 + (0 + k))) = l := by
  refine List.ext_getElem (by simp) (fun n h1 h2 => ?_)
  have e : 0x10000 ≤ 0x10000 + n ∧ 0x10000 + n < 0x10000 + l.length := ⟨by omega, by omega⟩
  rw [List.getElem_map, List.getElem_range, Nat.zero_add, Memory.read_writeN [] 0x10000 (0x10000 + n) l rfl, if_pos e, Nat.add_sub_cancel_left, List.getD_eq_getElem _ _ h2]

theorem loads_image {l : List Byte} (hl : l.length = 16896) (hk : ringImageOk l = true) : ∃ m : Memory, ∀ i ∈ [Instr.gldesc (se 4 5), .rsload (se 4 5)], m.wf = true ∧
    (working 2 (cmd i [0, 0, 0]) m).starts 0 2 i (se 4 5) (cmd i [0, 0, 0]) ∧ (working 2 (cmd i [0, 0, 0]) m).mapped 0 place { r := true } 0 16896 ∧
    ringImageOk ((List.range 16896).map (fun k => (working 2 (cmd i [0, 0, 0]) m).byteAt .hbm (place (0 + k)).2)) = true := by
  refine ⟨Memory.writeN [] 0x10000 l, fun i hi => ?_⟩
  have w : (Memory.writeN [] 0x10000 l).wf = true := Memory.writeN_wf _ _ _ rfl
  have m : ringImageOk ((List.range 16896).map (fun k => (Memory.writeN [] 0x10000 l).read (0x10000 + (0 + k)))) = true := by
    rw [← hl, written_list, hk]
  simp only [List.mem_cons, List.not_mem_nil, or_false] at hi
  rcases hi with rfl | rfl <;> exact ⟨w, working_starts 2 _ [0, 0, 0] w rfl rfl rfl rfl, mapped_area rfl rfl rfl (by decide), m⟩

/-- Blocks that pass their checks and blocks that fail; the commands done; and the next contents of a slot. -/
theorem witness_gleanCommands : (∃ m : Memory, ∀ i ∈ [Instr.gldesc (se 4 5), .rsload (se 4 5)], m.wf = true ∧ (working 2 (cmd i [0, 0, 0]) m).starts 0 2 i (se 4 5) (cmd i [0, 0, 0]) ∧
      (working 2 (cmd i [0, 0, 0]) m).mapped 0 place { r := true } 0 16896 ∧
      ringImageOk ((List.range 16896).map (fun k => (working 2 (cmd i [0, 0, 0]) m).byteAt .hbm (place (0 + k)).2)) = true) ∧
    (∀ i ∈ [Instr.gldesc (se 4 5), .rsload (se 4 5)], (working 2 (cmd i [0, 0, 0]) []).starts 0 2 i (se 4 5) (cmd i [0, 0, 0])) ∧
    (gdescOk ((List.range 64).map (fun k => (working 2 (cmd (.gldesc (se 4 5)) [0, 0, 0]) []).byteAt .hbm (place (0 + k)).2)) = true ∧
      gdescOk ((List.range 64).map (fun k => (working 2 (cmd (.gldesc (se 4 5)) [0, 0, 0]) (Memory.writeN [] 0x1003F [1])).byteAt .hbm (place (0 + k)).2)) = false) ∧
    (∀ bs, numAt bs 0 4 = 0 → ringImageOk bs = false) ∧
    (∀ i ∈ [Instr.gldesc (se 4 5), .rsload (se 4 5)], let k : Cmd := { copying i [0, 0, 63] [1] with finished := true }
      (working 2 k []).queueOf 0 k.id = some (2, k) ∧ k.finished = true ∧ k.parked = false ∧ k.reads = [] ∧ k.got = []) ∧
    (({ Core.reset with landing := [(1, [2])] } : Core).landing = [] ++ [(1, [2])]) ∧
    (working 2 (cmd (.glinv (se 0 0)) []) []).starts 0 2 (.glinv (se 0 0)) (se 0 0) (cmd (.glinv (se 0 0)) []) := by
  refine ⟨?_, ?_, ⟨by decide +kernel, by decide +kernel⟩, ?_, ?_, rfl, working_starts 2 _ [] rfl rfl rfl rfl rfl⟩
  · exact loads_image zeroImage_ok.2 zeroImage_ok.1
  · intro i hi
    simp only [List.mem_cons, List.not_mem_nil, or_false] at hi
    rcases hi with rfl | rfl <;> exact working_starts 2 _ [0, 0, 0] rfl rfl rfl rfl rfl
  · intro bs h
    rw [ringImageOk, h]
    rfl
  · intro i hi
    simp only [List.mem_cons, List.not_mem_nil, or_false] at hi
    rcases hi with rfl | rfl <;> exact ⟨rfl, rfl, rfl, rfl, rfl⟩

/-- TOK to the matrix side behind an access to tile 0 and behind none; ACCLBL to and from the last 528 bytes of the page. -/
theorem witness_tileCommands : (let m := cmd (.tokToM (se 4 0)) [0]
     (engine 1 m (fun x => { x with acc := [{ scalarAccess 3 0 0 .sts 0 0 0 0 0 0 with op := .accwr 0 }] })).vectorSide m (tileOfWord (m.val 0)) = true ∧
      (engine 1 m id).vectorSide m (tileOfWord (m.val 0)) = false ∧ (m.val 0).getLsbD 8 = false ∧ (engine 1 m id).engineHead 0 1 (.tokToM (se 4 0)) (se 4 0) m ∧
      (engine 1 m id).engineOpen (se 4 0) m) ∧
    ∀ i ∈ [Instr.acclblStore (se 4 5), .acclblLoad (se 4 5)], ∀ v ∈ [0, 0x100], let m := cmd i [v, 0, 65008]
      let s := working 1 m []
      s.engineHead 0 1 i (se 4 5) m ∧ s.engineOpen (se 4 5) m ∧ (s.wordTile 0 m).tokenV = false ∧ m.progress = 0 ∧ s.noErrors m.group ∧ s.canonical ∧
      (m.val 0).getLsbD 8 = decide (v ≠ 0) ∧
      s.reachesAll 0 (s.grp m.group) 0 { r := true, w := true } ((List.range 528).map ((m.val 2).toNat + ·)) place := by
  refine ⟨⟨rfl, rfl, rfl, ⟨rfl, rfl, rfl, rfl, rfl, rfl, rfl⟩, Or.inr (Or.inl rfl), Or.inr (Or.inl rfl)⟩, fun i hi v hv => ?_⟩
  have r : ∀ {s : State} {x : Group} {w : W64}, s.tlbOf (some 0) = [areaPage] → s.hbmBad = [] → w.toNat = 65008 →
      s.reachesAll 0 x 0 { r := true, w := true } ((List.range 528).map (w.toNat + ·)) place := fun ht hb hw => reaches_area ht hb rfl (fun a ha => by
    obtain ⟨k, hk, rfl⟩ := List.mem_map.mp ha
    have := List.mem_range.mp hk
    omega)
  simp only [List.mem_cons, List.not_mem_nil, or_false] at hi hv
  rcases hi with rfl | rfl <;> rcases hv with rfl | rfl <;>
    exact ⟨⟨rfl, rfl, rfl, rfl, rfl, rfl, rfl⟩, ⟨Or.inr (Or.inl rfl), Or.inr (Or.inl rfl)⟩, rfl, rfl, clean (by simp [working]; exact ⟨rfl, rfl, rfl⟩) rfl,
      working_canonical _ _ rfl, rfl, r rfl rfl rfl⟩

/-! ## Witnesses: sequences, the prefix table, stop strings, errors in the storage -/

/-- OPEN with one stop string; and the service's read of a prefix table of one entry. -/
theorem witness_sequenceAsks : (let b := leBytes 8 5 ++ leBytes 8 9 ++ leBytes 4 255 ++ leBytes 4 1 ++ leBytes 64 0 ++ leBytes 4 1 ++ leBytes 4 0 ++ leBytes 2 1 ++ leBytes 6 65
      (opened seq0).accepts (req 2 7 0 b) 2 ∧ 0x60 ≤ b.length ∧ numAt b 0x5C 4 = 0 ∧ numAt b 0x58 4 = [[(65 : Byte)]].length ∧
      b.drop 0x60 = [[(65 : Byte)]].flatMap (fun x => pad8 (leBytes 2 x.length ++ x)) ∧ numAt b 0x14 4 < 2 ∧ numAt b 0x10 4 < 256 ∧
      BitVec.ofNat 64 (numAt b 0 8) ∈ (opened seq0).models) ∧
    ((opened seq0).note 1 (requestBytes (req 3 7 1 (leBytes 8 2 ++ leBytes 8 3)))).tableRead (fun j => (.hbm, 0x10000 + j)) := by
  refine ⟨⟨accepts0 _ _ _ _ (by decide), by decide, rfl, rfl, rfl, by decide, by decide, by decide⟩, fun j _ hj => ?_⟩
  have h : j < 32 := hj
  interval_cases j <;> exact ⟨rfl, ⟨fetchPage, rfl, rfl, fun _ => rfl, rfl⟩, rfl⟩

/-- A sequence that generates for request 7, with these stop strings. -/
def stopping (stops : List (List Byte)) (holdback : Bool) : Sequence := { seq0 with
  generating := some 7
  stops := stops
  holdback := holdback }

/-- What a token's bytes are is open (log 21): with no stop string no token completes one, and a token of the bytes 65 and 66 completes the stop string 65, first and longest. -/
theorem witness_stopStrings : (∀ h, (opened (stopping [] h)).sequences.find (req 4 7 1 []).handle = some (stopping [] h) ∧ (stopping [] h).generating = some (req 4 7 1 []).requestId ∧
      (stopping [] h).holdback = h ∧ 2 ≤ (stopping [] h).limit ∧ (∀ x ∈ (stopping [] h).stops, 1 ≤ x.length ∧ x.length ≤ 64) ∧ ∀ v a x, ¬ (stopping [] h).completes v a x) ∧
    (∀ h, Config.tokenBytes (stopping [[65]] h).model.toNat 7 = [65, 66] → (∀ x ∈ (stopping [[65]] h).stops, 1 ≤ x.length ∧ x.length ≤ 64) ∧
      (stopping [[65]] h).completes (Config.tokenBytes (stopping [[65]] h).model.toNat 7) [] [65] ∧ 1 ≤ (stopping [[65]] h).limit ∧
      ∀ b y, (stopping [[65]] h).completes (Config.tokenBytes (stopping [[65]] h).model.toNat 7) b y → ([] : List Byte).length + [(65 : Byte)].length ≤ b.length + y.length ∧
        (([] : List Byte).length + [(65 : Byte)].length = b.length + y.length → ([] : List Byte).length ≤ b.length)) := by
  refine ⟨fun h => ⟨rfl, rfl, rfl, le_refl 2, fun x hx => absurd hx (List.not_mem_nil), fun v a x hx => absurd hx.1 (List.not_mem_nil)⟩, fun h hv => ?_⟩
  refine ⟨fun x hx => ?_, ⟨List.mem_singleton_self _, [66], ?_, Nat.zero_lt_one⟩, Nat.le_succ 1, fun b y hy => ⟨?_, fun _ => Nat.zero_le _⟩⟩
  · rw [List.mem_singleton.mp hx]
    decide
  · rw [hv]
    rfl
  · rw [List.mem_singleton.mp hy.1]
    exact Nat.le_add_left 1 _

/-- Errors that come as turns, in the storage's last units; a cached Glean line, and a group's register. -/
theorem witness_errorsArise : (∃ t, (turned (.upset (.hbm 0x2FFFFFFFF)) [] world).nextTurn = (some (.upset (.hbm 0x2FFFFFFFF)), t)) ∧
    (({ world with cores := [(191, { Core.reset with gcache := [(32767, [])] })] } : State).core 191).gcache.any (fun p => p.1 == 65535 / 2) = true ∧
    (world.groups.find 0).isSome = true := ⟨⟨_, rfl⟩, rfl, rfl⟩

/-- FIPS 186-4: the base point lies on the curve y^2 = x^3 - 3x + b, and so does its double, whose x the published point multiples give. -/
theorem test_p256 : (let onCurve := fun (q : Nat × Nat) => q.2 * q.2 % p256 = (q.1 ^ 3 + 3 * p256 - 3 * q.1 + p256B) % p256
     onCurve p256Base ∧ ∃ q, pointMul 256 2 (some p256Base) = some q ∧ onCurve q ∧
       q.1 = 0x7CF27B188D034F7E8A52380304B51AC3C08969E277F21B35A60B48FC47669978) :=
  ⟨by decide +kernel, (pointMul 256 2 (some p256Base)).getD (0, 0), by decide +kernel, by decide +kernel, by decide +kernel⟩

end Sys2Proof.Tests
end

/-! ## WAITF and WAITC (R148, R149) -/

section
open Sys2Proof

namespace Sys2Proof.Machine

/-! A fetch keeps the streams: it sets A bits and fills a TLB entry, so it ends reservations but moves no stream. -/

/-- A table's values changed one by one. -/
theorem Map.get_map {α : Type} (m : Map α) (d : α) (k : Nat) (f : Nat → α → α) (hd : f k d = d) :
    Map.get (m.map (fun p => (p.1, f p.1 p.2))) d k = f k (m.get d k) := by
  induction m with
  | nil => exact hd.symm
  | cons p t ih =>
    obtain ⟨i, v⟩ := p
    simp only [List.map_cons, Map.get, ih]
    split
    · subst_vars
      rfl
    · rfl

/-- From `s` to `t` the agent in hand stays, and every split but for its reservations. -/
def State.keepsStreams (s t : State) : Prop := t.cur = s.cur ∧ ∀ g sp, ∃ r, t.split g sp = { s.split g sp with resv := r }

theorem State.keepsStreams_of_groups_eq {s t : State} (hc : t.cur = s.cur) (hg : t.groups = s.groups) : s.keepsStreams t :=
  ⟨hc, fun g sp => ⟨(s.split g sp).resv, by simp only [State.split, State.grp, hg]⟩⟩

theorem State.keepsStreams_refl (s : State) : s.keepsStreams s := State.keepsStreams_of_groups_eq rfl rfl

theorem State.keepsStreams.trans {s t u : State} (h : s.keepsStreams t) (k : t.keepsStreams u) : s.keepsStreams u := by
  refine ⟨k.1.trans h.1, fun g sp => ?_⟩
  obtain ⟨r, hr⟩ := h.2 g sp
  obtain ⟨q, hq⟩ := k.2 g sp
  exact ⟨q, by rw [hq, hr]⟩

theorem State.keepsStreams.spc {s t : State} (h : s.keepsStreams t) (g sp : Nat) : (t.split g sp).spc = (s.split g sp).spc := by
  obtain ⟨r, hr⟩ := h.2 g sp
  rw [hr]

theorem State.keepsStreams_clearResv (s : State) (own : Option (Nat × Nat)) (grs : List Nat) : s.keepsStreams (s.clearResv own grs) := by
  refine ⟨rfl, fun g sp => ⟨(s.split g sp).resv.filter (fun r => own == some (g, sp + 4 * (r.1 / 64)) || !grs.contains r.2), ?_⟩⟩
  simp only [State.split, State.grp, Group.split, State.clearResv]
  rw [Map.get_map s.groups Group.empty g (fun i x => { x with splits := x.splits.map (fun q =>
    (q.1, { q.2 with resv := q.2.resv.filter (fun r => own == some (i, q.1 + 4 * (r.1 / 64)) || !grs.contains r.2) })) }) rfl]
  exact Map.get_map _ Split.dead sp (fun j q =>
    { q with resv := q.resv.filter (fun r => own == some (g, j + 4 * (r.1 / 64)) || !grs.contains r.2) }) rfl

theorem State.keepsStreams_orLeaf (s : State) (slot : Nat) (write : Bool) : s.keepsStreams (s.orLeaf slot write) := by
  simp only [State.orLeaf]
  generalize (s.hbmNat slot 8 ||| if write = true then 0x180 else 0x80) = new
  split
  · exact s.keepsStreams_refl
  · exact (State.keepsStreams_of_groups_eq rfl rfl).trans (State.keepsStreams_clearResv _ none _)

theorem State.keepsStreams_tlbFill (s : State) (tlb : Option Nat) (e : TlbEntry) : s.keepsStreams (s.tlbFill tlb e) := by
  cases tlb <;> exact State.keepsStreams_of_groups_eq rfl rfl

theorem State.keepsStreams_translateWalk (s : State) (tlb : Option Nat) (va : W64) (n : Need) :
    s.keepsStreams (s.translateWalk tlb va n).1 := by
  simp only [State.translateWalk]
  split
  · exact s.keepsStreams_refl
  · exact s.keepsStreams_refl
  · split
    · exact (s.keepsStreams_orLeaf _ n.w).trans (State.keepsStreams_tlbFill _ tlb _)
    · exact s.keepsStreams_refl

theorem State.keepsStreams_translate (s : State) (tlb : Option Nat) (va : W64) (n : Need) : s.keepsStreams (s.translate tlb va n).1 := by
  simp only [State.translate]
  split
  · exact s.keepsStreams_translateWalk tlb _ n
  · split
    · exact s.keepsStreams_refl
    · split
      · split
        · exact s.keepsStreams_refl
        · exact s.keepsStreams_refl
        · split
          · exact (s.keepsStreams_orLeaf _ true).trans (State.keepsStreams_tlbFill _ tlb _)
          · exact s.keepsStreams_refl
      · exact s.keepsStreams_refl

theorem State.keepsStreams_fetchHalves (s : State) (tlb : Option Nat) (va : W64) (n : Nat) : s.keepsStreams (s.fetchHalves tlb va n).1 := by
  induction n generalizing s va with
  | zero => exact s.keepsStreams_refl
  | succ n ih =>
    have hx := s.keepsStreams_translate tlb va { x := true }
    rcases ht : s.translate tlb va { x := true } with ⟨t, pa | c | pa⟩ <;> rw [ht] at hx <;> simp only [State.fetchHalves, ht]
    case ok =>
      split
      · exact hx
      · have hr := hx.trans (ih t (va + 2))
        rcases hf : t.fetchHalves tlb (va + 2) n with ⟨u, bs | f | p⟩ <;> rw [hf] at hr <;> exact hr
    case fault => exact hx
    case check => exact hx

/-! Words that are no instruction (R111). -/

/-- A turn in which the fetch gives no instruction is the fetch. -/
theorem step_of_nextInstr_none {s u v : State} {a : Agent} (h : s.takesTurn a u) (hn : u.nextInstr a = (v, none)) : step s = .next v := by
  obtain ⟨t, ht, hm, _, rfl⟩ := h
  have hn' : t.nextInstr a = (v, none) := hn
  simp only [step, ht, State.runAgent, hm, hn', Bool.not_true, Bool.false_eq_true, if_false]

/-- The low bits of a word-aligned address are zero. -/
theorem extractLow_eq_zero_of_aligned {a : W64} (h : a.toNat % 4 = 0) : a.extractLsb' 0 2 = 0 :=
  BitVec.eq_of_toNat_eq (by simpa using h)

theorem State.decoded_error {s : State} {bs : List Byte} {e : DecodeError} (h : decodeScalar (BitVec.ofNat 32 (numAt bs 0 4)) = .error e) :
    s.decoded bs = (s.illegal, none) := by
  simp only [State.decoded, h]

theorem State.takesTurn.nextInstr_scalar {s u : State} {g sp : Nat} (h : s.takesTurn (.scalar g sp) u) :
    u.nextInstr (.scalar g sp) = u.nextScalar g sp := by
  obtain ⟨t, _, _, hstruck, rfl⟩ := h
  exact if_neg (ne_true_of_eq_false hstruck)

theorem State.takesTurn.nextInstr_service {s u : State} {k : Nat} (h : s.takesTurn (.service k) u) :
    u.nextInstr (.service k) = u.nextService k := by
  obtain ⟨t, _, _, hstruck, rfl⟩ := h
  exact if_neg (ne_true_of_eq_false hstruck)

theorem State.takesTurn.cur_eq {s u : State} {a : Agent} (h : s.takesTurn a u) : u.cur = a := by
  obtain ⟨t, _, _, _, rfl⟩ := h
  rfl

/-- A group's stream that fetches a word that is none takes the illegal-instruction trap at its address. -/
theorem State.nextScalar_illegal {u t : State} {g sp : Nat} {bs : List Byte} {e : DecodeError} (hc : u.cur = .scalar g sp)
    (hmay : u.scalarMay g sp = true) (ha : (u.split g sp).spc.toNat % 4 = 0)
    (hf : u.fetchHalves (some (u.grp g).core) (u.split g sp).spc 2 = (t, .ok bs))
    (hd : decodeScalar (BitVec.ofNat 32 (numAt bs 0 4)) = .error e) :
    u.nextScalar g sp = (t.fatal g 0x10 (u.split g sp).spc 0 0 sp, none) := by
  have hk : u.keepsStreams t := by
    have := u.keepsStreams_fetchHalves (some (u.grp g).core) (u.split g sp).spc 2
    rwa [hf] at this
  have hill : t.illegal = t.fatal g 0x10 (u.split g sp).spc 0 0 sp := by
    simp only [State.illegal, State.takeTrap, hk.1, hc, hk.spc]
  simp only [State.nextScalar, hmay, extractLow_eq_zero_of_aligned ha, hf, State.decoded_error hd, hill, Bool.not_true, Bool.false_eq_true, if_false,
    ne_eq, not_true_eq_false]

/-- A service core that fetches a word that is none takes the trap 0x10. -/
theorem State.nextService_illegal {u t : State} {k : Nat} {bs : List Byte} {e : DecodeError} (hc : u.cur = .service k)
    (hrun : (u.svc k).halted = false) (ha : (u.svc k).pc.toNat % 4 = 0) (hf : u.fetchHalves none (u.svc k).pc 2 = (t, .ok bs))
    (hd : decodeScalar (BitVec.ofNat 32 (numAt bs 0 4)) = .error e) :
    u.nextService k = (t.serviceTrap k 0x10 0, none) := by
  have hk : u.keepsStreams t := by
    have := u.keepsStreams_fetchHalves none (u.svc k).pc 2
    rwa [hf] at this
  have hill : t.illegal = t.serviceTrap k 0x10 0 := by
    simp only [State.illegal, State.takeTrap, hk.1, hc]
  simp only [State.nextService, hrun, extractLow_eq_zero_of_aligned ha, hf, State.decoded_error hd, hill, Bool.false_eq_true, if_false,
    ne_eq, not_true_eq_false]

theorem illegalWord_of_decode_error {w : W32} {e : DecodeError} (he : decodeScalar w = .error e) : illegalWord w := by
  constructor
  · intro s u t g sp bs hturn hmay ha hf hw
    have hn := State.nextScalar_illegal hturn.cur_eq hmay ha hf (hw ▸ he)
    exact step_of_nextInstr_none hturn (hturn.nextInstr_scalar.trans hn)
  · intro s u t k bs hturn hrun ha hf hw
    have hn := State.nextService_illegal hturn.cur_eq hrun ha hf (hw ▸ he)
    exact step_of_nextInstr_none hturn (hturn.nextInstr_service.trans hn)

/-- The word of a row with a field that must be zero. -/
theorem word_of_zeroOr {w : W32} {op : Nat} {ok : Bool} {i : Instr} (h : decodeScalar w = zeroOr op ok i) :
    if ok = true then decodeScalar w = .ok i else illegalWord w := by
  cases ok with
  | true => exact h
  | false => exact illegalWord_of_decode_error h

/-! The words of WAITF and WAITC. -/

theorem decodeScalar_op22 {w : W32} (h : field w 26 6 = 0x22#6) :
    decodeScalar w = zeroOr 0x22 (field w 20 6 == 0 && field w 12 8 == 0) (.waitf (field w 0 12)) := by
  simp only [decodeScalar, h]
  rfl

theorem decodeScalar_op23 {w : W32} (h : field w 26 6 = 0x23#6) : decodeScalar w = decodeFn w := by
  simp only [decodeScalar, h]
  rfl

/-- The FN of each WAITC, as R149 lists them. -/
def waitcRows : List (BitVec 8 × (BitVec 6 → Instr)) :=
  [(0, .waitcGld), (1, .waitcGst), (2, .waitcSpd), (3, .waitcGln), (4, .waitcEng), (5, .waitcRem)]

theorem decodeFn_waitc {w : W32} {p : BitVec 8 × (BitVec 6 → Instr)} (hp : p ∈ waitcRows) (ho : field w 26 6 = 0x23#6) (hf : field w 0 8 = p.1) :
    decodeFn w = zeroOr 0x23 (field w 20 6 == 0 && field w 8 6 == 0) (p.2 (field w 14 6)) := by
  simp only [waitcRows, List.mem_cons, List.not_mem_nil, or_false] at hp
  simp only [decodeFn, ho, hf]
  rcases hp with rfl | rfl | rfl | rfl | rfl | rfl <;> rfl

theorem decodeFn_waitc_badFn {w : W32} (ho : field w 26 6 = 0x23#6) (hf : 6 ≤ (field w 0 8).toNat) :
    decodeFn w = .error (.badFn 0x23 (field w 0 8).toNat) := by
  simp only [decodeFn, ho]
  generalize (field w 0 8).toNat = n at hf ⊢
  obtain ⟨m, rfl⟩ := Nat.exists_eq_add_of_le' hf
  rfl

/-- The fields of a word laid out as OP, D, eight bits and twelve. -/
theorem fields_waitf (o d : BitVec 6) (z : BitVec 8) (f : BitVec 12) (w : W32) (hw : w = o ++ d ++ z ++ f) :
    field w 26 6 = o ∧ field w 20 6 = d ∧ field w 12 8 = z ∧ field w 0 12 = f := by
  subst hw
  simp (disch := omega) only [BitVec.extractLsb'_append_eq_of_add_le, BitVec.extractLsb'_append_eq_of_le]
  exact ⟨BitVec.extractLsb'_eq_self, BitVec.extractLsb'_eq_self, BitVec.extractLsb'_eq_self, BitVec.extractLsb'_eq_self⟩

/-- The fields of an ALU-R word (R92): OP, D, A, B and FN. -/
theorem fields_aluR (o d a b : BitVec 6) (f : BitVec 8) (w : W32) (hw : w = o ++ d ++ a ++ b ++ f) :
    field w 26 6 = o ∧ field w 20 6 = d ∧ field w 14 6 = a ∧ field w 8 6 = b ∧ field w 0 8 = f := by
  subst hw
  simp (disch := omega) only [BitVec.extractLsb'_append_eq_of_add_le, BitVec.extractLsb'_append_eq_of_le]
  exact ⟨BitVec.extractLsb'_eq_self, BitVec.extractLsb'_eq_self, BitVec.extractLsb'_eq_self, BitVec.extractLsb'_eq_self,
    BitVec.extractLsb'_eq_self⟩

theorem waitWords_hold : waitWords := by
  refine ⟨fun d z f => ?_, fun p hp d a b => ?_, fun d a b f hf => ?_⟩
  · obtain ⟨ho, hd, hz, hf⟩ := fields_waitf 0x22 d z f _ rfl
    have hw := decodeScalar_op22 ho
    rw [hd, hz, hf] at hw
    simpa using word_of_zeroOr hw
  · obtain ⟨ho, hd, ha, hb, hf⟩ := fields_aluR 0x23 d a b p.1 _ rfl
    have hw := (decodeScalar_op23 ho).trans (decodeFn_waitc hp ho hf)
    rw [hd, ha, hb] at hw
    simpa using word_of_zeroOr hw
  · obtain ⟨ho, _, _, _, hfn⟩ := fields_aluR 0x23 d a b f _ rfl
    exact illegalWord_of_decode_error ((decodeScalar_op23 ho).trans (decodeFn_waitc_badFn ho (by rwa [hfn])))

/-! Waiting. -/

theorem State.stallAs_scalar {s : State} {g sp : Nat} (h : s.cur = .scalar g sp) (w : Stall) :
    s.stallAs w = s.modSplit g sp (fun p => { p with stall := some w }) := by
  simp only [State.stallAs, h]

theorem Group.flagsClear_iff (x : Group) (f : BitVec 12) :
    x.flagsClear f.toNat = true ↔ ∀ k, k < 12 → f.getLsbD k = true → x.flagCount k = 0 := by
  simp only [Group.flagsClear, List.all_eq_true, List.mem_range, Bool.or_eq_true, Bool.not_eq_true', beq_iff_eq, BitVec.testBit_toNat]
  refine forall₂_congr fun k _ => ?_
  cases f.getLsbD k <;> simp

theorem Group.flagsClear_eq_false_iff (x : Group) (f : BitVec 12) :
    x.flagsClear f.toNat = false ↔ ∃ k, k < 12 ∧ f.getLsbD k = true ∧ x.flagCount k ≠ 0 := by
  rw [← Bool.not_eq_true, Group.flagsClear_iff]
  push Not
  rfl

/-! Parking. -/

/-- Parking leaves a group that is in no set of its sector as it is (R229). -/
theorem State.park_cases (s : State) (g : Nat) :
    s.park g = s ∨ s.park g = (s.leaveSector g).modGrp g (fun x => { x with st := .parked }) := by
  unfold State.park
  cases (s.grp g).st
  case active => exact Or.inr rfl
  case pending => exact Or.inr rfl
  all_goals exact Or.inl rfl

@[simp] theorem State.split_leaveSector (s : State) (g h sp : Nat) : (s.leaveSector g).split h sp = s.split h sp := rfl

@[simp] theorem State.spad_leaveSector (s : State) (g c : Nat) : ((s.leaveSector g).core c).spad = (s.core c).spad := by
  simp only [State.leaveSector, State.core_modCore]
  split
  · subst_vars
    rfl
  · rfl

/-- Parking changes no split. -/
@[simp] theorem State.split_park (s : State) (g h sp : Nat) : (s.park g).split h sp = s.split h sp := by
  rcases s.park_cases g with hp | hp
  · rw [hp]
  · rw [hp, ← State.split_leaveSector s g h sp]
    simp only [State.split, State.grp_modGrp]
    split
    · subst_vars
      rfl
    · rfl

theorem State.sameBytes_park (s : State) (g : Nat) : s.sameBytes (s.park g) := by
  rcases s.park_cases g with hp | hp <;> rw [hp]
  · exact ⟨fun _ => rfl, fun _ _ => rfl⟩
  · exact ⟨fun _ => rfl, fun c a => by rw [State.core_modGrp, State.spad_leaveSector]⟩

theorem State.split_parkStuck (s : State) (g h sp : Nat) : (s.parkStuck g).split h sp = s.split h sp := by
  unfold State.parkStuck
  split
  · exact s.split_park g h sp
  · rfl

theorem State.sameBytes_parkStuck (s : State) (g : Nat) : s.sameBytes (s.parkStuck g) := by
  unfold State.parkStuck
  split
  · exact s.sameBytes_park g
  · exact ⟨fun _ => rfl, fun _ _ => rfl⟩

/-! The effects. -/

/-- WAITF where it issues: on, or held (R148). -/
theorem exec_waitf {s : State} {g sp : Nat} (f : BitVec 12) (h : s.ready g sp []) :
    exec (.waitf f) s = .next (if (s.split g sp).clausesStarted && (s.grp g).flagsClear f.toNat then s.jumpTo (s.pc + 4)
      else s.modSplit g sp (fun p => { p with stall := some (.waitf f.toNat) })) := by
  rw [← State.stallAs_scalar h.1]
  change execWaitf f s = _
  rw [execWaitf, State.groupDo_ready h]
  rfl

/-- The WAITC forms differ only in their counter. -/
theorem exec_waitcOf {i : Instr} {a : BitVec 6} {c : Nat} (h : waitcOf i = some (a, c)) (s : State) : exec i s = s.waitc a c := by
  unfold waitcOf at h
  split at h
  case h_7 => cases h
  all_goals
    cases h
    rfl

/-- WAITC where it issues: on, or held, with the group parked where a parked command keeps the counter up (R149, R233). -/
theorem State.waitc_ready {s : State} {g sp : Nat} {a : BitVec 6} (c : Nat) (h : s.ready g sp [a]) :
    s.waitc a c = .next (if (s.split g sp).clausesDone && decide (((s.grp g).counter c).toNat ≤ (s.sreg a).toNat) then s.jumpTo (s.pc + 4)
      else (s.modSplit g sp (fun p => { p with stall := some (.waitc c (s.sreg a).toNat) })).parkStuck g) := by
  rw [← State.stallAs_scalar h.1]
  exact State.groupDo_ready h

theorem waitEffects_hold : waitEffects := by
  refine ⟨fun f s g sp h hc hf => ?_, fun f s g sp h hw => ?_, fun i a c s g sp hi h hc hn => ?_, fun i a c s g sp hi h hw => ?_⟩
  · rw [exec_waitf f h, hc, (Group.flagsClear_iff _ f).2 hf]
    rfl
  · have hold : ((s.split g sp).clausesStarted && (s.grp g).flagsClear f.toNat) = false :=
      Bool.and_eq_false_iff.2 (hw.imp_right (Group.flagsClear_eq_false_iff _ f).2)
    rw [exec_waitf f h, hold]
    rfl
  · rw [exec_waitcOf hi, State.waitc_ready c h, hc, decide_eq_true hn]
    rfl
  · have hold : ((s.split g sp).clausesDone && decide (((s.grp g).counter c).toNat ≤ (s.sreg a).toNat)) = false :=
      Bool.and_eq_false_iff.2 (hw.imp_right fun hlt => decide_eq_false (Nat.not_le.2 hlt))
    rw [exec_waitcOf hi, State.waitc_ready c h, hold, if_neg Bool.false_ne_true]
    refine ⟨_, rfl, ?_, ?_, State.sameBytes_parkStuck _ g⟩
    · rw [State.split_parkStuck, State.split_modSplit, if_pos ⟨rfl, rfl⟩, State.pc_scalar h.1]
    · rw [State.split_parkStuck, State.split_modSplit, if_pos ⟨rfl, rfl⟩]

/-- Settles O9: the effects are the two issue equations, read at the conditions of R148 and R149; the words follow from the decoder's rows of
OP 0x22 and 0x23. -/
theorem scalarWaits : Obligations.ScalarWaits := ⟨waitEffects_hold, waitWords_hold⟩

end Sys2Proof.Machine

end

/-! ## The scalar registers of a split (R62) -/

section
open Sys2Proof

namespace Sys2Proof.Machine

/-! CALL's link. -/

theorem State.sreg_scalar {s : State} {g sp : Nat} (h : s.cur = .scalar g sp) (r : BitVec 6) :
    s.sreg r = if r = 0 then 0 else (s.split g sp).regs.get 0 r.toNat := by
  simp only [State.sreg, h]

theorem State.sreg_service {s : State} {k : Nat} (h : s.cur = .service k) (r : BitVec 6) :
    s.sreg r = if r = 0 then 0 else (s.svc k).regs.get 0 r.toNat := by
  simp only [State.sreg, h]

/-- Going on at an address changes no scalar register: it moves the agent's place, and an agent with no scalar stream has none to move. -/
@[simp] theorem State.sreg_jumpTo (s : State) (a : W64) (r : BitVec 6) : (s.jumpTo a).sreg r = s.sreg r := by
  cases hc : s.cur with
  | scalar g sp =>
    rw [State.sreg_scalar ((s.jumpTo_cur a).trans hc), State.sreg_scalar hc, State.jumpTo_scalar hc]
    simp only [State.split_modSplit, and_self, if_true]
  | service k =>
    rw [State.sreg_service ((s.jumpTo_cur a).trans hc), State.sreg_service hc, State.jumpTo_service hc]
    simp only [State.svc_setSvc, if_true]
  | device | lane _ _ | engine _ _ | halyard _ _ => simp only [State.jumpTo, hc]

/-- A word offset counts four bytes each (R89). -/
theorem wordOff_eq_mul {n : Nat} (o : BitVec n) : wordOff o = o.signExtend 64 * 4 :=
  BitVec.shiftLeft_eq_mul_twoPow _ 2

/-- CALL where it issues: the link to s63, then the jump (R142). -/
theorem exec_call {s : State} (o : BitVec 26) (h : s.issues [63]) :
    exec (.call o) s = .next ((s.setSreg 63 (s.pc + 4)).jumpTo (s.pc + o.signExtend 64 * 4)) := by
  change execCall o s = _
  rw [execCall, State.scalarDo_issues h, wordOff_eq_mul]

theorem call_writes_link (o : BitVec 26) (s : State) (h : s.issues [63]) : ∃ t, exec (.call o) s = .next t ∧ t.sreg 63 = s.pc + 4 := by
  refine ⟨_, exec_call o h, ?_⟩
  rw [State.sreg_jumpTo, State.sreg_setSreg s 63 63 _ h.1, if_neg (by decide), if_pos rfl]

/-! Group start. -/

/-- A table that lists the keys 1 to `n` first. -/
theorem Map.get_range_append {α : Type} (f : Nat → α) (n : Nat) (m : Map α) (d : α) (k : Nat) :
    Map.get ((List.range n).map (fun i => (i + 1, f i)) ++ m) d k = if 1 ≤ k ∧ k ≤ n then f (k - 1) else m.get d k := by
  induction n generalizing m with
  | zero => exact (if_neg (by omega)).symm
  | succ n ih =>
    rw [List.range_succ, List.map_append, List.append_assoc, ih]
    by_cases hk : n + 1 = k
    · subst hk
      rw [if_neg (by omega), if_pos (by omega)]
      exact if_pos rfl
    · have hin : (1 ≤ k ∧ k ≤ n) ↔ (1 ≤ k ∧ k ≤ n + 1) := by omega
      simp only [hin, List.map_cons, List.map_nil, List.singleton_append, Map.get, if_neg hk]

/-- The table of R62: the arguments in s1 to s15, the group's numbers in s16 to s19, zero elsewhere. -/
theorem get_startRegs (args : List W64) (gid grank crank cluid r : Nat) :
    (startRegs args gid grank crank cluid).get 0 r =
      if 1 ≤ r ∧ r ≤ 15 then args.getD (r - 1) 0 else if r = 16 then BitVec.ofNat 64 gid else if r = 17 then BitVec.ofNat 64 grank
      else if r = 18 then BitVec.ofNat 64 crank else if r = 19 then BitVec.ofNat 64 cluid else 0 := by
  rw [startRegs, Map.get_range_append]
  simp only [Map.get, eq_comm (b := r)]

theorem regs_startGroup (l : Launch) (lno team cluster crank grank corner core age : Nat) (p : Nat × Nat) (v : Option LaneReg) :
    ((startGroup l lno team cluster crank grank corner core age p v).split 0).regs =
      startRegs l.args (startGroup l lno team cluster crank grank corner core age p v).gid grank crank cluster := rfl

/-- Settles O3: s0 and the reads after writes are laws of the register file; CALL is a write of s63 and a jump, which moves no register; a
starting group's split 0 holds the table of R62. -/
theorem scalarRegisters : Obligations.ScalarRegisters := by
  refine ⟨fun s v => ⟨s.sreg_zero, s.setSreg_zero v⟩, fun s d r v h => s.sreg_setSreg d r v h, call_writes_link, ?_⟩
  rintro l lno team cluster crank grank corner core age r p v x rfl
  exact ⟨by rw [regs_startGroup, get_startRegs], rfl, rfl, rfl⟩

end Sys2Proof.Machine

end

/-! ## The integer functions of scalar registers and constants (R137 to R139) -/

section
open Sys2Proof

namespace Sys2Proof.Machine

/-! The values of R137 on 64-bit words. -/

theorem mulHi_eq (x y : W64) : mulHi x y = (x.signExtend 128 * y.signExtend 128).extractLsb' 64 64 := by
  have hp : x.signExtend 128 * y.signExtend 128 = BitVec.ofInt 128 (x.toInt * y.toInt) := (BitVec.ofInt_mul _ _).symm
  rw [hp, mulHi]
  generalize x.toInt * y.toInt = z
  apply BitVec.eq_of_toNat_eq
  simp only [BitVec.extractLsb'_toNat, BitVec.toNat_ofInt, Nat.shiftRight_eq_div_pow]
  omega

theorem mulHiW_eq (x y : W64) : mulHiW x y = (x.setWidth 128 * y.setWidth 128).extractLsb' 64 64 := by
  have hlt : x.toNat * y.toNat < 2 ^ 128 := lt_of_lt_of_le (Nat.mul_lt_mul'' x.isLt y.isLt) (by decide)
  have hw (z : W64) : z.toNat % 2 ^ 128 = z.toNat := Nat.mod_eq_of_lt (z.isLt.trans (by decide))
  apply BitVec.eq_of_toNat_eq
  simp only [mulHiW, BitVec.extractLsb'_toNat, BitVec.toNat_mul, BitVec.toNat_setWidth, BitVec.toNat_ofNat, Nat.shiftRight_eq_div_pow, hw,
    Nat.mod_eq_of_lt hlt]

theorem ofInt_tdiv (x y : W64) : BitVec.ofInt 64 (x.toInt.tdiv y.toInt) = x.sdiv y :=
  BitVec.eq_of_toInt_eq (by rw [BitVec.toInt_ofInt, BitVec.toInt_sdiv])

theorem ofNat_div (x y : W64) : BitVec.ofNat 64 (x.toNat / y.toNat) = x / y :=
  BitVec.eq_of_toNat_eq (by rw [← BitVec.toNat_udiv, BitVec.ofNat_toNat, BitVec.setWidth_eq])

/-- The remainder is what the truncated quotient leaves. -/
theorem ofInt_tmod (x y : W64) : BitVec.ofInt 64 (x.toInt.tmod y.toInt) = x - y * x.sdiv y := by
  have h := congrArg (BitVec.ofInt 64) (Int.tmod_add_mul_tdiv x.toInt y.toInt)
  rw [BitVec.ofInt_add, BitVec.ofInt_mul, ofInt_tdiv, BitVec.ofInt_toInt, BitVec.ofInt_toInt] at h
  exact eq_sub_of_add_eq h

theorem ofNat_mod (x y : W64) : BitVec.ofNat 64 (x.toNat % y.toNat) = x - y * (x / y) := by
  have h := congrArg (BitVec.ofNat 64) (Nat.mod_add_div x.toNat y.toNat)
  rw [BitVec.ofNat_add, BitVec.ofNat_mul, ofNat_div, BitVec.ofNat_toNat, BitVec.ofNat_toNat, BitVec.setWidth_eq, BitVec.setWidth_eq] at h
  exact eq_sub_of_add_eq h

theorem divS_eq (x y : W64) : divS x y = if y = 0 then BitVec.allOnes 64 else x.sdiv y := by rw [divS, ofInt_tdiv]

theorem divU_eq (x y : W64) : divU x y = if y = 0 then BitVec.allOnes 64 else x / y := by rw [divU, ofNat_div]

theorem remS_eq (x y : W64) : remS x y = if y = 0 then x else x - y * x.sdiv y := by rw [remS, ofInt_tmod]

theorem remU_eq (x y : W64) : remU x y = if y = 0 then x else x - y * (x / y) := by rw [remU, ofNat_mod]

theorem smin_eq (x y : W64) : smin x y = if y.slt x then y else x := by
  rw [smin, BitVec.sle_eq_not_slt]
  cases y.slt x <;> rfl

/-- Of two equal numbers either is the maximum. -/
theorem smax_eq (x y : W64) : smax x y = if x.slt y then y else x := by
  simp only [smax, BitVec.sle_iff_toInt_le, BitVec.slt_iff_toInt_lt]
  rcases lt_trichotomy x.toInt y.toInt with h | h | h
  · rw [if_pos h.le, if_pos h]
  · rw [if_pos h.le, if_neg h.not_lt, BitVec.eq_of_toInt_eq h]
  · rw [if_neg h.not_ge, if_neg h.not_gt]

theorem umin_eq (x y : W64) : umin x y = if y.ult x then y else x := by
  rw [umin, BitVec.ule_eq_not_ult]
  cases y.ult x <;> rfl

theorem umax_eq (x y : W64) : umax x y = if x.ult y then y else x := by
  simp only [umax, BitVec.ule_iff_toNat_le, BitVec.ult_iff_toNat_lt]
  rcases lt_trichotomy x.toNat y.toNat with h | h | h
  · rw [if_pos h.le, if_pos h]
  · rw [if_pos h.le, if_neg h.not_lt, BitVec.eq_of_toNat_eq h]
  · rw [if_neg h.not_ge, if_neg h.not_gt]

theorem b64_sle (x y : W64) : b64 (y.sle x) = if x.slt y then 0 else 1 := by
  rw [b64, BitVec.sle_eq_not_slt]
  cases x.slt y <;> rfl

theorem b64_ule (x y : W64) : b64 (y.ule x) = if x.ult y then 0 else 1 := by
  rw [b64, BitVec.ule_eq_not_ult]
  cases x.ult y <;> rfl

/-- The shift amount is b[5:0]. -/
theorem shamt_eq (y : W64) : shamt y = (y.extractLsb' 0 6).toNat := by
  rw [BitVec.extractLsb'_toNat, Nat.shiftRight_zero]
  rfl

theorem shl_shamt (x y : W64) : x <<< shamt y = x <<< (y.extractLsb' 0 6).toNat := by rw [shamt_eq]

theorem shr_shamt (x y : W64) : x >>> shamt y = x >>> (y.extractLsb' 0 6).toNat := by rw [shamt_eq]

theorem sar_shamt (x y : W64) : x.sshiftRight (shamt y) = x.sshiftRight (y.extractLsb' 0 6).toNat := by rw [shamt_eq]

theorem rotr_shamt (x y : W64) : rotr x (shamt y) = x.rotateRight (y.extractLsb' 0 6).toNat := by rw [rotr, shamt_eq]

theorem b64_beq (x y : W64) : b64 (x == y) = if x = y then 1 else 0 := by simp only [b64, beq_iff_eq]

theorem b64_bne (x y : W64) : b64 (x != y) = if x = y then 0 else 1 := by simp only [b64, bne_iff_ne, ne_eq, ite_not]

/-! The functions of two sources and of one. -/

theorem State.alu2_congr {f h : W64 → W64 → W64} (s : State) (d a b : BitVec 6) (hfh : ∀ x y, f x y = h x y) :
    s.alu2 d a b f = s.alu2 d a b h := congrArg (s.alu2 d a b) (funext₂ hfh)

/-- The instruction's operation in the model is its Op of R137. -/
theorem exec_aluTwo {i : Instr} {d a b : BitVec 6} {f : W64 → W64 → W64} (h : aluTwo i = some (d, a, b, f)) (s : State) :
    exec i s = s.alu2 d a b f := by
  unfold aluTwo at h
  split at h
  case h_28 => cases h
  all_goals cases h
  case h_4 => exact (s.alu2_congr d a b mulHi_eq :)
  case h_5 => exact (s.alu2_congr d a b mulHiW_eq :)
  case h_6 => exact (s.alu2_congr d a b divS_eq :)
  case h_7 => exact (s.alu2_congr d a b divU_eq :)
  case h_8 => exact (s.alu2_congr d a b remS_eq :)
  case h_9 => exact (s.alu2_congr d a b remU_eq :)
  case h_14 => exact (s.alu2_congr d a b shl_shamt :)
  case h_15 => exact (s.alu2_congr d a b shr_shamt :)
  case h_16 => exact (s.alu2_congr d a b sar_shamt :)
  case h_17 => exact (s.alu2_congr d a b rotr_shamt :)
  case h_18 => exact (s.alu2_congr d a b smin_eq :)
  case h_19 => exact (s.alu2_congr d a b smax_eq :)
  case h_20 => exact (s.alu2_congr d a b umin_eq :)
  case h_21 => exact (s.alu2_congr d a b umax_eq :)
  case h_22 => exact (s.alu2_congr d a b b64_beq :)
  case h_23 => exact (s.alu2_congr d a b b64_bne :)
  case h_26 => exact (s.alu2_congr d a b b64_sle :)
  case h_27 => exact (s.alu2_congr d a b b64_ule :)
  all_goals rfl

theorem exec_aluOne {i : Instr} {d a : BitVec 6} {f : W64 → W64} (h : aluOne i = some (d, a, f)) (s : State) : exec i s = s.alu1 d a f := by
  unfold aluOne at h
  split at h
  case h_11 => cases h
  all_goals
    cases h
    rfl

theorem State.alu2_issues {s : State} {d a b : BitVec 6} (f : W64 → W64 → W64) (h : s.issues [d, a, b]) :
    s.alu2 d a b f = .next ((s.setSreg d (f (s.sreg a) (s.sreg b))).jumpTo (s.pc + 4)) := by
  rw [State.alu2, State.scalarDo_issues h, State.advance_setSreg]

theorem State.alu1_issues {s : State} {d a : BitVec 6} (f : W64 → W64) (h : s.issues [d, a]) :
    s.alu1 d a f = .next ((s.setSreg d (f (s.sreg a))).jumpTo (s.pc + 4)) := by
  rw [State.alu1, State.scalarDo_issues h, State.advance_setSreg]

theorem scalarTwoSource_holds : scalarTwoSource := fun _ _ _ _ f s hi h => (exec_aluTwo hi s).trans (State.alu2_issues f h)

theorem scalarImmediate_holds : scalarImmediate := fun _ _ _ f s hi h => (exec_aluOne hi s).trans (State.alu1_issues f h)

/-! Counting bits. -/

theorem clzNat_le (n x : Nat) : clzNat n x ≤ n := by
  induction n with
  | zero => exact Nat.le_refl 0
  | succ n ih =>
    rw [clzNat]
    split <;> omega

theorem testBit_of_lt_clzNat {n x k : Nat} (h : k < clzNat n x) : x.testBit (n - 1 - k) = false := by
  induction n generalizing k with
  | zero => exact absurd h (Nat.not_lt_zero k)
  | succ n ih =>
    rw [clzNat] at h
    split at h
    · exact absurd h (Nat.not_lt_zero k)
    · rename_i htop
      cases k with
      | zero => simpa using htop
      | succ k => simpa [Nat.sub_sub, Nat.add_comm] using ih (k := k) (by omega)

theorem testBit_clzNat {n x : Nat} (h : clzNat n x < n) : x.testBit (n - 1 - clzNat n x) = true := by
  induction n with
  | zero => exact absurd h (Nat.not_lt_zero _)
  | succ n ih =>
    rw [clzNat] at h ⊢
    split at h
    · rename_i htop
      rwa [if_pos htop]
    · rename_i htop
      rw [if_neg htop]
      simpa [Nat.sub_sub, Nat.add_comm] using ih (by omega)

theorem ctzFrom_le (n i x : Nat) : ctzFrom n i x ≤ i + n := by
  induction n generalizing i with
  | zero => exact Nat.le_refl i
  | succ n ih =>
    rw [ctzFrom]
    split
    · omega
    · exact (ih (i + 1)).trans (by omega)

theorem testBit_of_lt_ctzFrom {n i x k : Nat} (hi : i ≤ k) (h : k < ctzFrom n i x) : x.testBit k = false := by
  induction n generalizing i with
  | zero => exact absurd h (Nat.not_lt.2 hi)
  | succ n ih =>
    rw [ctzFrom] at h
    split at h
    · omega
    · rename_i hbit
      rcases hi.eq_or_lt with rfl | hlt
      · simpa using hbit
      · exact ih hlt h

theorem testBit_ctzFrom {n i x : Nat} (h : ctzFrom n i x < i + n) : x.testBit (ctzFrom n i x) = true := by
  induction n generalizing i with
  | zero => exact absurd h (Nat.lt_irrefl i)
  | succ n ih =>
    rw [ctzFrom] at h ⊢
    split at h
    · rename_i hbit
      rwa [if_pos hbit]
    · rename_i hbit
      rw [if_neg hbit]
      exact ih (by omega)

theorem popNat_eq_length (n x : Nat) : popNat n x = ((List.range n).filter (fun k => x.testBit k)).length := by
  induction n with
  | zero => rfl
  | succ n ih =>
    rw [popNat, ih, List.range_succ, List.filter_append, List.length_append]
    cases h : x.testBit n <;> simp [h]

/-- The number of leading zeros is the place of the highest one bit, counted from the top. -/
theorem clzNat_toNat (v : W64) : clzNat 64 v.toNat ≤ 64 ∧ (v = 0 → clzNat 64 v.toNat = 64) ∧
    (∀ k, k < clzNat 64 v.toNat → v.getMsbD k = false) ∧ (clzNat 64 v.toNat < 64 → v.getMsbD (clzNat 64 v.toNat) = true) := by
  refine ⟨clzNat_le 64 _, ?_, fun k hk => ?_, fun hn => ?_⟩
  · rintro rfl
    rfl
  · rw [BitVec.getMsbD, BitVec.getLsbD, testBit_of_lt_clzNat hk, Bool.and_false]
  · rw [BitVec.getMsbD, BitVec.getLsbD, testBit_clzNat hn, decide_eq_true hn]
    rfl

/-- The number of trailing zeros is the place of the lowest one bit. -/
theorem ctzNat_toNat (v : W64) : ctzNat 64 v.toNat ≤ 64 ∧ (v = 0 → ctzNat 64 v.toNat = 64) ∧
    (∀ k, k < ctzNat 64 v.toNat → v.getLsbD k = false) ∧ (ctzNat 64 v.toNat < 64 → v.getLsbD (ctzNat 64 v.toNat) = true) := by
  refine ⟨ctzFrom_le 64 0 _, ?_, fun k hk => testBit_of_lt_ctzFrom (Nat.zero_le k) hk, fun hn => testBit_ctzFrom hn⟩
  rintro rfl
  rfl

theorem exec_clz (d a : BitVec 6) (s : State) : exec (.clz d a) s = s.alu1 d a (fun v => BitVec.ofNat 64 (clzNat 64 v.toNat)) := rfl

theorem exec_ctz (d a : BitVec 6) (s : State) : exec (.ctz d a) s = s.alu1 d a (fun v => BitVec.ofNat 64 (ctzNat 64 v.toNat)) := rfl

theorem exec_popc (d a : BitVec 6) (s : State) : exec (.popc d a) s = s.alu1 d a (fun v => BitVec.ofNat 64 (popNat 64 v.toNat)) := rfl

theorem scalarCounts_hold : scalarCounts := by
  refine ⟨fun d a s h => ⟨_, ?_, clzNat_toNat (s.sreg a)⟩, fun d a s h => ⟨_, ?_, ctzNat_toNat (s.sreg a)⟩, fun d a s h => ?_⟩
  · rw [exec_clz, State.alu1_issues _ h]
  · rw [exec_ctz, State.alu1_issues _ h]
  · rw [exec_popc, State.alu1_issues _ h, popNat_eq_length]
    rfl

/-! The words of R137 to R139. -/

theorem decodeScalar_op01 {w : W32} (h : field w 26 6 = 1#6) : decodeScalar w = decodeAlu w := by
  simp only [decodeScalar, h]
  rfl

/-- The FN of each function of two sources, as R137 lists them. -/
def aluTwoRows : List (Nat × (BitVec 6 → BitVec 6 → BitVec 6 → Instr)) :=
  [(0x00, .add), (0x01, .sub), (0x02, .mul), (0x03, .mulh), (0x04, .mulhw), (0x05, .div), (0x06, .divw), (0x07, .rem), (0x08, .remw),
    (0x09, .and), (0x0A, .or), (0x0B, .xor), (0x0C, .andn), (0x0D, .shl), (0x0E, .shr), (0x0F, .sar), (0x10, .rot), (0x11, .min), (0x12, .max),
    (0x13, .minw), (0x14, .maxw), (0x18, .seq), (0x19, .sne), (0x1A, .slt), (0x1B, .sltw), (0x1C, .sge), (0x1D, .sgew)]

theorem decodeAlu_two {w : W32} {p : Nat × (BitVec 6 → BitVec 6 → BitVec 6 → Instr)} (hp : p ∈ aluTwoRows)
    (hf : field w 0 8 = BitVec.ofNat 8 p.1) : decodeAlu w = .ok (p.2 (field w 20 6) (field w 14 6) (field w 8 6)) := by
  simp only [decodeAlu, hf]
  unfold aluTwoRows at hp
  fin_cases hp <;> rfl

/-- The FN of each count. -/
def aluCountRows : List (Nat × (BitVec 6 → BitVec 6 → Instr)) := [(0x15, .clz), (0x16, .ctz), (0x17, .popc)]

theorem decodeAlu_count {w : W32} {p : Nat × (BitVec 6 → BitVec 6 → Instr)} (hp : p ∈ aluCountRows) (hf : field w 0 8 = BitVec.ofNat 8 p.1) :
    decodeAlu w = zeroOr 1 (field w 8 6 == 0) (p.2 (field w 20 6) (field w 14 6)) := by
  simp only [decodeAlu, hf]
  unfold aluCountRows at hp
  fin_cases hp <;> rfl

theorem decodeAlu_badFn {w : W32} (hf : 0x1E ≤ (field w 0 8).toNat) : decodeAlu w = .error (.badFn 1 (field w 0 8).toNat) := by
  simp only [decodeAlu]
  generalize (field w 0 8).toNat = n at hf ⊢
  obtain ⟨m, rfl⟩ := Nat.exists_eq_add_of_le' hf
  rfl

/-- The OP of each register–immediate instruction (R138). -/
def immediateRows : List (BitVec 6 × (BitVec 6 → BitVec 6 → BitVec 14 → Instr)) :=
  [(2, .addi), (3, .andi), (4, .ori), (5, .xori), (6, .slti), (7, .sltiw)]

/-- The OP of each branch (R141). -/
def branchRows : List (BitVec 6 × (BitVec 6 → BitVec 6 → BitVec 14 → Instr)) :=
  [(0x10, .beq), (0x11, .bne), (0x12, .blt), (0x13, .bge), (0x14, .bltw), (0x15, .bgew)]

theorem decodeScalar_aluI {w : W32} {p : BitVec 6 × (BitVec 6 → BitVec 6 → BitVec 14 → Instr)} (hp : p ∈ immediateRows ++ branchRows)
    (ho : field w 26 6 = p.1) : decodeScalar w = .ok (p.2 (field w 20 6) (field w 14 6) (field w 0 14)) := by
  simp only [decodeScalar, ho]
  unfold immediateRows branchRows at hp
  fin_cases hp <;> rfl

/-- The KIND of each shift by a constant (R139). -/
def shiftRows : List (BitVec 2 × (BitVec 6 → BitVec 6 → BitVec 6 → Instr)) := [(0, .shli), (1, .shri), (2, .sari), (3, .roti)]

theorem decodeScalar_shift {w : W32} {p : BitVec 2 × (BitVec 6 → BitVec 6 → BitVec 6 → Instr)} (hp : p ∈ shiftRows)
    (ho : field w 26 6 = 8#6) (hk : field w 12 2 = p.1) :
    decodeScalar w = zeroOr 8 (field w 6 6 == 0) (p.2 (field w 20 6) (field w 14 6) (field w 0 6)) := by
  simp only [decodeScalar, ho, hk]
  unfold shiftRows at hp
  fin_cases hp <;> rfl

/-- The fields of an ALU-I word (R92): OP, D, A and IMM14. -/
theorem fields_aluI (o d a : BitVec 6) (n : BitVec 14) (w : W32) (hw : w = o ++ d ++ a ++ n) :
    field w 26 6 = o ∧ field w 20 6 = d ∧ field w 14 6 = a ∧ field w 0 14 = n := by
  subst hw
  simp (disch := omega) only [BitVec.extractLsb'_append_eq_of_add_le, BitVec.extractLsb'_append_eq_of_le, Nat.sub_self, Nat.reduceSub,
    BitVec.extractLsb'_eq_self, and_self]

/-- The fields of a shift by a constant (R139): OP, D, A, KIND, six bits and AMOUNT. -/
theorem fields_shift (o d a : BitVec 6) (k : BitVec 2) (z n : BitVec 6) (w : W32) (hw : w = o ++ d ++ a ++ k ++ z ++ n) :
    field w 26 6 = o ∧ field w 20 6 = d ∧ field w 14 6 = a ∧ field w 12 2 = k ∧ field w 6 6 = z ∧ field w 0 6 = n := by
  subst hw
  simp (disch := omega) only [BitVec.extractLsb'_append_eq_of_add_le, BitVec.extractLsb'_append_eq_of_le, Nat.sub_self, Nat.reduceSub,
    BitVec.extractLsb'_eq_self, and_self]

theorem arithmeticWords_hold : arithmeticWords := by
  refine ⟨fun p hp d a b => ?_, fun p hp d a b => ?_, fun d a b f hf => ?_, fun p hp d a n => ?_, fun p hp d a z n => ?_⟩
  · obtain ⟨ho, hd, ha, hb, hf⟩ := fields_aluR 1 d a b (BitVec.ofNat 8 p.1) _ rfl
    have hw := (decodeScalar_op01 ho).trans (decodeAlu_two hp hf)
    rwa [hd, ha, hb] at hw
  · obtain ⟨ho, hd, ha, hb, hf⟩ := fields_aluR 1 d a b (BitVec.ofNat 8 p.1) _ rfl
    have hw := (decodeScalar_op01 ho).trans (decodeAlu_count hp hf)
    rw [hd, ha, hb] at hw
    simpa using word_of_zeroOr hw
  · obtain ⟨ho, _, _, _, hfn⟩ := fields_aluR 1 d a b f _ rfl
    exact illegalWord_of_decode_error ((decodeScalar_op01 ho).trans (decodeAlu_badFn (by rwa [hfn])))
  · obtain ⟨ho, hd, ha, hn⟩ := fields_aluI p.1 d a n _ rfl
    have hw := decodeScalar_aluI (List.mem_append_left _ hp) ho
    rwa [hd, ha, hn] at hw
  · obtain ⟨ho, hd, ha, hk, hz, hn⟩ := fields_shift 8 d a p.1 z n _ rfl
    have hw := decodeScalar_shift hp ho hk
    rw [hd, ha, hz, hn] at hw
    simpa using word_of_zeroOr hw

/-- Settles O1: every function issues as one of the model's two shapes, with its Op of R137 to R139; the counts are searches for the first one bit;
the words follow from the decoder's rows. -/
theorem scalarArithmetic : Obligations.ScalarArithmetic := ⟨scalarTwoSource_holds, scalarImmediate_holds, scalarCounts_hold, arithmeticWords_hold⟩

end Sys2Proof.Machine

end

/-! ## LIMM, LPC and LCADDR (R140) -/

section
open Sys2Proof

namespace Sys2Proof.Machine

theorem State.alu0_issues {s : State} {d : BitVec 6} (f : W64 → W64) (h : s.issues [d]) :
    s.alu0 d f = .next ((s.setSreg d (f s.pc)).jumpTo (s.pc + 4)) := by
  rw [State.alu0, State.scalarDo_issues h, State.advance_setSreg]

theorem exec_limm {s : State} {d : BitVec 6} (n : BitVec 20) (h : s.issues [d]) :
    exec (.limm d n) s = .next ((s.setSreg d (n.signExtend 64 <<< 12)).jumpTo (s.pc + 4)) :=
  State.alu0_issues (fun _ => n.signExtend 64 <<< 12) h

theorem exec_lpc {s : State} {d : BitVec 6} (n : BitVec 20) (h : s.issues [d]) :
    exec (.lpc d n) s = .next ((s.setSreg d (s.pc + n.signExtend 64 * 4)).jumpTo (s.pc + 4)) := by
  rw [← wordOff_eq_mul]
  exact State.alu0_issues (fun pc => pc + wordOff n) h

theorem exec_lcaddr {s : State} {g sp : Nat} {d : BitVec 6} (n : BitVec 20) (h : s.ready g sp [d]) :
    exec (.lcaddr d n) s = .next ((s.setSreg d ((s.grp g).desc.lcb + n.setWidth 64 * 8)).jumpTo (s.pc + 4)) := by
  have h8 : n.setWidth 64 <<< 3 = n.setWidth 64 * 8#64 := BitVec.shiftLeft_eq_mul_twoPow _ 3
  change execLcaddr d n s = _
  rw [execLcaddr, State.groupDo_ready h, State.advance_setSreg, h8]
  rfl

theorem exec_lcaddr_service {s : State} {k : Nat} (d : BitVec 6) (n : BitVec 20) (h : s.cur = .service k) :
    exec (.lcaddr d n) s = .next (s.serviceTrap k 0x10 0) := by
  change execLcaddr d n s = _
  rw [execLcaddr, State.groupDo_service h]

theorem constantEffects_hold : constantEffects :=
  ⟨fun _ n _ h => ⟨exec_limm n h, exec_lpc n h⟩, fun _ n _ _ _ h => exec_lcaddr n h, fun d n _ _ h => exec_lcaddr_service d n h⟩

/-- The OP of each. -/
def constantRows : List (BitVec 6 × (BitVec 6 → BitVec 20 → Instr)) := [(0x09, .limm), (0x0A, .lpc), (0x0B, .lcaddr)]

theorem decodeScalar_constant {w : W32} {p : BitVec 6 × (BitVec 6 → BitVec 20 → Instr)} (hp : p ∈ constantRows) (ho : field w 26 6 = p.1) :
    decodeScalar w = .ok (p.2 (field w 20 6) (field w 0 20)) := by
  simp only [decodeScalar, ho]
  unfold constantRows at hp
  fin_cases hp <;> rfl

/-- The fields of a word laid out as OP, D and IMM20. -/
theorem fields_imm20 (o d : BitVec 6) (n : BitVec 20) (w : W32) (hw : w = o ++ d ++ n) :
    field w 26 6 = o ∧ field w 20 6 = d ∧ field w 0 20 = n := by
  subst hw
  simp (disch := omega) only [BitVec.extractLsb'_append_eq_of_add_le, BitVec.extractLsb'_append_eq_of_le, Nat.sub_self, Nat.reduceSub,
    BitVec.extractLsb'_eq_self, and_self]

theorem constantWords_hold : constantWords := by
  intro p hp d n
  obtain ⟨ho, hd, hn⟩ := fields_imm20 p.1 d n _ rfl
  have hw := decodeScalar_constant hp ho
  rwa [hd, hn] at hw

/-- Settles O2: LIMM and LPC write a value of the word and its address, LCADDR is a word of compute cores; the words follow from the decoder's
rows. -/
theorem scalarConstants : Obligations.ScalarConstants := ⟨constantEffects_hold, constantWords_hold⟩

end Sys2Proof.Machine

end

/-! ## Branches and jumps (R141 to R143) -/

section
open Sys2Proof

namespace Sys2Proof.Machine

/-! The branches. -/

theorem State.branch_congr {c c' : W64 → W64 → Bool} (s : State) (a b : BitVec 6) (o : BitVec 14) (hc : ∀ x y, c x y = c' x y) :
    s.branch a b o c = s.branch a b o c' := congrArg (s.branch a b o) (funext₂ hc)

theorem bne_eq_decide_ne (x y : W64) : (x != y) = decide (x ≠ y) := by
  rw [Bool.eq_iff_iff, bne_iff_ne, decide_eq_true_iff]

/-- The instruction's comparison in the model is its condition of R141. -/
theorem exec_branchOf {i : Instr} {a b : BitVec 6} {o : BitVec 14} {c : W64 → W64 → Bool} (h : branchOf i = some (a, b, o, c)) (s : State) :
    exec i s = s.branch a b o c := by
  unfold branchOf at h
  split at h
  case h_7 => cases h
  all_goals cases h
  case h_2 => exact (s.branch_congr a b o bne_eq_decide_ne :)
  all_goals rfl

theorem State.branch_issues {s : State} {a b : BitVec 6} (o : BitVec 14) (c : W64 → W64 → Bool) (h : s.issues [a, b]) :
    s.branch a b o c = .next (s.jumpTo (if c (s.sreg a) (s.sreg b) = true then s.pc + o.signExtend 64 * 4 else s.pc + 4)) := by
  rw [State.branch, State.scalarDo_issues h, apply_ite s.jumpTo, wordOff_eq_mul]
  rfl

/-! The exec branches. -/

theorem getLsbD_low64 (n l : Nat) : (low64 n).getLsbD l = (decide (l < 64) && decide (l < n)) := by
  rw [low64, BitVec.getLsbD_ofNat, Nat.testBit_two_pow_sub_one]

/-- The bits below `n` of a word (R31). -/
theorem getLsbD_and_low64 (v : W64) (n l : Nat) : (v &&& low64 n).getLsbD l = (v.getLsbD l && decide (l < n)) := by
  rw [BitVec.getLsbD_and, getLsbD_low64]
  by_cases hl : l < 64
  · rw [decide_eq_true hl, Bool.true_and]
  · rw [BitVec.getLsbD_of_ge v l (Nat.not_lt.1 hl), Bool.false_and, Bool.false_and]

theorem and_low64_eq_zero_iff (v : W64) (n : Nat) : v &&& low64 n = 0 ↔ ∀ l, l < n → v.getLsbD l = false := by
  constructor
  · intro h l hl
    have hbit := getLsbD_and_low64 v n l
    rw [h, decide_eq_true hl, Bool.and_true] at hbit
    exact hbit.symm.trans BitVec.getLsbD_zero
  · intro h
    refine BitVec.eq_of_getLsbD_eq fun l _ => ?_
    rw [getLsbD_and_low64, BitVec.ofNat_eq_ofNat, BitVec.getLsbD_zero]
    by_cases hl : l < n
    · rw [h l hl, Bool.false_and]
    · rw [decide_eq_false hl, Bool.and_false]

theorem exec_bexz {s : State} {g sp : Nat} (o : BitVec 26) (h : s.ready g sp []) :
    exec (.bexz o) s = .next (if (s.split g sp).exec &&& low64 (s.grp g).desc.w = 0 then s.jumpTo (s.pc + o.signExtend 64 * 4)
      else s.jumpTo (s.pc + 4)) := by
  change execBexz o s = _
  rw [execBexz, State.groupDo_ready h, wordOff_eq_mul]
  rfl

theorem exec_bexnz {s : State} {g sp : Nat} (o : BitVec 26) (h : s.ready g sp []) :
    exec (.bexnz o) s = .next (if (s.split g sp).exec &&& low64 (s.grp g).desc.w = 0 then s.jumpTo (s.pc + 4)
      else s.jumpTo (s.pc + o.signExtend 64 * 4)) := by
  change execBexnz o s = _
  rw [execBexnz, State.groupDo_ready h, wordOff_eq_mul]
  rfl

theorem scalarBranches_hold : scalarBranches := by
  refine ⟨fun i a b o c s hi h => (exec_branchOf hi s).trans (State.branch_issues o c h), fun o s g sp h hz => ?_, fun o s g sp l h hl hb => ?_⟩
  · have hexec := (and_low64_eq_zero_iff _ _).2 hz
    rw [exec_bexz o h, exec_bexnz o h, if_pos hexec, if_pos hexec]
    exact ⟨rfl, rfl⟩
  · have hexec : ¬(s.split g sp).exec &&& low64 (s.grp g).desc.w = 0 := fun hz =>
      Bool.false_ne_true (((and_low64_eq_zero_iff _ _).1 hz l hl).symm.trans hb)
    rw [exec_bexz o h, exec_bexnz o h, if_neg hexec, if_neg hexec]
    exact ⟨rfl, rfl⟩

/-! The jumps. -/

theorem exec_jmp {s : State} (o : BitVec 26) (h : s.issues []) : exec (.jmp o) s = .next (s.jumpTo (s.pc + o.signExtend 64 * 4)) := by
  change execJmp o s = _
  rw [execJmp, State.scalarDo_issues h, wordOff_eq_mul]

theorem extractLow_eq_zero_iff (a : W64) : a.extractLsb' 0 2 = 0 ↔ a.toNat % 4 = 0 := by
  refine ⟨fun h => ?_, extractLow_eq_zero_of_aligned⟩
  simpa using congrArg BitVec.toNat h

/-- JR where it issues: on at s[A], or the misaligned-fetch trap (R142). -/
theorem exec_jr {s : State} {a : BitVec 6} (h : s.issues [a]) :
    exec (.jr a) s = .next (if (s.sreg a).toNat % 4 = 0 then s.jumpTo (s.sreg a) else s.misaligned (s.sreg a)) := by
  change execJr a s = _
  rw [execJr, State.scalarDo_issues h]
  simp only [extractLow_eq_zero_iff]

theorem State.misaligned_scalar {s : State} {g sp : Nat} (h : s.cur = .scalar g sp) (target : W64) :
    s.misaligned target = s.fatal g 0x12 (s.split g sp).spc 0 0 sp := by
  simp only [State.misaligned, State.takeTrap, h]

theorem State.misaligned_service {s : State} {k : Nat} (h : s.cur = .service k) (target : W64) :
    s.misaligned target = s.serviceTrap k 0x12 target := by
  simp only [State.misaligned, State.takeTrap, h]

theorem scalarJumps_hold : scalarJumps := by
  refine ⟨fun o s h => exec_jmp o h, fun o s h => exec_call o h, fun a s h ha => ?_, fun a s g sp h ha => ?_, fun a s k h ha => ⟨s.sreg a, ?_⟩⟩
  · rw [exec_jr h, if_pos ha]
  · rw [exec_jr (State.ready_issues h), if_neg ha, State.misaligned_scalar h.1]
  · rw [exec_jr (State.service_issues h _), if_neg ha, State.misaligned_service h]

/-! The words of R141 to R143. -/

/-- The OP of each word with OFF26. -/
def off26Rows : List (BitVec 6 × (BitVec 26 → Instr)) := [(0x16, .jmp), (0x17, .call), (0x1C, .bexz), (0x1D, .bexnz)]

theorem decodeScalar_off26 {w : W32} {p : BitVec 6 × (BitVec 26 → Instr)} (hp : p ∈ off26Rows) (ho : field w 26 6 = p.1) :
    decodeScalar w = .ok (p.2 (field w 0 26)) := by
  simp only [decodeScalar, ho]
  unfold off26Rows at hp
  fin_cases hp <;> rfl

theorem decodeScalar_jr {w : W32} (h : field w 26 6 = 0x18#6) :
    decodeScalar w = zeroOr 0x18 (field w 20 6 == 0 && field w 0 14 == 0) (.jr (field w 14 6)) := by
  simp only [decodeScalar, h]
  rfl

/-- The fields of a word laid out as OP and OFF26. -/
theorem fields_off26 (o : BitVec 6) (n : BitVec 26) (w : W32) (hw : w = o ++ n) : field w 26 6 = o ∧ field w 0 26 = n := by
  subst hw
  simp (disch := omega) only [BitVec.extractLsb'_append_eq_of_add_le, BitVec.extractLsb'_append_eq_of_le, Nat.sub_self,
    BitVec.extractLsb'_eq_self, and_self]

theorem controlWords_hold : controlWords := by
  refine ⟨fun p hp a b o => ?_, fun p hp o => ?_, fun d a z => ?_⟩
  · obtain ⟨hop, ha, hb, ho⟩ := fields_aluI p.1 a b o _ rfl
    have hw := decodeScalar_aluI (List.mem_append_right _ hp) hop
    rwa [ha, hb, ho] at hw
  · obtain ⟨hop, ho⟩ := fields_off26 p.1 o _ rfl
    have hw := decodeScalar_off26 hp hop
    rwa [ho] at hw
  · obtain ⟨hop, hd, ha, hz⟩ := fields_aluI 0x18 d a z _ rfl
    have hw := decodeScalar_jr hop
    rw [hd, ha, hz] at hw
    simpa using word_of_zeroOr hw

/-- Settles O5: each branch is one comparison of the model's, an exec branch asks whether exec is zero below bit W, and JR asks whether its target
is a multiple of 4; the words follow from the decoder's rows. -/
theorem scalarControl : Obligations.ScalarControl := ⟨scalarBranches_hold, scalarJumps_hold, controlWords_hold⟩

end Sys2Proof.Machine

end

/-! ## Exec, masks and single lanes (R150 to R152) -/

section
open Sys2Proof

namespace Sys2Proof.Machine

/-! The EXEC functions. -/

/-- exec := a value, and on: only the executing split's exec, place and wait change (R150). -/
theorem State.advance_setExec {s : State} {g sp : Nat} (h : s.cur = .scalar g sp) (v : W64) :
    (s.setExec g sp v).advance = s.modSplit g sp (fun p => { p with
      exec := v &&& low64 (s.grp g).desc.w
      spc := p.spc + 4
      stall := none }) := by
  have hc : (s.setExec g sp v).cur = .scalar g sp := h
  rw [State.advance, State.jumpTo_scalar hc, State.pc_scalar hc, State.setExec, State.modSplit_modSplit, State.split_modSplit,
    if_pos ⟨rfl, rfl⟩]
  rfl

/-- An EXEC function of a mask register where it issues: the trap, the hold, or the function (R150). -/
theorem State.execMask_ready {s : State} {g sp : Nat} (r : BitVec 6) (f : W64 → W64 → W64) (h : s.ready g sp []) :
    s.execMask r f = .next (if 16 ≤ r.toNat then s.fatal g 0x10 (s.split g sp).spc 0 0 sp
      else if s.maskAwaited g sp r.toNat then s.modSplit g sp (fun p => { p with stall := some .interlock })
      else (s.setExec g sp (f (s.split g sp).exec ((s.grp g).mask r.toNat))).advance) := by
  rw [State.execMask, State.groupDo_ready h, State.illegal_ready h, State.stallAs_scalar h.1]
  rfl

theorem State.execMask_reads {s : State} {g sp : Nat} {r : BitVec 6} (f : W64 → W64 → W64) (h : s.ready g sp []) (hr : r.toNat < 16)
    (hm : s.maskAwaited g sp r.toNat = false) :
    s.execMask r f = .next (s.setExec g sp (f (s.split g sp).exec ((s.grp g).mask r.toNat))).advance := by
  rw [State.execMask_ready r f h, if_neg (Nat.not_le.2 hr), hm, if_neg Bool.false_ne_true]

/-- The EXEC functions that read a mask register differ only in their function. -/
theorem exec_maskWriter {i : Instr} {r : BitVec 6} {f : W64 → W64 → W64 → W64} (h : execWriter i = some (none, some r, f)) (s : State) :
    exec i s = s.execMask r (fun e m => f e 0 m) := by
  unfold execWriter at h
  split at h
  all_goals cases h
  all_goals rfl

theorem exec_execAll {s : State} {g sp : Nat} (h : s.ready g sp []) :
    exec .execAll s = .next (if 1 < (s.grp g).liveSplits.length then s.fatal g 0x10 (s.split g sp).spc 0 0 sp
      else (s.setExec g sp (BitVec.allOnes 64)).advance) := by
  change execExecAll s = _
  rw [execExecAll, State.groupDo_ready h, State.illegal_ready h]

theorem exec_execSet {s : State} {g sp : Nat} {a : BitVec 6} (h : s.ready g sp [a]) :
    exec (.execSet a) s = .next (s.setExec g sp (s.sreg a)).advance := by
  change execExecSet a s = _
  rw [execExecSet, State.groupDo_ready h]

theorem exec_execNot {s : State} {g sp : Nat} {a : BitVec 6} (h : s.ready g sp [a]) :
    exec (.execNot a) s = .next (s.setExec g sp (s.sreg a &&& ~~~(s.split g sp).exec)).advance := by
  change execExecNot a s = _
  rw [execExecNot, State.groupDo_ready h]
  rfl

theorem exec_execGet {s : State} {g sp : Nat} {d : BitVec 6} (h : s.ready g sp [d]) :
    exec (.execGet d) s = .next ((s.setSreg d (s.split g sp).exec).jumpTo (s.pc + 4)) := by
  change execExecGet d s = _
  rw [execExecGet, State.groupDo_ready h, State.advance_setSreg]
  rfl

/-- An EXEC function that may read what it names sets exec to its value and goes on. -/
theorem exec_execWriter {i : Instr} {a m : Option (BitVec 6)} {f : W64 → W64 → W64 → W64} {s : State} {g sp : Nat}
    (hi : execWriter i = some (a, m, f)) (h : s.ready g sp a.toList) (hall : i = .execAll → (s.grp g).liveSplits.length ≤ 1)
    (hm : ∀ r, m = some r → r.toNat < 16 ∧ s.maskAwaited g sp r.toNat = false) :
    exec i s = .next (s.setExec g sp
      (f (s.split g sp).exec ((a.map s.sreg).getD 0) ((m.map (fun r => (s.grp g).mask r.toNat)).getD 0))).advance := by
  have hrow := hi
  unfold execWriter at hi
  split at hi
  case h_7 => cases hi
  all_goals cases hi
  case h_1 => exact exec_execSet h
  case h_5 => exact exec_execNot h
  case h_6 => rw [exec_execAll h, if_neg (Nat.not_lt.2 (hall rfl))]
  all_goals
    obtain ⟨hr, hwait⟩ := hm _ rfl
    exact (exec_maskWriter hrow s).trans (State.execMask_reads _ h hr hwait)

theorem execWrites_hold : execWrites := by
  refine ⟨fun i a m f s g sp hi h hall hm => ?_, fun i r f s g sp hi h => ⟨fun hr => ?_, fun hr hm => ?_⟩, fun s g sp h hl => ?_,
    fun d s g sp h => exec_execGet h⟩
  · rw [exec_execWriter hi h hall hm, State.advance_setExec h.1]
    rfl
  · rw [exec_maskWriter hi, State.execMask_ready r _ h, if_pos hr]
  · rw [exec_maskWriter hi, State.execMask_ready r _ h, if_neg (Nat.not_le.2 hr), if_pos hm]
  · rw [exec_execAll h, if_pos hl]

/-! Scalar reads of masks and of single lanes. -/

/-- A scalar read of a mask register that nothing earlier is still to write (R151). -/
theorem State.maskTo_reads {s : State} {g sp : Nat} {d a : BitVec 6} (f : W64 → Nat → W64) (h : s.ready g sp [d]) (ha : a.toNat < 16)
    (hm : s.maskAwaited g sp a.toNat = false) :
    s.maskTo d a f = .next ((s.setSreg d (f ((s.grp g).mask a.toNat) (s.grp g).desc.w)).jumpTo (s.pc + 4)) := by
  rw [State.maskTo, State.groupDo_ready h, if_neg (Nat.not_le.2 ha), hm, if_neg Bool.false_ne_true, State.advance_setSreg]

theorem exec_msav (d a : BitVec 6) (s : State) : exec (.msav d a) s = s.maskTo d a (fun m _ => m) := rfl

theorem exec_mcnt (d a : BitVec 6) (s : State) :
    exec (.mcnt d a) s = s.maskTo d a (fun m w => BitVec.ofNat 64 (popNat 64 (m &&& low64 w).toNat)) := rfl

theorem exec_mffs (d a : BitVec 6) (s : State) :
    exec (.mffs d a) s = s.maskTo d a (fun m w => BitVec.ofNat 64 (ctzNat 64 (m &&& low64 w).toNat)) := rfl

/-- The lanes below `w` that a mask names. -/
theorem popNat_and_low64 (m : W64) (w : Nat) :
    popNat 64 (m &&& low64 w).toNat = ((List.range 64).filter (fun l => decide (l < w) && m.getLsbD l)).length := by
  rw [popNat_eq_length]
  congr 1
  refine List.filter_congr fun l _ => ?_
  rw [Bool.and_comm, ← getLsbD_and_low64]
  rfl

/-- The lowest lane below `w` that a mask names, or 64. -/
theorem ctzNat_and_low64 (m : W64) (w : Nat) :
    ctzNat 64 (m &&& low64 w).toNat ≤ 64 ∧ (∀ l, l < ctzNat 64 (m &&& low64 w).toNat → l < w → m.getLsbD l = false) ∧
      (ctzNat 64 (m &&& low64 w).toNat < 64 →
        ctzNat 64 (m &&& low64 w).toNat < w ∧ m.getLsbD (ctzNat 64 (m &&& low64 w).toNat) = true) := by
  obtain ⟨hle, _, hbelow, hat⟩ := ctzNat_toNat (m &&& low64 w)
  refine ⟨hle, fun l hl hw => ?_, fun hn => ?_⟩
  · have hbit := hbelow l hl
    rwa [getLsbD_and_low64, decide_eq_true hw, Bool.and_true] at hbit
  · have hbit := hat hn
    rw [getLsbD_and_low64, Bool.and_eq_true, decide_eq_true_iff] at hbit
    exact hbit.symm

theorem Group.laneNameOk_of_lt {x : Group} {v : BitVec 10} {l : BitVec 6} (hv : v.toNat < 640) (hl : l.toNat < x.desc.w)
    (hp : x.popOf v.toNat = none) : x.laneNameOk v l = true := by
  rw [Group.laneNameOk, decide_eq_true hv, decide_eq_true hl, hp]
  rfl

/-- SGET of a legal name that nothing earlier is still to write and that holds no error (R152). -/
theorem exec_sget {s : State} {g sp : Nat} {d l : BitVec 6} {v : BitVec 10} (h : s.ready g sp [d]) (hok : (s.grp g).laneNameOk v l = true)
    (hw : s.regAwaited g sp v.toNat = false) (hbad : v.toNat ∉ (s.grp g).vBad) :
    exec (.sget d v l) s = .next ((s.setSreg d ((((s.grp g).reg v.toNat).lane l.toNat).setWidth 64)).jumpTo (s.pc + 4)) := by
  change execSget d v l s = _
  rw [execSget, State.groupDo_ready h]
  simp only [hok, hw, List.contains_eq_mem, hbad, decide_false, Bool.not_true, Bool.false_eq_true, if_false, State.advance_setSreg]

theorem maskReads_hold : maskReads := by
  refine ⟨fun d a s g sp h ha hm => ⟨?_, ?_, _, ?_, ctzNat_and_low64 ((s.grp g).mask a.toNat) (s.grp g).desc.w⟩,
    fun d v l s g sp h hv hl hp hw hbad => exec_sget h (Group.laneNameOk_of_lt hv hl hp) hw hbad⟩
  · rw [exec_msav, State.maskTo_reads _ h ha hm]
  · rw [exec_mcnt, State.maskTo_reads _ h ha hm, popNat_and_low64]
  · rw [exec_mffs, State.maskTo_reads _ h ha hm]

/-! The words of R150. -/

theorem decodeScalar_op24 {w : W32} (h : field w 26 6 = 0x24#6) : decodeScalar w = decodeFn w := by
  simp only [decodeScalar, h]
  rfl

/-- The FN of each EXEC function with A alone. -/
def execARows : List (BitVec 8 × (BitVec 6 → Instr)) :=
  [(0, .execSet), (2, .execAnd), (3, .execAndn), (4, .execOr), (5, .execNot)]

theorem decodeFn_execA {w : W32} {p : BitVec 8 × (BitVec 6 → Instr)} (hp : p ∈ execARows) (ho : field w 26 6 = 0x24#6) (hf : field w 0 8 = p.1) :
    decodeFn w = zeroOr 0x24 (field w 20 6 == 0 && field w 8 6 == 0) (p.2 (field w 14 6)) := by
  simp only [decodeFn, ho, hf]
  unfold execARows at hp
  fin_cases hp <;> rfl

theorem decodeFn_execGet {w : W32} (ho : field w 26 6 = 0x24#6) (hf : field w 0 8 = 1#8) :
    decodeFn w = zeroOr 0x24 (field w 14 6 == 0 && field w 8 6 == 0) (.execGet (field w 20 6)) := by
  simp only [decodeFn, ho, hf]
  rfl

theorem decodeFn_execAll {w : W32} (ho : field w 26 6 = 0x24#6) (hf : field w 0 8 = 6#8) :
    decodeFn w = zeroOr 0x24 (field w 20 6 == 0 && field w 14 6 == 0 && field w 8 6 == 0) .execAll := by
  simp only [decodeFn, ho, hf]
  rfl

theorem decodeFn_exec_badFn {w : W32} (ho : field w 26 6 = 0x24#6) (hf : 7 ≤ (field w 0 8).toNat) :
    decodeFn w = .error (.badFn 0x24 (field w 0 8).toNat) := by
  simp only [decodeFn, ho]
  generalize (field w 0 8).toNat = n at hf ⊢
  obtain ⟨m, rfl⟩ := Nat.exists_eq_add_of_le' hf
  rfl

theorem execWords_hold : execWords := by
  refine ⟨fun p hp d a b => ?_, fun d a b => ?_, fun d a b => ?_, fun d a b f hf => ?_⟩
  · obtain ⟨ho, hd, ha, hb, hf⟩ := fields_aluR 0x24 d a b p.1 _ rfl
    have hw := (decodeScalar_op24 ho).trans (decodeFn_execA hp ho hf)
    rw [hd, ha, hb] at hw
    simpa using word_of_zeroOr hw
  · obtain ⟨ho, hd, ha, hb, hf⟩ := fields_aluR 0x24 d a b 1 _ rfl
    have hw := (decodeScalar_op24 ho).trans (decodeFn_execGet ho hf)
    rw [hd, ha, hb] at hw
    simpa using word_of_zeroOr hw
  · obtain ⟨ho, hd, ha, hb, hf⟩ := fields_aluR 0x24 d a b 6 _ rfl
    have hw := (decodeScalar_op24 ho).trans (decodeFn_execAll ho hf)
    rw [hd, ha, hb] at hw
    simpa [and_assoc] using word_of_zeroOr hw
  · obtain ⟨ho, _, _, _, hfn⟩ := fields_aluR 0x24 d a b f _ rfl
    exact illegalWord_of_decode_error ((decodeScalar_op24 ho).trans (decodeFn_exec_badFn ho (by rwa [hfn])))

/-- Settles O10: each EXEC function sets exec below bit W and goes on, once the mask register it names may be read; the masks' counts are the counts
of the word's bits below W; the words follow from the decoder's rows. -/
theorem execAndMasks : Obligations.ExecAndMasks := ⟨execWrites_hold, maskReads_hold, execWords_hold⟩

end Sys2Proof.Machine

end

/-! ## Translation (R221 to R227) -/

section
open Sys2Proof

namespace Sys2Proof.Machine

/-! The fields of a table entry, in numbers (R221, R222). -/

/-- A field of a word is the word's number, shifted and cut. -/
theorem toNat_bits (e : W64) (o n : Nat) : (e.extractLsb' o n).toNat = e.toNat / 2 ^ o % 2 ^ n := by
  rw [BitVec.extractLsb'_toNat, Nat.shiftRight_eq_div_pow]

theorem bits_ne_zero_iff (e : W64) (o n : Nat) : (e.extractLsb' o n != 0) = true ↔ e.toNat / 2 ^ o % 2 ^ n ≠ 0 := by
  rw [bne_iff_ne, ne_eq, ← BitVec.toNat_inj, toNat_bits]
  rfl

theorem getLsbD_iff_div_mod (e : W64) (i : Nat) : e.getLsbD i = true ↔ e.toNat / 2 ^ i % 2 = 1 := by
  rw [BitVec.getLsbD, Nat.testBit_eq_decide_div_mod_eq, decide_eq_true_iff]

theorem walkIndex_eq (va : W64) : walkIndex 0 va = va.toNat / 2 ^ 39 % 2 ^ 17 ∧ walkIndex 1 va = va.toNat / 2 ^ 30 % 512 ∧
    walkIndex 2 va = va.toNat / 2 ^ 21 % 512 ∧ walkIndex 3 va = va.toNat / 2 ^ 12 % 512 :=
  ⟨toNat_bits va 39 17, toNat_bits va 30 9, toNat_bits va 21 9, toNat_bits va 12 9⟩

theorem pteSz_eq (e : W64) : pteSz e = e.toNat / 2 ^ 12 % 16 := toNat_bits e 12 4

theorem ptePfn_eq (e : W64) : ptePfn e = e.toNat / 2 ^ 16 % 2 ^ 32 := toNat_bits e 16 32

/-- An entry is a leaf when any of R, W and X, its bits 1 to 3, is set. -/
theorem pteIsLeaf_iff (e : W64) : pteIsLeaf e = true ↔ e.toNat / 2 % 8 ≠ 0 := by
  simp only [pteIsLeaf, pteR, pteW, pteX, Bool.or_eq_true, getLsbD_iff_div_mod]
  omega

theorem leafPa_eq (e va : W64) :
    leafPa e va = e.toNat / 2 ^ 16 % 2 ^ 32 * 65536 + va.toNat % max (4096 * 2 ^ (e.toNat / 2 ^ 12 % 16)) 65536 := by
  rw [leafPa, ptePfn_eq, pteSz_eq, pageBytes]

theorem pageBytes_pos (sz : Nat) : 0 < pageBytes sz := by
  unfold pageBytes
  positivity

/-- The PFN bits below the page size are zero when the frame's address is a multiple of the page's size, or of 64 KiB for a smaller page (R223). -/
theorem pfn_misaligned_iff (sz pfn : Nat) :
    (1 < pageBytes sz / 65536 ∧ pfn % (pageBytes sz / 65536) ≠ 0) ↔ pfn * 65536 % max (pageBytes sz) 65536 ≠ 0 := by
  rcases Nat.lt_or_ge sz 5 with hsmall | hbig
  · have hle : pageBytes sz ≤ 65536 := Nat.mul_le_mul_left 4096 (Nat.pow_le_pow_right (n := 2) (by decide) (Nat.le_of_lt_succ hsmall))
    rw [max_eq_right hle, Nat.mul_mod_left]
    omega
  · obtain ⟨k, rfl⟩ := Nat.exists_eq_add_of_le' hbig
    have hpage : pageBytes (k + 5) = 2 ^ (k + 1) * 65536 := by
      unfold pageBytes
      ring
    have hlow : 1 < 2 ^ (k + 1) := Nat.one_lt_two_pow (Nat.succ_ne_zero k)
    rw [hpage, Nat.mul_div_cancel _ (by decide), max_eq_left (by omega), Nat.mul_mod_mul_right]
    omega

/-- The model's check of an entry is R224's list of cases. -/
theorem pteMalformed_iff (level : Nat) (e : W64) : pteMalformed level e = true ↔ badEntry level e := by
  rw [badEntry, ← pteSz_eq, ← ptePfn_eq, ← pageBytes, ← hbmEnd]
  by_cases hleaf : pteIsLeaf e = true
  case pos =>
    simp only [pteMalformed, if_pos hleaf, if_pos ((pteIsLeaf_iff e).1 hleaf), Bool.or_eq_true, Bool.and_eq_true, decide_eq_true_iff,
      beq_iff_eq, bits_ne_zero_iff, pfn_misaligned_iff, Nat.reducePow, gt_iff_lt, or_assoc]
  case neg =>
    simp only [pteMalformed, if_neg hleaf, if_neg (mt (pteIsLeaf_iff e).2 hleaf), Bool.or_eq_true, decide_eq_true_iff, beq_iff_eq,
      bits_ne_zero_iff, Nat.reducePow, or_assoc]

/-! One level of a walk (R225). -/

theorem State.walkFrom_level {s : State} {va e : W64} {level node : Nat} (hl : level ≤ 3) (hb : s.hbmBadIn (node + 8 * walkIndex level va) 8 = false)
    (he : e = BitVec.ofNat 64 (s.hbmNat (node + 8 * walkIndex level va) 8)) : s.walkFrom va (4 - level) node =
      if e.getLsbD 0 = false then .fault 0 else if pteMalformed level e = true then .fault 2
      else if pteIsLeaf e = true then .leaf (node + 8 * walkIndex level va) e
      else s.walkFrom va (3 - level) (ptePfn e * 65536 + pteSz e * 4096) := by
  rw [show 4 - level = (3 - level) + 1 by omega, State.walkFrom, Nat.sub_sub_self hl]
  simp only [hb, ← he, pteV, Bool.not_eq_true', Bool.false_eq_true, if_false]

theorem walkLevels_hold (s : State) (va e : W64) (level node : Nat) (hl : level ≤ 3) (hb : s.hbmBadIn (node + 8 * walkIndex level va) 8 = false)
    (he : e = BitVec.ofNat 64 (s.hbmNat (node + 8 * walkIndex level va) 8)) :
    (e.getLsbD 0 = false → s.walkFrom va (4 - level) node = .fault 0) ∧
    (e.getLsbD 0 = true → badEntry level e → s.walkFrom va (4 - level) node = .fault 2) ∧
    (e.getLsbD 0 = true → ¬ badEntry level e → e.toNat / 2 % 8 ≠ 0 →
      s.walkFrom va (4 - level) node = .leaf (node + 8 * walkIndex level va) e) ∧
    (e.getLsbD 0 = true → ¬ badEntry level e → e.toNat / 2 % 8 = 0 → s.walkFrom va (4 - level) node =
      s.walkFrom va (3 - level) (e.toNat / 2 ^ 16 % 2 ^ 32 * 65536 + e.toNat / 2 ^ 12 % 16 * 4096)) := by
  rw [State.walkFrom_level hl hb he, ← ptePfn_eq, ← pteSz_eq, ← pteMalformed_iff]
  refine ⟨fun hv => if_pos hv, fun hv hbad => ?malformed, fun hv hgood hleaf => ?leaf, fun hv hgood htable => ?table⟩ <;>
    rw [if_neg ((Bool.not_eq_false _).mpr hv)]
  case malformed => rw [if_pos hbad]
  case leaf => rw [if_neg hgood, if_pos ((pteIsLeaf_iff e).2 hleaf)]
  case table => rw [if_neg hgood, if_neg (mt (pteIsLeaf_iff e).1 (not_not.2 htable))]

/-- A walk's fault is "not valid" or "malformed": a leaf's rights are checked after it. -/
theorem State.walkFrom_cause_le {s : State} {va : W64} {left node c : Nat} (h : s.walkFrom va left node = .fault c) : c ≤ 2 := by
  induction left generalizing node with
  | zero =>
    cases h
    exact Nat.le_refl 2
  | succ k ih =>
    simp only [State.walkFrom] at h
    split at h
    case isTrue => cases h
    case isFalse =>
      split_ifs at h
      case pos => cases h; exact Nat.zero_le 2
      case pos => cases h; exact Nat.le_refl 2
      case neg => exact ih h

/-! The slot that a walk marks (R225). -/

theorem Memory.readN_eq_map (m : Memory) (a n : Nat) : m.readN a n = (List.range n).map (fun i => m.read (a + i)) := by
  induction n generalizing a with
  | zero => rfl
  | succ n ih =>
    rw [Memory.readN, ih, List.range_succ_eq_map, List.map_cons, List.map_map]
    simp only [Nat.add_zero, Function.comp_def, Nat.add_right_comm a, Nat.succ_eq_add_one, Nat.add_assoc]

/-- Bytes read back where they were written. -/
theorem Memory.readN_writeN {m : Memory} (h : m.wf = true) (a : Nat) (bs : List Byte) : (m.writeN a bs).readN a bs.length = bs := by
  refine List.ext_getElem (by simp [Memory.readN_eq_map]) fun i _ hi => ?_
  simp [Memory.readN_eq_map, Memory.read_writeN m a _ bs h, hi]

theorem length_leBytes (n v : Nat) : (leBytes n v).length = n := by
  induction n generalizing v with
  | zero => rfl
  | succ n ih => rw [leBytes, List.length_cons, ih]

theorem leNat_leBytes {n v : Nat} (h : v < 2 ^ (8 * n)) : leNat (leBytes n v) = v := by
  induction n generalizing v with
  | zero => exact (Nat.lt_one_iff.1 h).symm
  | succ n ih =>
    have hv : v / 256 < 2 ^ (8 * n) := Nat.div_lt_of_lt_mul (by rwa [Nat.mul_succ, Nat.add_comm, Nat.pow_add] at h)
    rw [leBytes, leNat, ih hv, BitVec.toNat_ofNat, Nat.mod_add_div]

theorem leNat_lt (bs : List Byte) : leNat bs < 2 ^ (8 * bs.length) := by
  induction bs with
  | nil => exact Nat.one_pos
  | cons b t ih =>
    have hb : b.toNat < 256 := b.isLt
    rw [leNat, List.length_cons, Nat.mul_succ, Nat.pow_add]
    omega

theorem State.hbmNat_lt (s : State) (a n : Nat) : s.hbmNat a n < 2 ^ (8 * n) := by
  have hlen : (s.hbmRead a n).length = n := by
    rw [State.hbmRead, Memory.readN_eq_map, List.length_map, List.length_range]
  have h := leNat_lt (s.hbmRead a n)
  rwa [hlen] at h

/-- A number read back where it was written. -/
theorem State.hbmNat_hbmPut {s : State} {own : Option (Nat × Nat)} {a n v : Nat} (h : s.hbm.wf = true) (hv : v < 2 ^ (8 * n)) :
    (s.hbmPut own a n v).hbmNat a n = v := by
  have hr := Memory.readN_writeN h a (leBytes n v)
  rw [length_leBytes] at hr
  exact (congrArg leNat hr).trans (leNat_leBytes hv)

theorem State.read_hbmPut_of_outside {s : State} {own : Option (Nat × Nat)} {a n v b : Nat} (h : s.hbm.wf = true) (hb : b < a ∨ a + n ≤ b) :
    (s.hbmPut own a n v).hbm.read b = s.hbm.read b := by
  refine (Memory.read_writeN s.hbm a b (leBytes n v) h).trans (if_neg ?_)
  rw [length_leBytes]
  omega

/-- The walker sets A, and D for a write, in the slot. -/
theorem State.hbmNat_orLeaf {s : State} (h : s.hbm.wf = true) (slot : Nat) (write : Bool) :
    (s.orLeaf slot write).hbmNat slot 8 = s.hbmNat slot 8 ||| (if write then 0x180 else 0x80) := by
  have hnew : (s.hbmNat slot 8 ||| if write = true then 0x180 else 0x80) < 2 ^ (8 * 8) :=
    Nat.or_lt_two_pow (s.hbmNat_lt slot 8) (by cases write <;> decide)
  simp only [State.orLeaf]
  generalize (s.hbmNat slot 8 ||| if write = true then 0x180 else 0x80) = new at hnew ⊢
  split
  case isTrue hsame => exact hsame.symm
  case isFalse => exact State.hbmNat_hbmPut h hnew

theorem State.read_orLeaf_of_outside {s : State} {slot a : Nat} (h : s.hbm.wf = true) (ha : a < slot ∨ slot + 8 ≤ a) (write : Bool) :
    (s.orLeaf slot write).hbm.read a = s.hbm.read a := by
  simp only [State.orLeaf]
  generalize (s.hbmNat slot 8 ||| if write = true then 0x180 else 0x80) = new
  split
  · rfl
  · exact State.read_hbmPut_of_outside h ha

/-! The buffer that a walk fills (R226). -/

@[simp] theorem State.hbm_tlbFill (s : State) (tlb : Option Nat) (e : TlbEntry) : (s.tlbFill tlb e).hbm = s.hbm := by
  cases tlb <;> rfl

@[simp] theorem State.hbmNat_tlbFill (s : State) (tlb : Option Nat) (e : TlbEntry) (a n : Nat) : (s.tlbFill tlb e).hbmNat a n = s.hbmNat a n := by
  cases tlb <;> rfl

@[simp] theorem State.tlbOf_setTlb (s : State) (tlb : Option Nat) (l : List TlbEntry) : (s.setTlb tlb l).tlbOf tlb = l := by
  cases tlb with
  | none => rfl
  | some c => simp [State.setTlb, State.tlbOf]

/-- The newest entry stays: a full buffer drops its oldest (log 11). -/
theorem State.mem_tlbFill (s : State) (tlb : Option Nat) (e : TlbEntry) : e ∈ (s.tlbFill tlb e).tlbOf tlb := by
  simp only [State.tlbFill, State.tlbOf_setTlb]
  split_ifs <;> exact List.mem_append_right _ (List.mem_singleton_self e)

/-- The entry of the page that holds an address maps that address. -/
theorem TlbEntry.maps_of_base {x : TlbEntry} {va : W64}
    (h : x.base = BitVec.ofNat 64 (va.toNat % 2 ^ 56 / pageBytes x.size * pageBytes x.size)) : x.maps va = true := by
  have hlt : va.toNat % 2 ^ 56 / pageBytes x.size * pageBytes x.size < 2 ^ 64 :=
    (Nat.div_mul_le_self _ _).trans_lt ((Nat.mod_lt _ (by decide)).trans (by decide))
  rw [TlbEntry.maps, beq_iff_eq, h, BitVec.toNat_ofNat, Nat.mod_eq_of_lt hlt, Nat.mul_div_cancel _ (pageBytes_pos x.size)]

/-! Rights (R227). -/

theorem Need.allows_iff (n : Need) (e : W64) : n.allows e = true ↔ (n.r = true → e.getLsbD 1 = true) ∧ (n.w = true → e.getLsbD 2 = true) ∧
    (n.x = true → e.getLsbD 3 = true) ∧ (n.egress = true → e.getLsbD 5 = false) := by
  simp only [Need.allows, pteR, pteW, pteX, pteM, Bool.and_eq_true, Bool.or_eq_true, Bool.not_eq_true', and_assoc, ← Bool.not_eq_true, ← imp_iff_not_or]

theorem Need.allows_eq_false {n : Need} {e : W64} (h : (n.r = true ∧ e.getLsbD 1 = false) ∨ (n.w = true ∧ e.getLsbD 2 = false) ∨
    (n.x = true ∧ e.getLsbD 3 = false) ∨ (n.egress = true ∧ e.getLsbD 5 = true)) : n.allows e = false := by
  rw [← Bool.not_eq_true, Need.allows_iff]
  rintro ⟨hr, hw, hx, hm⟩
  rcases h with ⟨hn, hb⟩ | ⟨hn, hb⟩ | ⟨hn, hb⟩ | ⟨hn, hb⟩
  · exact Bool.false_ne_true (hb.symm.trans (hr hn))
  · exact Bool.false_ne_true (hb.symm.trans (hw hn))
  · exact Bool.false_ne_true (hb.symm.trans (hx hn))
  · exact Bool.false_ne_true ((hm hn).symm.trans hb)

/-! Translation by a walk, and through an entry that a buffer holds. -/

theorem setWidth_56_of_lt {va : W64} (h : va.toNat < 2 ^ 56) : (va.setWidth 56).setWidth 64 = va := by
  refine BitVec.eq_of_toNat_eq ?_
  rw [BitVec.toNat_setWidth, BitVec.toNat_setWidth]
  omega

theorem State.translate_of_miss {s : State} {b : Option Nat} {va : W64} (hva : va.toNat < 2 ^ 56) (h : ∀ x ∈ s.tlbOf b, x.maps va = false) (n : Need) :
    s.translate b va n = s.translateWalk b va n := by
  have hfind : (s.tlbOf b).find? (fun y => y.maps va) = none := List.find?_eq_none.2 fun x hx => by simp [h x hx]
  simp only [State.translate, setWidth_56_of_lt hva, hfind]

theorem State.translateWalk_fault {s : State} {b : Option Nat} {va : W64} {n : Need} {c : Nat} (h : s.walk va = .fault c) :
    s.translateWalk b va n = (s, .fault c) := by
  simp only [State.translateWalk, h]

theorem State.translateWalk_denied {s : State} {b : Option Nat} {va e : W64} {n : Need} {slot : Nat} (h : s.walk va = .leaf slot e)
    (hn : n.allows e = false) : s.translateWalk b va n = (s, .fault 1) := by
  simp only [State.translateWalk, h, hn, Bool.false_eq_true, if_false]

/-- A leaf that allows the access gives the address; the slot is marked and the buffer filled. -/
theorem State.translateWalk_allowed {s : State} {b : Option Nat} {va e : W64} {n : Need} {slot : Nat} (h : s.walk va = .leaf slot e)
    (hn : n.allows e = true) : ∃ x : TlbEntry, x.maps va = true ∧
      s.translateWalk b va n = ((s.orLeaf slot n.w).tlbFill b x, .ok (leafPa e va)) := by
  simp only [State.translateWalk, h, hn, if_true]
  exact ⟨_, TlbEntry.maps_of_base rfl, rfl⟩

section
variable {s : State} {b : Option Nat} {va : W64} {n : Need} {x : TlbEntry}
variable (hva : va.toNat < 2 ^ 56) (hx : (s.tlbOf b).find? (fun y => y.maps va) = some x)
include hva hx

theorem State.translate_hit_denied (hn : n.allows x.leaf = false) : s.translate b va n = (s, .fault 1) := by
  simp only [State.translate, setWidth_56_of_lt hva, hx, hn, Bool.not_false, if_true]

theorem State.translate_hit_used (hn : n.allows x.leaf = true) (hd : n.w = false ∨ pteD x.leaf = true) :
    s.translate b va n = (s, .ok (leafPa x.leaf va)) := by
  have hclean : (n.w && !pteD x.leaf) = false := by
    rcases hd with hd | hd <;> simp [hd]
  simp only [State.translate, setWidth_56_of_lt hva, hx, hn, hclean, Bool.not_true, Bool.false_eq_true, if_false]

/-- A write through an entry with D clear walks again, and meets the walk's fault. -/
theorem State.translate_hit_walks (hn : n.allows x.leaf = true) (hw : n.w = true) (hd : pteD x.leaf = false) {c : Nat} (hc : s.walk va = .fault c) :
    s.translate b va n = (s, .fault c) := by
  simp only [State.translate, setWidth_56_of_lt hva, hx, hn, hw, hd, hc, Bool.not_true, Bool.not_false, Bool.and_self, Bool.false_eq_true, if_false,
    if_true]

end

/-! The causes of a fault (R227). -/

theorem State.translateWalk_cause_le {s t : State} {b : Option Nat} {va : W64} {n : Need} {c : Nat}
    (h : s.translateWalk b va n = (t, .fault c)) : c ≤ 2 := by
  rcases hw : s.walk va with ⟨slot, e⟩ | c' | pa <;> simp only [State.translateWalk, hw] at h
  case leaf =>
    split at h <;> cases h
    exact Nat.le_succ 1
  case fault =>
    cases h
    exact State.walkFrom_cause_le hw
  case check => cases h

theorem State.translate_cause_le {s t : State} {b : Option Nat} {va : W64} {n : Need} {c : Nat}
    (h : s.translate b va n = (t, .fault c)) : c ≤ 2 := by
  simp only [State.translate] at h
  split at h
  · exact State.translateWalk_cause_le h
  · split_ifs at h
    · cases h
      exact Nat.le_succ 1
    · rcases hw : s.walk ((va.setWidth 56).setWidth 64) with ⟨slot, e⟩ | c' | pa <;> simp only [hw] at h
      case leaf =>
        split at h <;> cases h
        exact Nat.le_succ 1
      case fault =>
        cases h
        exact State.walkFrom_cause_le hw
      case check => cases h
    · cases h

/-- Settles O55: a walk's level is the entry's cases with R224's list in numbers; an access that misses the buffer is its walk, whose mark and fill
change the slot and the buffer alone; one that hits it is the entry's rights, with a walk when a write finds D clear. -/
theorem translation : Obligations.Translation := by
  refine ⟨walkIndex_eq, walkLevels_hold, fun s b va n hva hwf hmiss => ⟨fun c hc => ?fault, fun slot e he => ⟨fun hn => ?denied, fun hr hw hx hm => ?ok⟩⟩,
    fun s b va n x hva hx hn => ⟨fun hd => ?used, fun hw hd c hc => State.translate_hit_walks hva hx hn hw hd hc⟩,
    fun s b va n x hva hx hn => State.translate_hit_denied hva hx (Need.allows_eq_false hn), fun s t b va n c h => State.translate_cause_le h⟩
  case fault => rw [State.translate_of_miss hva hmiss, State.translateWalk_fault hc]
  case denied => rw [State.translate_of_miss hva hmiss, State.translateWalk_denied he (Need.allows_eq_false hn)]
  case ok =>
    obtain ⟨x, hmaps, ht⟩ := State.translateWalk_allowed (b := b) he ((n.allows_iff e).2 ⟨hr, hw, hx, hm⟩)
    refine ⟨_, by rw [State.translate_of_miss hva hmiss, ht, leafPa_eq], ?_, fun a ha => ?_, x, State.mem_tlbFill _ b x, hmaps⟩
    · rw [State.hbmNat_tlbFill, State.hbmNat_orLeaf hwf]
    · rw [State.hbm_tlbFill, State.read_orLeaf_of_outside hwf ha]
  case used => rw [State.translate_hit_used hva hx hn hd, leafPa_eq]

end Sys2Proof.Machine

end
